-- ==== Sys2Proof/Word.lean ====
section
/-! DEFINITION. The word types of the Xotus node and the sparse tables its arrays are kept in. -/

namespace Sys2Proof

/-- One byte (R12). -/
abbrev Byte := BitVec 8

/-- One parcel of an instruction, or a 32-bit element. -/
abbrev Word32 := BitVec 32

/-- A doubleword: a general register, a control-space register, a fabric address. -/
abbrev Word := BitVec 64

/-- A sparse array: rising keys, no entry at the array's default value. -/
abbrev Tab (α : Type) := List (Nat × α)

end Sys2Proof
end

