-- ==== Sys2Proof/Syntax.lean ====
section
/-! DEFINITION. The commands the Xotus node takes: one constructor of `Instr` per row of the opcode table,
with the operands its rule gives. An instruction row carries the fields of its encoding frame (R117, R121),
the fields the row marks "0" included, so that R120 can be stated; a packet row carries the arriving
packet; a register row carries the requester and the value; a time or pin row carries what the
surroundings present. -/

namespace Sys2Proof

/-- The two hardware contexts (R24). -/
inductive CtxId where
  | c0 | c1
  deriving DecidableEq, Repr

/-- The four outward ports and the local port (R316). -/
inductive Port where
  | n | e | s | w | l
  deriving DecidableEq, Repr

/-! ### Encoding frames -/

/-- Frame A, register (R117): FUNC bit 6 is F; the operation code is the command's own. -/
structure FrameA where
  cond : BitVec 3
  rd : BitVec 5
  rs1 : BitVec 5
  rs2 : BitVec 5
  f : Bool
  deriving DecidableEq, Repr

/-- Frame B, immediate (R117). `rd` is the source of a store. -/
structure FrameB where
  cond : BitVec 3
  rd : BitVec 5
  rs1 : BitVec 5
  imm : BitVec 12
  deriving DecidableEq, Repr

/-- Frame B of the shift immediates: IMM12 is [5:0] count, [8] F, [11:9] reserved (R123). -/
structure FrameSh where
  cond : BitVec 3
  rd : BitVec 5
  rs1 : BitVec 5
  count : BitVec 6
  f : Bool
  rsv : BitVec 3
  deriving DecidableEq, Repr

/-- Frame C, condition (R117). -/
structure FrameC where
  cond : BitVec 3
  cc : BitVec 4
  off : BitVec 18
  deriving DecidableEq, Repr

/-- Frame D, long (R117). -/
structure FrameD where
  cond : BitVec 3
  off : BitVec 22
  deriving DecidableEq, Repr

/-- Frame E, halfword (R117); `n` chooses MOVH0 to MOVH3. -/
structure FrameE where
  cond : BitVec 3
  n : BitVec 2
  rd : BitVec 5
  keep : Bool
  imm : BitVec 16
  deriving DecidableEq, Repr

/-- The 64-bit LIW and LIWH (R122); `zero` is first-parcel bits [12:1]. -/
structure FrameL where
  cond : BitVec 3
  rd : BitVec 5
  zero : BitVec 12
  imm : BitVec 32
  deriving DecidableEq, Repr

/-- SEND (R126): frame A with FUNC[1:0] = LEN - 1 and FUNC[6:2] reserved. -/
structure FrameSend where
  cond : BitVec 3
  rd : BitVec 5
  rs1 : BitVec 5
  rs2 : BitVec 5
  rsv : BitVec 5
  lenm1 : BitVec 2
  deriving DecidableEq, Repr

/-- 32-bit vector instructions (R304): FUNC[1:0] is the type T. -/
structure FrameV where
  cond : BitVec 3
  vd : BitVec 5
  va : BitVec 5
  vb : BitVec 5
  t : BitVec 2
  deriving DecidableEq, Repr

/-- 64-bit vector instructions (R305): V, X, first-parcel [2:0] and the second parcel. -/
structure FrameW where
  cond : BitVec 3
  v : BitVec 5
  x : BitVec 5
  zero : BitVec 3
  p2 : BitVec 32
  deriving DecidableEq, Repr

/-- Matrix instructions (R248 to R252): first-parcel [12:0] and the second parcel. -/
structure FrameM where
  cond : BitVec 3
  p1 : BitVec 13
  p2 : BitVec 32
  deriving DecidableEq, Repr

/-! ### Packets -/

/-- A packet of the mesh: the header fields of R321 and the payload bytes. `vc` is the channel it is on. -/
structure Packet where
  ty : BitVec 5
  host : Bool
  xd : Bool
  xcls : Bool
  len : BitVec 9
  hops : BitVec 7
  status : BitVec 8
  seq : BitVec 16
  tag : BitVec 16
  dst : Word
  src : BitVec 22
  sctx : Bool
  shost : Bool
  sport : BitVec 2
  exitN : BitVec 10
  exitP : BitVec 2
  exitV : Bool
  wpx : BitVec 5
  wpy : BitVec 5
  wpv : Bool
  hport : BitVec 2
  tohost : Bool
  aux : Word
  vc : BitVec 2
  payload : List Byte
  deriving DecidableEq, Repr

/-- What the check bits of R48 find on an arriving packet's flits. -/
inductive FlitErr where
  /-- every half passes -/
  | clean
  /-- `n` halves were corrected -/
  | corrected (n : Nat)
  /-- uncorrectable in the upper half of the header or in a data flit (R459); `n` other halves were corrected -/
  | body (n : Nat)
  /-- uncorrectable in the lower half of the header (R459); `n` other halves were corrected -/
  | header (n : Nat)
  deriving DecidableEq, Repr

/-- A packet arriving at a router input. -/
structure Arrival where
  port : Port
  pkt : Packet
  err : FlitErr
  deriving DecidableEq, Repr

/-! ### Register accesses -/

/-- Who makes a control-space access (R496). `core` is the issuing context at its current level. -/
inductive Requester where
  | core | host | node
  deriving DecidableEq, Repr

/-- A write of one value to a register, by a requester; of a host or a node, `req` is the WRITE that asks for it, which is
answered as R322 says. -/
structure RegWr where
  who : Requester
  v : Word
  req : Packet
  deriving DecidableEq, Repr

/-- A read of a register by a requester; of a host or a node, `req` is the READ that asks for it, which is answered as R322 says. -/
structure RegRd where
  who : Requester
  req : Packet
  deriving DecidableEq, Repr

/-- A pulse on an incoming WAKE (R49): the port, and the AON ticks it stays high. -/
structure WakePulse where
  port : Port
  ticks : Nat
  deriving DecidableEq, Repr

/-- An access through the IEEE 1687 network (R65, R504). -/
inductive TestAcc where
  | regRead (off : Nat)
  | regWrite (off : Nat) (v : Word)
  | sysRead (c : CtxId) (num : BitVec 12)
  | memRead (addr : Nat)
  | memWrite (addr : Nat) (v : Byte)
  | tileRead (addr : Nat)
  | tileWrite (addr : Nat) (v : Byte)
  | accRead (cell : Nat)
  | accWrite (cell : Nat) (v : BitVec 96) (anchor : BitVec 10)
  | fuseRead (byte : Nat)
  deriving DecidableEq, Repr

/-- The array an MBIST run covers (R65, R67). -/
inductive MbistArray where
  | localMem | tile
  /-- any other array with protection of its own (R458) -/
  | other
  deriving DecidableEq, Repr

/-! ### What the surroundings present -/

/-- The straps as tied on the die (R54, R55). -/
structure Straps where
  pmN : BitVec 2
  pmE : BitVec 2
  pmS : BitVec 2
  pmW : BitVec 2
  hint : BitVec 11
  deriving DecidableEq, Repr

/-- What an AON tick measures: the activity no command shows, such as clock cycles, by the number of its counter (R436); the energy
the LDO sensed, in 1/16 nJ; and VLOG in millivolts (R421, R482). -/
structure TickEnergy where
  counts : List (Nat × Nat)
  sensed : Nat
  vlog : BitVec 10
  deriving DecidableEq, Repr

/-- What a NOP command brings: NOP's word, or the first parcel of a word that names no instruction (R120).
DESIGN CHOICE (assumption 101). -/
inductive NopWord where
  | nop (a : FrameA)
  | other (p : Word32)
  deriving DecidableEq, Repr

/-- What one lane brings in one PHY cycle: PHY_RXD, or none where PHY_RXV is low (R51, R357). -/
abbrev LaneWord := Option (BitVec 256)

/-- The commands, one per row of the opcode table, in the table's order. -/
inductive Instr where
  /-- PORST_N_ASSERT (R43): Power-on reset goes low, and every register and output takes its reset value. -/
  | porstNAssert
  /-- PORST_N_RELEASE (R43): Power-on reset is released and synchronised, the straps are latched, STAGE becomes FUSE and FUSE_REQ is raised. -/
  | porstNRelease (st : Straps)
  /-- FUSE_IMAGE (R63): A complete 256-byte fuse image is received and its CRC checked; it is accepted, requested again once, or a start-up fault is recorded. -/
  | fuseImage (bytes : List Byte)
  /-- FUSE_TIMEOUT (R63): No fuse image has arrived within the allowed time, so FUSE_TIMEOUT is recorded and the node fences with its node domain off. -/
  | fuseTimeout
  /-- PLL_REF_LOSS (R42): PLL_REF has shown no edge for 25 AON ticks, so the ADPLLs run free and the node checkstops. -/
  | pllRefLoss
  /-- ROUTER_READY (R70): The mesh ADPLL locks, credits are returned and the router becomes ready for COORD and ENUM; the south-west corner sends its COORDs. -/
  | routerReady
  /-- CREDIT_RETURN (R46): A returned credit for one VC arrives on a mesh bundle and adds one to the sender's credit count. -/
  | creditReturn (p : Port) (vc : BitVec 2)
  /-- WAKE_IN (R49): An incoming WAKE rises, and the receiver's mesh domain moves to 2.2 GHz within 40 ns. It stays high over as many AON ticks as the pulse says. -/
  | wakeIn (w : WakePulse)
  /-- COORD (R75): A COORD message arrives at a port, and the receiving node learns or checks its coordinates. -/
  | coord (a : Arrival)
  /-- COORD_TIMEOUT (R76): 2,500 ticks have passed since router-ready, so COORD_TIMEOUT is raised if the coordinates are unknown and PORT_SILENT for each silent port. -/
  | coordTimeout
  /-- ENUM (R79): An ENUM arrives; it is held, checked, accepted with DIE, W and H, or refused, and it is flooded on to the neighbours. -/
  | enum (a : Arrival)
  /-- MEM_READY (R80): NODE_INIT completes VLOG ramp, PLL lock, memory zeroing and the setting of page tags, so MEM_READY is set and the node enters BOOT_WAIT when the die ID is known. -/
  | memReady
  /-- ID_BOOT_GO (R83): A host write of GO is checked and, if accepted, moves the node to MEASURE and starts the SHA-384 hash of the image. -/
  | idBootGo (w : RegWr)
  /-- MEASUREMENT_DONE (R86): The boot measurement is extended into SEC_MEAS0, and the node enters RUN with C0 at M at the image start. -/
  | measurementDone
  /-- ID_DESC_SEL_WRITE (R89): A write selects the descriptor format; it is ignored while a ring is enabled. -/
  | idDescSelWrite (w : RegWr)
  /-- NODE_RST_N (R44): A low level on NODE_RST_N lasting at least 2 AON ticks is recognised and starts a node-domain reset. -/
  | nodeRstN (ticks : Nat)
  /-- NODE_DOMAIN_RESET (R90): Tick 0 of a node-domain reset: the node is fenced with REASON 5, the engines stop and the node-logic domain is switched off. -/
  | nodeDomainReset
  /-- NODE_RESET_RELEASE (R90): The reset is released, the node is unfenced unless held, and NODE_INIT runs again. -/
  | nodeResetRelease
  /-- PWR_WARN (R58): A recognised low level on PWR_WARN_N brings the node to the emergency floor within 100 ns. -/
  | pwrWarn (ns : Nat)
  /-- FLOOR_EXIT (R427): PWR_WARN_N has stayed high for HOLD ticks, so the throttle is lifted and the operating point is raised again. -/
  | floorExit
  /-- TEST_MODE_RISE (R66): A rising edge of TEST_MODE zeroes the key slots and measurement registers and fences the node. -/
  | testModeRise
  /-- TEST_ACCESS (R504): An access through the IEEE 1687 network is served or read as 0 according to the open and gated classes. -/
  | testAccess (t : TestAcc)
  /-- MBIST_RUN (R67): An MBIST run over an array overwrites it and writes the failing columns into the repair shadow. -/
  | mbistRun (arr : MbistArray) (cols : List (BitVec 3 × BitVec 10))
  /-- ADD (R123): Integer add, with an optional flag-setting form. -/
  | add (a : FrameA)
  /-- SUB (R123): Integer subtract, with an optional flag-setting form. -/
  | sub (a : FrameA)
  /-- ADC (R123): Add with carry. -/
  | adc (a : FrameA)
  /-- SBC (R123): Subtract with borrow. -/
  | sbc (a : FrameA)
  /-- AND (R123): Bitwise AND. -/
  | and (a : FrameA)
  /-- OR (R123): Bitwise OR. -/
  | or (a : FrameA)
  /-- XOR (R123): Bitwise XOR. -/
  | xor (a : FrameA)
  /-- ANDN (R123): AND with the complement of rs2. -/
  | andn (a : FrameA)
  /-- SHL (R123): Shift left by a register count. -/
  | shl (a : FrameA)
  /-- SHR (R123): Logical shift right by a register count. -/
  | shr (a : FrameA)
  /-- SAR (R123): Arithmetic shift right by a register count. -/
  | sar (a : FrameA)
  /-- ROR (R123): Rotate right by a register count. -/
  | ror (a : FrameA)
  /-- SLT (R123): Set rd to 1 if rs1 is less than rs2, signed. -/
  | slt (a : FrameA)
  /-- SLTU (R123): Set rd to 1 if rs1 is less than rs2, unsigned. -/
  | sltu (a : FrameA)
  /-- MIN (R123): Signed minimum. -/
  | min (a : FrameA)
  /-- MAX (R123): Signed maximum. -/
  | max (a : FrameA)
  /-- MINU (R123): Unsigned minimum. -/
  | minu (a : FrameA)
  /-- MAXU (R123): Unsigned maximum. -/
  | maxu (a : FrameA)
  /-- CLZ (R123): Count the leading zeros of rs1. -/
  | clz (a : FrameA)
  /-- POPC (R123): Count the set bits of rs1. -/
  | popc (a : FrameA)
  /-- SEL (R123): Select rs1 or rs2 by the predicate P. -/
  | sel (a : FrameA)
  /-- MUL (R112): Signed 128-bit multiply into MPH:MPL, visible at distance three. -/
  | mul (a : FrameA)
  /-- MULU (R112): Unsigned 128-bit multiply into MPH:MPL. -/
  | mulu (a : FrameA)
  /-- DIV (R115): Signed divide, with the defined results for a zero divisor and for overflow. -/
  | div (a : FrameA)
  /-- DIVU (R115): Unsigned divide. -/
  | divu (a : FrameA)
  /-- REM (R115): Signed remainder. -/
  | rem (a : FrameA)
  /-- REMU (R115): Unsigned remainder. -/
  | remu (a : FrameA)
  /-- ADDI (R123): Add a sign-extended immediate, with an optional flag-setting form. -/
  | addi (f : Bool) (b : FrameB)
  /-- SUBI (R123): Subtract an immediate and set the flags; CMPI is its form with rd = 0. -/
  | subi (b : FrameB)
  /-- ANDI (R123): AND with a zero-extended immediate. -/
  | andi (b : FrameB)
  /-- ORI (R123): OR with a zero-extended immediate. -/
  | ori (b : FrameB)
  /-- XORI (R123): XOR with a zero-extended immediate. -/
  | xori (b : FrameB)
  /-- SHLI (R123): Shift left by an immediate count. -/
  | shli (b : FrameSh)
  /-- SHRI (R123): Logical shift right by an immediate count. -/
  | shri (b : FrameSh)
  /-- SARI (R123): Arithmetic shift right by an immediate count. -/
  | sari (b : FrameSh)
  /-- RORI (R123): Rotate right by an immediate count. -/
  | rori (b : FrameSh)
  /-- SLTI (R123): Signed compare with an immediate. -/
  | slti (b : FrameB)
  /-- SLTIU (R123): Unsigned compare with a sign-extended immediate. -/
  | sltiu (b : FrameB)
  /-- MOVH (R118): MOVH0 to MOVH3 set or replace a 16-bit field of rd. -/
  | movh (e : FrameE)
  /-- LIW (R122): Load a sign-extended 32-bit immediate. -/
  | liw (l : FrameL)
  /-- LIWH (R122): Load a 32-bit immediate into the upper half of rd. -/
  | liwh (l : FrameL)
  /-- LB (R123): Load a sign-extended byte. -/
  | lb (b : FrameB)
  /-- LBU (R123): Load a zero-extended byte. -/
  | lbu (b : FrameB)
  /-- LH (R123): Load a sign-extended halfword. -/
  | lh (b : FrameB)
  /-- LHU (R123): Load a zero-extended halfword. -/
  | lhu (b : FrameB)
  /-- LW (R123): Load a sign-extended word. -/
  | lw (b : FrameB)
  /-- LWU (R123): Load a zero-extended word. -/
  | lwu (b : FrameB)
  /-- LD (R123): Load a doubleword. -/
  | ld (b : FrameB)
  /-- SB (R123): Store a byte. -/
  | sb (b : FrameB)
  /-- SH (R123): Store a halfword. -/
  | sh (b : FrameB)
  /-- SW (R123): Store a word. -/
  | sw (b : FrameB)
  /-- ST (R123): Store a doubleword; a remote store is posted. -/
  | st (b : FrameB)
  /-- AADD (R211): Atomic add, done as one local two-cycle transfer or sent as a remote ATOMIC. -/
  | aadd (a : FrameA)
  /-- ACAS (R211): Atomic compare and swap. -/
  | acas (a : FrameA)
  /-- B (R110): Conditional branch on a four-bit branch condition. -/
  | b (c : FrameC)
  /-- J (R123): PC-relative jump. -/
  | j (d : FrameD)
  /-- CALL (R100): Call: checks the window ring and the Reel, pushes the return address and advances CWP. -/
  | call (d : FrameD)
  /-- CALLR (R100): Call to a register-relative target. -/
  | callr (b : FrameB)
  /-- JR (R123): Jump to a register-relative target. -/
  | jr (b : FrameB)
  /-- RET (R100): Return: pops the Reel and moves CWP back, or raises REEL_UNF or WINDOW_UNF. -/
  | ret (d : FrameD)
  /-- PSET (R111): Set the predicate P from a condition. -/
  | pset (c : FrameC)
  /-- SYSC (R154): Raise SYSCALL with number n. -/
  | sysc (b : FrameB)
  /-- NOP (R123): No operation. -/
  | nop (w : NopWord)
  /-- ERET (R151): Bench, fast or frame return from an exception, with all checks made before any effect. -/
  | eret (a : FrameA)
  /-- CSWITCH (R164): Switch issue to the other context when it is runnable. -/
  | cswitch (a : FrameA)
  /-- WFE (R128): Wait for event: clear a set latch, or stop issue and enter N1. -/
  | wfe (a : FrameA)
  /-- WFE_WAKE (R128): The event latch of a waiting context is set, so issue restarts and WFE completes. -/
  | wfeWake
  /-- BREAK (R136): Raise BREAK. -/
  | brk (a : FrameA)
  /-- ISYNC (R125): Discard the prefetched instructions and fetch again. -/
  | isync (a : FrameA)
  /-- FENCE (R210): Wait for every earlier store and atomic to be acknowledged, and raise ACCESS for a failed posted store. -/
  | fence (a : FrameA)
  /-- MOVS (R129): Read a system register. -/
  | movs (b : FrameB)
  /-- MOVC (R131): Write a system register that has no row of its own. -/
  | movc (b : FrameB)
  /-- RDEPTH_WRITE (R106): A MOVC to RDEPTH discards the newest Reel entries. -/
  | rdepthWrite (b : FrameB)
  /-- CTXCTL_WRITE (R162): Write the RUN bits, which stop or resume the other context, and the XPRE bits. -/
  | ctxctlWrite (b : FrameB)
  /-- CTXSTART (R163): Reset the named other context's banked state and start it at M at the given address. -/
  | ctxstart (b : FrameB)
  /-- TCFG_WRITE (R246): Write TCFG: wait for earlier matrix instructions, zero the tile file and tags, and set the new mode. -/
  | tcfgWrite (b : FrameB)
  /-- SAVE (R172): Chest SAVE: write the owner's dirty groups to its Chest. -/
  | save (b : FrameB)
  /-- DISCARD (R172): Chest DISCARD: clear the dirty and VALID bits of the named groups. -/
  | discard (b : FrameB)
  /-- HANDOVER (R173): Chest HANDOVER: check, restore or zero each group and give ownership to CTX. -/
  | handover (b : FrameB)
  /-- SPILL (R175): Chest SPILL: encrypt a context's Chest to CHESTXA under its key and counter. -/
  | spill (b : FrameB)
  /-- FILL (R175): Chest FILL: decrypt and authenticate an image into a context's Chest, and erase it on failure. -/
  | fill (b : FrameB)
  /-- ERASE (R172): Chest ERASE: zero a context's Chest. -/
  | erase (b : FrameB)
  /-- CHEST_OPERATION_DONE (R174): A Chest operation ends, so BUSY clears and ERR is set to its outcome. -/
  | chestOperationDone
  /-- SEND (R126): Queue one MSG packet from registers, or raise MSG_SEND_FULL. -/
  | send (a : FrameSend)
  /-- RECV (R127): Take the head IMQ entry of the context into six registers. -/
  | recv (a : FrameA)
  /-- WSPILL (R103): Spill the oldest resident window to WSP. -/
  | wspill (a : FrameA)
  /-- WFILL (R103): Fill the caller's window from below WSP. -/
  | wfill (a : FrameA)
  /-- RSPILL (R105): Spill the oldest Reel entry to REELSP. -/
  | rspill (a : FrameA)
  /-- RFILL (R105): Fill one Reel entry from below REELSP. -/
  | rfill (a : FrameA)
  /-- LMCLAIM (R199): Claim a named page under the quota, zero it and tag it with the context. -/
  | lmclaim (a : FrameA)
  /-- LMCLAIMA (R199): Claim the lowest-numbered claimable page. -/
  | lmclaima (a : FrameA)
  /-- LMREL (R200): Release a page of the context back to monitor-only and claimable. -/
  | lmrel (a : FrameA)
  /-- DINVL (R208): Invalidate one L1D line and its victim entries. -/
  | dinvl (b : FrameB)
  /-- IINVL (R208): Invalidate one L1I line and its victim entries. -/
  | iinvl (b : FrameB)
  /-- DINVA (R208): Invalidate all of L1D. -/
  | dinva (b : FrameB)
  /-- IINVA (R208): Invalidate all of L1I. -/
  | iinva (b : FrameB)
  /-- MBPUT (R410): Post a value to a mailbox slot and return the status. -/
  | mbput (a : FrameA)
  /-- ASYNC_ENTRY (R138): A pending enabled asynchronous cause becomes takeable at an instruction boundary and is entered. -/
  | asyncEntry
  /-- PREEMPT (R165): A takeable cause of the non-issuing context stops the issuing one and is entered in its own context. -/
  | preempt
  /-- VADD (R304): Vector add. -/
  | vadd (a : FrameV)
  /-- VSUB (R304): Vector subtract. -/
  | vsub (a : FrameV)
  /-- VMUL (R304): Vector multiply. -/
  | vmul (a : FrameV)
  /-- VMIN (R299): Vector minimum. -/
  | vmin (a : FrameV)
  /-- VMAX (R299): Vector maximum. -/
  | vmax (a : FrameV)
  /-- VAND (R304): Vector bitwise AND. -/
  | vand (a : FrameV)
  /-- VOR (R304): Vector bitwise OR. -/
  | vor (a : FrameV)
  /-- VXOR (R304): Vector bitwise XOR. -/
  | vxor (a : FrameV)
  /-- VSHL (R300): Vector shift left by per-lane counts. -/
  | vshl (a : FrameV)
  /-- VSHR (R300): Vector logical shift right by per-lane counts. -/
  | vshr (a : FrameV)
  /-- VSAR (R300): Vector arithmetic shift right by per-lane counts. -/
  | vsar (a : FrameV)
  /-- VCMPEQ (R300): Vector compare equal. -/
  | vcmpeq (a : FrameV)
  /-- VCMPLT (R300): Vector compare less than. -/
  | vcmplt (a : FrameV)
  /-- VCMPLE (R300): Vector compare less than or equal. -/
  | vcmple (a : FrameV)
  /-- VADDS (R300): Vector saturating add. -/
  | vadds (a : FrameV)
  /-- VFMA (R299): Vector fused multiply-add. -/
  | vfma (a : FrameV)
  /-- VFNMA (R304): Vector fused negative multiply-add. -/
  | vfnma (a : FrameV)
  /-- VSEL (R304): Vector bitwise select. -/
  | vsel (a : FrameV)
  /-- VMOV (R304): Vector move. -/
  | vmov (a : FrameV)
  /-- VNEG (R304): Vector negate. -/
  | vneg (a : FrameV)
  /-- VABS (R304): Vector absolute value. -/
  | vabs (a : FrameV)
  /-- VEXP2 (R302): Vector 2 to the power x. -/
  | vexp2 (a : FrameV)
  /-- VRCP (R302): Vector reciprocal. -/
  | vrcp (a : FrameV)
  /-- VREDSUM (R303): Sum the lanes by a fixed pairwise tree. -/
  | vredsum (a : FrameV)
  /-- VREDMAX (R303): Maximum of the lanes by a fixed tree. -/
  | vredmax (a : FrameV)
  /-- VREDMIN (R303): Minimum of the lanes by a fixed tree. -/
  | vredmin (a : FrameV)
  /-- VBCAST (R304): Broadcast a scalar to every lane. -/
  | vbcast (a : FrameV)
  /-- VGET (R304): Read one lane into a scalar register. -/
  | vget (a : FrameV)
  /-- VLD (R307): Load LEN bytes of local memory into a vector register. -/
  | vld (a : FrameW)
  /-- VST (R307): Store LEN bytes of a vector register to local memory. -/
  | vst (a : FrameW)
  /-- VGATHER (R308): Gather 32 indexed elements from local memory. -/
  | vgather (a : FrameW)
  /-- VSCATTER (R308): Scatter 32 indexed elements to local memory. -/
  | vscatter (a : FrameW)
  /-- VCVT (R310): Convert elements between formats with one rounding. -/
  | vcvt (a : FrameW)
  /-- VWID6 (R311): Widen FP6 elements exactly to BF16 or FP32. -/
  | vwid6 (a : FrameW)
  /-- VQMX (R312): Quantise blocks to an MX type with E8M0 scales. -/
  | vqmx (a : FrameW)
  /-- VTRD (R313): Copy a tile row into a vector register. -/
  | vtrd (a : FrameW)
  /-- VTWR (R313): Write a vector register into a tile row and update the tag. -/
  | vtwr (a : FrameW)
  /-- TLD (R257): Load a tile register from local memory and set its tag. -/
  | tld (m : FrameM)
  /-- TST (R258): Store rows of a tile register to local memory. -/
  | tst (m : FrameM)
  /-- TZERO (R259): Zero a tile register and set its tag. -/
  | tzero (m : FrameM)
  /-- MZ (R260): Clear the accumulator set, its anchors and ACS, and set the mode to EMPTY. -/
  | mz (m : FrameM)
  /-- MMA (R261): Multiply A by B transposed into the accumulator set, with fit checks and overflow repetition. -/
  | mma (m : FrameM)
  /-- MMAS (R226): Scaled matrix multiply-accumulate with E8M0 block scales. -/
  | mmas (m : FrameM)
  /-- MDRAIN (R263): Drain the accumulator cells to Td, converted, scaled and rounded, with histogram counts. -/
  | mdrain (m : FrameM)
  /-- MDRAIN_COPY (R288): The accumulator set is copied into the drain set once the drain set is free and the previous commit is done. -/
  | mdrainCopy
  /-- MDRAIN_COMPLETE (R234): The drain completes and commits Td, EHIST, FMTSTAT and the SRSTATE advance together. -/
  | mdrainComplete
  /-- MSAVE (R264): Write the accumulator image of group 4 to local memory. -/
  | msave (m : FrameM)
  /-- MREST (R265): Check and load an accumulator image from local memory. -/
  | mrest (m : FrameM)
  /-- MHCLR (R266): Clear the exponent histogram. -/
  | mhclr (m : FrameM)
  /-- ECC_WRITEBACK (R189): A corrected ECC word is written back in the next idle core cycle of the port. -/
  | eccWriteback (word : BitVec 19)
  /-- SCRUB_BLOCK (R192): Every PERIOD AON ticks the scrubber reads the next block in idle cycles. -/
  | scrubBlock
  /-- READ (R322): A READ request is routed and, at its destination, served, refused or answered with FENCED. -/
  | read (a : Arrival)
  /-- READ_DATA (R322): A READ_DATA response arrives and completes the request, or is discarded as a stray. -/
  | readData (a : Arrival)
  /-- WRITE (R322): A WRITE, acknowledged, bulk or sink, is routed and applied under the page rules at its destination. -/
  | write (a : Arrival)
  /-- WRITE_ACK (R322): A WRITE_ACK arrives and acknowledges a store, DMA write or multicast copy. -/
  | writeAck (a : Arrival)
  /-- ATOMIC (R211): An ATOMIC is performed as one ROUTER transfer at its destination and returns the old value. -/
  | atomic (a : Arrival)
  /-- DOORBELL (R386): A DOORBELL is checked and accepted into the doorbell FIFO, refused, dropped or answered FENCED. -/
  | doorbell (a : Arrival)
  /-- DOORBELL_APPLY (R387): One doorbell FIFO entry is applied to its ring's TAIL, or counted as stale. -/
  | doorbellApply
  /-- MSG (R412): A MSG is checked and placed in the IMQ of its context, refused, dropped or answered FENCED. -/
  | msg (a : Arrival)
  /-- MSG_DROPPED (R414): A MSG_DROPPED answering a MSG arrives and is counted in QE_SENDDROP and QE_SENDLAST. -/
  | msgDropped (a : Arrival)
  /-- FENCED (R340): A FENCED response arrives and ends the request, or is counted against a MSG. -/
  | fenced (a : Arrival)
  /-- FENCE_CMD (R465): A FENCE_CMD is checked for key, MAC, nonce and op, then rejected, or accepted as FENCE or UNFENCE. -/
  | fenceCmd (a : Arrival)
  /-- MC_WRITE (R342): A multicast write is forked over its rectangle or group tree, and each copy is written and acknowledged. -/
  | mcWrite (a : Arrival)
  /-- MC_DROP (R345): An MC_DROP reaches the multicast source and counts its missed nodes. -/
  | mcDrop (a : Arrival)
  /-- MC_BRANCH_HOLD_EXPIRY (R343): A multicast branch held for RTR_MCHOLD ticks is dropped and an MC_DROP is sent. -/
  | mcBranchHoldExpiry (p : Port)
  /-- PACKET_SEND (R326): A waiting packet or branch gains the credits it needs and is granted its output. -/
  | packetSend (p : Port)
  /-- PLY (R347): A Ply input is accepted into a buffer or discarded, and the instance is summed and forwarded once complete. -/
  | ply (a : Arrival)
  /-- PLY_TIMEOUT (R348): TIMEOUT ticks after its first input, a Ply instance is forwarded with the inputs it holds. -/
  | plyTimeout (entry : BitVec 5) (inst : BitVec 16)
  /-- DUP_ENTRY_EXPIRY (R339): A duplicate-filter entry expires RTR_DUPWIN ticks after it was recorded. -/
  | dupEntryExpiry
  /-- SKEIN (R475): A SKEIN is spread over its rectangle and delivered to each node's observability block. -/
  | skein (a : Arrival)
  /-- BUDGET (R440): A BUDGET is checked for source, generation and range, then accepted into the SPN_ fields or discarded. -/
  | budget (a : Arrival)
  /-- FAULT_REPORT (R456): A received FAULT_REPORT is stored in FLT_RX, or discarded. -/
  | faultReport (a : Arrival)
  /-- FAULT_REPORT_SEND (R455): Each unsent stored record is sent as a FAULT_REPORT once reporting is enabled and the die ID is known. -/
  | faultReportSend
  /-- FRAME_SEND (R362): The adapter sends the next DATA or NULL frame with the current acknowledgement and credit fields. -/
  | frameSend (p : Port)
  /-- DATA_FRAME (R363): A received DATA frame is checked for CRC and sequence, then accepted, discarded or answered with a NAK. -/
  | dataFrame (p : Port) (rx : List (List LaneWord))
  /-- NULL_FRAME (R361): A received NULL frame delivers its acknowledgement and credit fields. -/
  | nullFrame (p : Port) (rx : List (List LaneWord))
  /-- CAP_FRAME (R367): A received CAP frame fixes version, payload size and credits, and the link moves to ACTIVE or FAILED. -/
  | capFrame (p : Port) (rx : List (List LaneWord))
  /-- DETACH_FRAME (R375): A DETACH frame received in ACTIVE takes the link out of service, re-injects its packets and enters DETACHED. -/
  | detachFrame (p : Port) (rx : List (List LaneWord))
  /-- ALIGN_WORD (R369): Matched ALIGN words are counted, and after 16 the lane mask T is chosen and the link enters CAP. -/
  | alignWord (p : Port) (rx : List LaneWord)
  /-- NAK_TIMER_EXPIRY (R363): The NAK timer expires with a NAK outstanding, so the NAK is sent again. -/
  | nakTimerExpiry (p : Port)
  /-- REPLAY_TIMER_EXPIRY (R364): The oldest unacknowledged frame has waited REPTO ticks, so replay starts from it. -/
  | replayTimerExpiry (p : Port)
  /-- RETTO_EXPIRY (R372): A frame has been unacknowledged for RETTO ticks, so the channel is retired. -/
  | rettoExpiry (p : Port)
  /-- ERROR_WINDOW_END (R371): An error window ends, its counts are judged against the thresholds and then reset. -/
  | errorWindowEnd (p : Port)
  /-- FEC_UNCORRECTABLE (R371): A PHY FECUNC pulse is counted for its lane and may meet the lane criterion. -/
  | fecUncorrectable (p : Port) (lane : BitVec 2)
  /-- FEC_CORRECTED (R371): A PHY FECCOR count adds to its lane's corrected-symbol sum. -/
  | fecCorrected (p : Port) (lane : BitVec 2) (count : BitVec 8)
  /-- LANE_HEALTH_LOSS (R371): A PHY_LSTAT bit of a lane in use falls and starts lane or channel retirement. -/
  | laneHealthLoss (p : Port) (lstat : BitVec 16)
  /-- LINK_RESET_DONE (R368): After 25 ticks in RESET, the link moves to WAIT_PHY. -/
  | linkResetDone (p : Port)
  /-- PHY_HEALTHY (R368): A lane has been healthy for 25 ticks, so the link enters ALIGN. -/
  | phyHealthy (p : Port) (lstat : BitVec 16)
  /-- ALIGN_TIMEOUT (R368): Alignment is not done within 250 ticks, so the link returns to RESET. -/
  | alignTimeout (p : Port)
  /-- CAP_TIMEOUT (R368): Capability exchange is not done within 2,500 ticks, so the link enters FAILED. -/
  | capTimeout (p : Port)
  /-- RETRAIN_TIMEOUT (R372): RETRAIN does not reach ACTIVE within 2,750 ticks, so the channel is retired. -/
  | retrainTimeout (p : Port)
  /-- DETACHED_DONE (R368): After 25 ticks in DETACHED, the link moves to WAIT_PHY. -/
  | detachedDone (p : Port)
  /-- WIDTH_CHANGE_TIMEOUT (R377): A width request unanswered for 25 ticks sends the link to RETRAIN at the new mask. -/
  | widthChangeTimeout (p : Port)
  /-- LNK_CTL_EN (R368): A write of EN enables the link, or runs a detach that ends in DISABLED. -/
  | lnkCtlEn (p : Port) (w : RegWr)
  /-- REARM (R368): A write of REARM takes a RETIRED or FAILED link back to RESET. -/
  | rearm (p : Port) (w : RegWr)
  /-- RETIRE (R371): A software write retires the named lanes. -/
  | retire (p : Port) (w : RegWr)
  /-- DESCRIPTOR_FETCH (R391): The head descriptor of a ready ring is fetched and held, rejected as FORMAT, or the ring is stopped on a fetch failure. -/
  | descriptorFetch (ring : BitVec 4)
  /-- DESC_NOP (R388): A NOP descriptor completes OK at admission. -/
  | descNop (ring : BitVec 4)
  /-- DESC_KERNEL (R396): A KERNEL descriptor fills its context's kernel slot, which makes DOORBELL pending. -/
  | descKernel (ring : BitVec 4)
  /-- DESC_DMA (R398): A DMA descriptor moves rows between local and remote memory with reads and bulk writes. -/
  | descDma (ring : BitVec 4)
  /-- DESC_RESHARD (R404): A RESHARD descriptor sends the owned elements in runs to their destination owners. -/
  | descReshard (ring : BitVec 4)
  /-- DESC_MULTICAST (R400): A MULTICAST descriptor sends 256-byte pieces as MC_WRITEs and keeps a drop list. -/
  | descMulticast (ring : BitVec 4)
  /-- DESC_PLY (R401): A PLY descriptor injects its contribution, and at the root waits for the result. -/
  | descPly (ring : BitVec 4)
  /-- DESC_BARRIER (R402): A BARRIER descriptor contributes to a Ply, then releases by multicast or waits for its release word. -/
  | descBarrier (ring : BitVec 4)
  /-- DESC_SKEIN (R395): A SKEIN descriptor injects one SKEIN packet. -/
  | descSkein (ring : BitVec 4)
  /-- DESCRIPTOR_COMPLETE (R407): At completion, the mailbox post is judged, the record written, the mailbox posted, the CQ pushed and HEAD advanced. -/
  | descriptorComplete (ring : BitVec 4)
  /-- WATCHDOG (R393): A descriptor reaches its 2^WEXP watchdog and ends with status WATCHDOG. -/
  | watchdog (ring : BitVec 4)
  /-- QE_KDONE (R397): A write of a STATUS ends the kernel in its slot and completes the descriptor. -/
  | qeKdone (c : CtxId) (w : RegWr)
  /-- KSLOT_TAKEN (R396): The runtime sets TAKEN on its kernel slot, which ends the DOORBELL cause for it. -/
  | kslotTaken (c : CtxId) (w : RegWr)
  /-- QE_CQPOP (R411): A read by the owning context removes and returns the head completion FIFO entry. -/
  | qeCqpop (c : CtxId) (r : RegRd)
  /-- QE_MBOX_ACK (R409): A write clears READY of the named mailbox slots. -/
  | qeMboxAck (w : RegWr)
  /-- RING_ENABLE (R384): A write of EN from 0 to 1 enables a ring and sets HEAD and TAIL to 0. -/
  | ringEnable (ring : BitVec 4) (w : RegWr)
  /-- RING_DISABLE (R384): A write of EN = 0 stops admission from the ring. -/
  | ringDisable (ring : BitVec 4) (w : RegWr)
  /-- TAIL_WRITE (R387): A local write of a ring's TAIL is applied directly as a doorbell would be. -/
  | tailWrite (ring : BitVec 4) (w : RegWr)
  /-- FIFO_STALE (R415): A non-empty FIFO reaches its stale time, so its sticky STALE bit is set. -/
  | fifoStale (q : BitVec 3)
  /-- AON_TICK (R439): Each AON tick applies accepted BUDGETs, steps the bucket and ring levels, updates reservations, recomputes the operating point and admits heads. -/
  | aonTick (e : TickEnergy)
  /-- OPP_CHANGE_DONE (R420): An operating-point change completes its VLOG ramp and ADPLL relock, and any pending target starts. -/
  | oppChangeDone
  /-- DROOP_DETECT (R422): VLOG falls below the droop level, so the core clock period is doubled and the stretch counted. -/
  | droopDetect (sensed : BitVec 10)
  /-- DROOP_END (R422): VLOG has stayed above the recovery level for 16 core cycles, so the stretch ends. -/
  | droopEnd
  /-- LDO_FAULT (R421): VLOG deviates from its target, or the current exceeds the rating, so the node fences and its LDO output goes to zero. -/
  | ldoFault (sensed : BitVec 10) (overcurrent : Bool)
  /-- THERMAL_SAMPLE (R423): The two sensors are sampled, and the hot state, THCEIL, the sensor fault and thermal runaway are updated. -/
  | thermalSample (t0 : BitVec 12) (t1 : BitVec 12)
  /-- N2_ENTRY (R429): The idle conditions have held for N2DWELL ticks, so the node enters N2. -/
  | n2Entry
  /-- N2_WAKE (R429): A wake event returns the node from N2 to N0 within 50 ticks. -/
  | n2Wake
  /-- PSCMD_N3 (R430): A write of CMD 3 requests N3 and sets PEND. -/
  | pscmdN3 (w : RegWr)
  /-- PSCMD_N4 (R430): A write of CMD 4 requests N4 and sets PEND. -/
  | pscmdN4 (w : RegWr)
  /-- PSCMD_WITHDRAW (R430): A write of CMD 0 withdraws a pending request. -/
  | pscmdWithdraw (w : RegWr)
  /-- DEEP_SLEEP_ENTRY (R430): A pending N3 or N4 request is carried out once the core is in N1 and the node is idle. -/
  | deepSleepEntry
  /-- SPN_WAKE_GO (R430): A write of GO wakes the node from N3 or N4. -/
  | spnWakeGo (w : RegWr)
  /-- DEEP_WAKE (R430): An enabled wake resumes C0 from N3 at RESUMEPC, or reruns the reset sequence from N4. -/
  | deepWake
  /-- MESH_IDLE (R432): No WAKE or flit for MESHHOLD ticks drops the mesh clock to 275 MHz. -/
  | meshIdle
  /-- COMPARATOR_MATCH (R434): LTIME reaches a comparator's VAL, so HIT is set and a periodic VAL advances. -/
  | comparatorMatch (n : BitVec 2)
  /-- CMP_VAL_WRITE (R434): A write of a comparator's VAL clears its HIT bit. -/
  | cmpValWrite (i : BitVec 2) (w : RegWr)
  /-- EPOCH_END (R435): An energy epoch ends, its energy is recorded, EPOCH is set and DBCEIL may fall. -/
  | epochEnd
  /-- SPN_EPOCH_WRITE (R435): A write of the epoch length begins a new epoch. -/
  | spnEpochWrite (w : RegWr)
  /-- FLT_NRST (R468): A write of GO requests a node-domain reset, which unfences the node. -/
  | fltNrst (w : RegWr)
  /-- FLT_RXPOP (R456): A write removes the head of the FLT_RX queue. -/
  | fltRxpop (w : RegWr)
  /-- SEC_KEY_WRITE (R177): A write of a key-slot word; the write of word 3 sets VALID. -/
  | secKeyWrite (c : CtxId) (j : BitVec 2) (w : RegWr)
  /-- SEC_KEYCLR (R177): A write zeroes the named key slots and clears VALID. -/
  | secKeyclr (w : RegWr)
  /-- SEC_EXTGO (R178): A write of GO starts extending a measurement register with SEC_EXTDATA. -/
  | secExtgo (w : RegWr)
  /-- EXTENSION_DONE (R178): A measurement extension ends after 84 core cycles, so EXTBUSY clears. -/
  | extensionDone
  /-- SEC_DBGCTL_WRITE (R179): A write of EN opens the debug gate, and setting it extends SEC_MEAS3. -/
  | secDbgctlWrite (w : RegWr)
  /-- SEC_FCKEY_WRITE (R467): A write of a fence-key word; the write of word 3 sets KEYVALID. -/
  | secFckeyWrite (j : BitVec 2) (w : RegWr)
  /-- SEC_FCCLR (R467): A write zeroes the fence key and clears KEYVALID. -/
  | secFcclr (w : RegWr)
  /-- OBS_SWTRIG (R478): A write of GO makes a software trigger with the given ID. -/
  | obsSwtrig (w : RegWr)
  /-- MONITOR_CLR (R485): A write of CLR resets a monitor's bins, count, sum, minimum and maximum. -/
  | monitorClr (i : BitVec 3) (w : RegWr)
  /-- RC_READ (R16): A read of a read-to-clear field returns its value, then clears it. -/
  | rcRead (r : RegRd) (off : BitVec 20)
  /-- REGISTER_WRITE (R502): A write to a control-space register that has no row of its own, checked under the access, width and span rules. -/
  | registerWrite (off : BitVec 20) (w : RegWr)
  /-- PORT_DRAINING_END (R459): After its RTR_PORTFAIL bit is cleared, a drained mesh input stops discarding flits at the first mesh cycle in which it receives no flit, and it again takes the next flit as a header. -/
  | portDrainingEnd (p : Port)
  deriving DecidableEq, Repr

end Sys2Proof
end

