-- ==== Sys2Proof/Machine/State.lean ====
section
/-! DEFINITION. The state of the Xotus node: every register, FIFO, buffer, table, counter, mode and pin the
spec gives it, as plain data, and the queue of waiting commands. `State.reset` is the node while PORST_N is
low (R43, R20). -/

namespace Sys2Proof.Machine

/-- What stops a step. -/
inductive Fault where
  /-- raised by a command whose operands no port or encoding of the spec can carry: a fuse image that is not 256
  bytes, a payload whose length is not its LEN, a frame of a length no link sends. Safe: nothing is claimed. -/
  | illFormed (mnemonic : String)
  deriving DecidableEq, Repr

/-- Why a command has no meaning in the model. -/
inductive Refusal where
  /-- raised by an arm of `exec` whose command has no meaning yet. Safe. -/
  | notModelled (mnemonic : String)
  deriving DecidableEq, Repr

/-- Local memory, tile file and other byte arrays: rising addresses, zero bytes not listed (R80). -/
abbrev Mem := List Host.Cell

/-! ### Scalar contexts -/

/-- A producer of MPL and MPH not yet visible (R112): the instructions issued since, and what it still gives. -/
structure Prod where
  age : Nat
  lo : Option Word
  hi : Option Word
  deriving DecidableEq, Repr

/-- How a load places what it read (R123), and its first parcel (R141). -/
structure LoadForm where
  bytes : Nat
  signed : Bool
  rd : BitVec 5
  inst : Word32
  deriving DecidableEq, Repr

/-- What a context waits for. `run`: nothing. -/
inductive Wait where
  | run
  /-- in WFE (R128) -/
  | wfe
  /-- a remote load of `addr`; with `fill` the 32-byte sector is being read for L1D (R203) -/
  | load (tag : BitVec 16) (addr : Word) (form : LoadForm) (fill : Bool)
  /-- a remote atomic (R211) -/
  | atomic (tag : BitVec 16) (addr : Word) (rd : BitVec 5) (inst : Word32)
  /-- the READ of the 32-byte sector that holds the parcel at `addr` (R203, R212), with the XINST of a failure -/
  | fetch (tag : BitVec 16) (addr : Word) (inst : Word32)
  /-- a WFILL (80 bytes) or RFILL (8 bytes) of remote memory from `addr`, with the bytes read so far (R103, R105) -/
  | fill (tag : BitVec 16) (addr : Word) (len : Nat) (got : List Byte) (inst : Word32)
  deriving DecidableEq, Repr

/-- A posted store (R209): its answer is none until it comes; a failed one waits for FENCE (R210). -/
structure Posted where
  tag : BitVec 16
  addr : Word
  answer : Option (BitVec 8)
  deriving DecidableEq, Repr

/-- The banked state of one context (R159). -/
structure Ctx where
  pc : Word
  pl : BitVec 2
  fast : Bool
  cwp : BitVec 3
  spare : Bool
  n : Bool
  z : Bool
  cf : Bool
  v : Bool
  p : Bool
  ie : Bool
  /-- G0–G15 -/
  g : Tab Word
  /-- H(w)[i] at 6w + i -/
  h : Tab Word
  /-- K(w)[i] at 4w + i -/
  k : Tab Word
  spareK : Tab Word
  spareF : Tab Word
  /-- Z0–Z15 -/
  zb : Tab Word
  wvalid : BitVec 8
  wsp : Word
  wslimit : Word
  /-- the Reel, oldest entry first; RDEPTH is its length (R104) -/
  reel : List Word
  reelTrap : Bool
  reelsp : Word
  mpl : Word
  mph : Word
  prods : List Prod
  xvecS : Word
  xvecM : Word
  xcauseS : BitVec 9
  xaddrS : Word
  xspS : Word
  xsbaseS : Word
  xslimitS : Word
  xcauseM : BitVec 9
  xaddrM : Word
  xspM : Word
  xsbaseM : Word
  xslimitM : Word
  xnest : BitVec 32
  xdeleg : Word
  xien : BitVec 7
  xpend : BitVec 7
  zpc : Word
  /-- ZST: status in [16:0], CAUSE in [39:32] (R157) -/
  zst : Word
  zbusy : Bool
  xback : Bool
  xbpl : BitVec 2
  xbdepth : BitVec 32
  srstate : BitVec 32
  /-- the event latch (R128) -/
  latch : Bool
  wait : Wait
  /-- the next instruction is the first after an ERET (R153) -/
  afterEret : Bool
  posted : List Posted
  deriving DecidableEq, Repr

/-- A Chest operation in progress (R172 to R175): its outcome, what it still waits for, and for FILL the image read so far. -/
structure ChestOp where
  op : BitVec 3
  ctx : CtxId
  err : BitVec 3
  waiting : Nat
  image : Mem
  deriving DecidableEq, Repr

/-- The core's arrays under parity, by the codes of ARRAY_PARITY (R452, R458). -/
inductive CoreArray where
  | regs | tile | acc | vec
  deriving DecidableEq, Repr

/-- The scalar core: the contexts and the node system registers (R157, R160, R181). -/
structure Core where
  c0 : Ctx
  c1 : Ctx
  /-- the issuing context (R24) -/
  cur : CtxId
  run : BitVec 2
  xpre : BitVec 2
  benchBusy : Bool
  benchCtx : CtxId
  benchDepth : BitVec 32
  mxOwner : CtxId
  mxDirty : BitVec 8
  mxCfg : Bool
  chestBase0 : BitVec 8
  chestBase1 : BitVec 8
  chestErr : BitVec 3
  chestOp : Option ChestOp
  chestXa : Word
  chestCtr0 : Word
  chestCtr1 : Word
  chestXctr : Word
  kenergy0 : BitVec 32
  kenergy1 : BitVec 32
  /-- an entry of an array fails its parity (R458) -/
  spoilt : Option CoreArray
  deriving DecidableEq, Repr

/-! ### Matrix and vector state -/

/-- A shape tag (R244). -/
structure Tag where
  rows : BitVec 7
  bpr : BitVec 8
  fmt : BitVec 4
  deriving DecidableEq, Repr

/-- One accumulator cell (R277): the 96-bit value and the anchor code. -/
structure AccCell where
  v : BitVec 96
  anchor : BitVec 10
  deriving DecidableEq, Repr

/-- The accumulator set (R262, R277, R281, R286); cell (i, j) at 16i + j. -/
structure AccSet where
  cells : Tab AccCell
  mode : BitVec 2
  acs : BitVec 8
  loss : Bool
  sat : Bool
  lossCnt : Word
  repCnt : Word
  deriving DecidableEq, Repr

/-- An MDRAIN between issue and completion (R287, R288): the drain set once copied. `firm`: nothing abandons it, because the boundary
in front of it is deferred (R113, R153). -/
structure Drain where
  m : FrameM
  ctx : CtxId
  pc : Word
  firm : Bool
  copied : Bool
  set : AccSet
  deriving DecidableEq, Repr

/-- Tile registers, accumulators, scale registers, histogram and vector registers. -/
structure Mx where
  /-- TCFG.MODE (R242) -/
  mode : BitVec 2
  /-- the 64 KiB tile register file -/
  file : Mem
  tags : Tab Tag
  acc : AccSet
  drain : Option Drain
  /-- S0–S7 -/
  scale : Tab Word32
  ovf : Bool
  inv : Bool
  /-- EHIST0–EHIST63 -/
  ehist : Tab Word32
  /-- V0–V31 -/
  vreg : Tab (BitVec 1024)
  deriving DecidableEq, Repr

/-! ### Caches -/

/-- One line of L1I or L1D (R202): the line address, the filling context, sector valid bits, 128 bytes, and whether its tag or
a sector fails parity (R458). -/
structure Line where
  addr : Word
  ctx : CtxId
  sect : BitVec 4
  data : BitVec 1024
  bad : Bool
  deriving DecidableEq, Repr

/-- A victim-cache entry (R205). -/
structure Victim where
  fromI : Bool
  line : Line
  deriving DecidableEq, Repr

/-- The caches; way w of set t at 8t + w; the replacement bits of R204 per set; victim entries oldest first. -/
structure Caches where
  l1i : Tab Line
  l1d : Tab Line
  treeI : Tab (BitVec 7)
  treeD : Tab (BitVec 7)
  victim : List Victim
  deriving DecidableEq, Repr

/-- What the check bits of an ECC word would find (R189); `corrected`: a single-bit error that a transfer has corrected
and that waits to be written back. -/
inductive EccMark where
  | good | single | corrected | bad
  deriving DecidableEq, Repr

/-! ### Router -/

/-- A packet or branch that waits in the router for its output (R317, R326, R343). -/
structure Held where
  pkt : Packet
  inp : Port
  out : Port
  /-- a multicast branch, which R343 may drop -/
  branch : Bool
  /-- flits already sent (class 1 and host ports, R326) -/
  sent : Nat
  /-- flit credits owed to the sender when the packet has left its input buffer; 0 in an escape buffer (R327) -/
  owed : Nat
  /-- whole ticks for which it has lacked its credits (R343) -/
  ticks : Nat
  /-- it arrived in class 1 -/
  cls1 : Bool
  /-- RECT and COUNT of the MC_DROP for a branch, from the group entry as it stood (R343, R344, R353) -/
  drop : Nat
  deriving DecidableEq, Repr

/-- An entry of the duplicate filter (R339). -/
structure Dup where
  src : BitVec 22
  seq : BitVec 16
  age : Nat
  deriving DecidableEq, Repr

/-- A Ply instance held in the Ply buffers (R347): the table entry as it stood, the inputs, and those whose buffer fails its
parity (R460). -/
structure PlyInst where
  entry : Nat
  conf : Word
  inst : BitVec 16
  inputs : List (Port × Packet)
  age : Nat
  spoilt : List Port
  deriving DecidableEq, Repr

/-- A bundle as last driven (R45), and the flits of that run, each with its check bits (R48). -/
structure Bundle where
  flit : BitVec 512
  fecc : BitVec 32
  fvalid : Bool
  fvc : BitVec 2
  wake : Bool
  run : List (BitVec 512 × BitVec 32)
  deriving DecidableEq, Repr

/-- The router beside its registers. Key 4p + v names VC v of port p. -/
structure Router where
  /-- packets in an input buffer that are not routed yet: the input, the packet, and the flit credits owed -/
  inq : List (Port × Packet × Nat)
  held : List Held
  credits : Tab Nat
  creditsOut : Tab Nat
  /-- the output's last granted input per VC, key 4p + v (R317) -/
  turn : Tab Nat
  /-- the output's last granted VC among 0, 1 and 3 -/
  vcTurn : Tab Nat
  dup : List Dup
  ply : List PlyInst
  plyWait : List (Port × Packet × Nat)
  /-- input ports that discard every flit (R459), and those whose draining waits for a gap -/
  draining : BitVec 4
  drainEnd : BitVec 4
  /-- packets for L held in the ingress while the node wakes (R431) -/
  ingress : List Packet
  idle : Bool
  idleTicks : Nat
  /-- incoming WAKE per port, and for how many more ticks it stays high -/
  wakeIn : BitVec 4
  wakeLeft : Tab Nat
  /-- the last packet driven on each outward bundle, and the bundle's signals -/
  driven : Tab Packet
  bundle : Tab Bundle
  /-- table entries, by register offset, that fail their parity, and those already recorded (R460) -/
  tblBad : List Nat
  tblTold : List Nat
  deriving DecidableEq, Repr

/-! ### Chip links -/

/-- A flit in a slot of a frame (R361). -/
structure Slot where
  vc : BitVec 2
  flit : BitVec 512
  deriving DecidableEq, Repr

/-- A DATA frame in the replay buffer (R364). -/
structure TxFrame where
  seq : BitVec 12
  slots : List Slot
  sends : Nat
  age : Nat
  deriving DecidableEq, Repr

/-- A packet the adapter took from its router: the flits not yet placed, and the frame of its last flit (R375); the credits it
still owes the router, and whether it is in the escape buffer (R316, R327, R354). -/
structure TxPacket where
  pkt : Packet
  flits : List (BitVec 512)
  started : Bool
  last : Option (BitVec 12)
  owed : Nat
  esc : Bool
  deriving DecidableEq, Repr

/-- A stream of words received at a mask the partner may have gone over to: the words per lane not yet in turn, the lane of the
next word, and the bytes not yet a whole frame (R377). -/
structure RxStream where
  words : Tab (List (BitVec 256))
  pos : Nat
  rest : List Byte
  deriving DecidableEq, Repr

/-- One edge adapter beside its LNK_ registers. -/
structure LinkPort where
  timer : Nat
  rstN : Bool
  laneEn : BitVec 4
  rate : Bool
  retired : BitVec 4
  matched : Nat
  theirs : BitVec 4
  /-- PHY_LSTAT of the four lanes, lane l in bits [4l + 3 : 4l] (R51), and the ticks each lane has been healthy -/
  lstat : BitVec 16
  okTicks : Tab Nat
  /-- lanes marked unhealthy by a retirement under v1 (R374), and lanes that stopped being healthy in this tick (R372) -/
  sick : BitVec 4
  lostNow : BitVec 4
  /-- a lane criterion has begun a RETRAIN in this tick (R372) -/
  critNow : Bool
  /-- lanes whose criterion was met before ACTIVE, and the mask a RETRAIN is held to (R374, R377) -/
  owing : BitVec 4
  limit : BitVec 4
  /-- CAP: the partner's frame was accepted, with CAPACK seen -/
  capGot : Bool
  capAck : Bool
  capSent : Bool
  hitless : Bool
  /-- ACTIVE again after RETRAIN: the partner's first NULL frame is awaited (R370), and whether one was sent -/
  retrain : Bool
  nullSent : Bool
  /-- the mask in use before RETRAIN -/
  oldMask : BitVec 4
  packets : List TxPacket
  replay : List TxFrame
  /-- SEQ values still to be sent again, and the last of each replay whose acknowledgement is awaited (R482) -/
  again : List (BitVec 12)
  repEnds : List (BitVec 12)
  nextSeq : BitVec 12
  expect : BitVec 12
  ackV : Bool
  nakOut : Bool
  nakSend : Bool
  nakAge : Nat
  /-- AON ticks since the last acknowledgement, first transmission into an empty buffer, or replay -/
  repAge : Nat
  cvc : BitVec 2
  /-- per VC: partner's RXCRED, partner's freed count, flits placed; flits freed by this receiver -/
  rxCred : Tab Nat
  freed : Tab Nat
  placed : Tab Nat
  freedHere : Tab Nat
  partial0 : Tab (List (BitVec 512))
  crcRun : Nat
  winTicks : Nat
  crcWin : Nat
  uncWin : Tab Nat
  corWin : Tab Nat
  wreq : Bool
  wack : Bool
  /-- a frame with WACK = 1 has been sent -/
  wackSent : Bool
  wmask : BitVec 4
  wAge : Nat
  /-- EN = 0 was written in service (R375): DETACH frames sent so far, and ticks waited -/
  detaching : Bool
  detSent : Nat
  detAge : Nat
  /-- the last frame sent; the bytes of the stream not yet a whole word, the lane of the next word, and the words driven on
  each lane at the last send (R356) -/
  frameOut : List Byte
  txRest : List Byte
  txPos : Nat
  txd : Tab (List (BitVec 256))
  /-- the mask reception uses; words received and not yet in turn per lane, the lane of the next word, and bytes of the stream
  not yet a whole frame -/
  rxMask : BitVec 4
  rxWords : Tab (List (BitVec 256))
  rxPos : Nat
  rxRest : List Byte
  /-- while a width change stands, the streams that may begin at the new mask, the earliest first (R377) -/
  rxTry : List RxStream
  /-- whole packets for the router, with the link credits they free, and the adapter's credits for the router's input
  buffers (R354) -/
  inbound : List (Packet × Nat)
  inCred : Tab Nat
  /-- the adapter's bundle toward the router (R354) -/
  bundle : Bundle
  deriving DecidableEq, Repr

/-! ### Queue engine -/

/-- How a descriptor ended (R405, R406). -/
structure DescEnd where
  status : BitVec 8
  detail : BitVec 8
  extra : Nat
  dovf : Bool
  deriving DecidableEq, Repr

/-- A multicast piece in flight (R345): its TAG, nodes accounted for, nodes missed. -/
structure McPiece where
  tag : BitVec 16
  piece : Nat
  got : Nat
  need : Nat
  deriving DecidableEq, Repr

/-- A request an engine has outstanding: its TAG; whether it writes; for a read, the local offset its data goes
to and its bytes; the rows it belongs to. -/
structure Req where
  tag : BitVec 16
  write : Bool
  off : Nat
  len : Nat
  lo : Nat
  hi : Nat
  deriving DecidableEq, Repr

/-- The engine state of a descriptor in execution: rows issued whole, progress within the row or the element or
piece number, requests outstanding, multicast pieces and misses, drop-list entries made, and for PLY and BARRIER
the root result. -/
structure Engine where
  started : Bool
  row : Nat
  pos : Nat
  outst : List Req
  pieces : List McPiece
  drops : Nat
  dovf : Bool
  missed : Nat
  /-- the root's contribution is injected and its result awaited -/
  waiting : Bool
  shortfall : Option Nat
  deriving DecidableEq, Repr

/-- A descriptor in execution (R392): the copy taken at fetch, its ring index, its measures and its end. -/
structure Exec where
  desc : List Byte
  index : BitVec 16
  ticks : Nat
  energy : Nat
  est : Nat
  eng : Engine
  ended : Option DescEnd
  deriving DecidableEq, Repr

/-- One ring beside its registers: the fetched head, the fetch in flight, the wait of R443, the v1 phase. -/
structure Ring where
  head : Option (List Byte)
  fetching : Option (BitVec 16)
  wait : Nat
  exec : Option Exec
  phase : Bool
  level : Int
  resv : Nat
  deriving DecidableEq, Repr

/-- An IMQ entry (R413). -/
structure ImqEntry where
  ctx : CtxId
  bytes : List Byte
  deriving DecidableEq, Repr

/-- Who waits for the answer to a request of the node. -/
inductive Owner where
  | store (c : CtxId)
  | load (c : CtxId)
  | atomic (c : CtxId)
  | ring (n : Nat)
  | fetch (n : Nat)
  /-- the READ of a sector of code for L1I, by its first address (R203) -/
  | code (c : CtxId) (b : Word)
  | chest (off : Nat) (len : Nat)
  deriving DecidableEq, Repr

/-- The queue engine beside its registers. -/
structure Queue where
  db : List (BitVec 4 × BitVec 16)
  imq : List ImqEntry
  imqLast0 : List Byte
  imqLast1 : List Byte
  cq0 : List Word
  cq1 : List Word
  cqLast0 : Word
  cqLast1 : Word
  /-- stale timers: 0 doorbell FIFO, 1–2 IMQ of C0, C1, 3–4 completion FIFO of C0, C1 (R415) -/
  timers : Tab Nat
  rings : Tab Ring
  reserved : BitVec 8
  tags : BitVec 16
  outst : List (BitVec 16 × Owner)
  /-- ingress entries that fail their parity: 0 for the doorbell FIFO or 1 for the IMQ, and the position in it (R460) -/
  bad : List (Nat × Nat)
  deriving DecidableEq, Repr

/-! ### Spindle, start-up, faults -/

/-- The Spindle beside its registers; energies in 1/16 nJ. -/
structure Spn where
  energyRem : Nat
  epochE : Nat
  epochTicks : Nat
  debtRem : Nat
  sinceRise : Nat
  rr : Tab Nat
  hot : Bool
  below : Nat
  cool : Nat
  tripRun : Nat
  diffRun : Nat
  /-- PWR_WARN_N was recognised low in N2 to N4 (R427) -/
  pwrLow : Bool
  holdTicks : Nat
  oppTarget : BitVec 3
  stretch : Bool
  dwell : Nat
  wakeSrc : BitVec 4
  tripped : Bool
  /-- comparators that have matched and wait for a write of VAL (R434) -/
  matched : BitVec 4
  /-- the LDO gives the node-logic domain its voltage (R39), and the ticks the sensed value has been out of its band (R421) -/
  ldoOn : Bool
  devTicks : Nat
  /-- nanoseconds for which PWR_WARN_N still stays low (R58) -/
  warnLeft : Nat
  /-- sensed and modelled energy of the last 256 ticks, newest first (R436) -/
  eHist : List (Nat × Nat)
  /-- ticks since the last scrubbed block (R192) -/
  scrubTicks : Nat
  deriving DecidableEq, Repr

/-- A held ENUM and its arrival port (R79). -/
structure EnumMsg where
  pkt : Packet
  port : Port
  deriving DecidableEq, Repr

/-- Where a node-domain reset stands (R90). -/
inductive ResetPhase where
  | off
  /-- requested: tick 0 follows -/
  | requested
  /-- tick 0 done; held until the release -/
  | holding
  /-- a fence has taken effect since tick 0: held at tick 1 -/
  | fenced
  deriving DecidableEq, Repr

/-- A fault of this AON tick (R453, R454): its record's words, the first without NUM, the slot it took and the words that slot held,
or none and what FLT_LOST gained. -/
structure TickRec where
  source : Nat
  cls : Nat
  words : List Nat
  slot : Option Nat
  old : List Nat
  deriving DecidableEq, Repr

/-- Start-up and reset progress beside the ID_ registers. -/
structure StartUp where
  ready : Bool
  readyTicks : Nat
  xKnown : Bool
  yKnown : Bool
  held : Option EnumMsg
  creditSeen : BitVec 4
  fuse : List Byte
  fuseFailed : Bool
  fuseTicks : Nat
  repair : Tab (BitVec 10)
  phase : ResetPhase
  pllLost : Bool
  /-- the first firmware instruction after PORST_N has run: the test gate has closed (R65) -/
  ran : Bool
  testMode : Bool
  /-- the register and data an extension in progress uses (R178) -/
  extIdx : BitVec 2
  /-- what hardware did in this AON tick to registers of the always-on domain: W1C bits set, RC counts added, by offset (R18) -/
  aonSet : Tab Nat
  aonAdd : Tab Nat
  /-- the faults of this AON tick, in the order of R454 -/
  tickRecs : List TickRec
  deriving DecidableEq, Repr

/-- The states of an IEEE 1149.1 test access port. PRESUMED (assumption 75). -/
inductive Tap where
  | testLogicReset | runTestIdle
  | selectDr | captureDr | shiftDr | exit1Dr | pauseDr | exit2Dr | updateDr
  | selectIr | captureIr | shiftIr | exit1Ir | pauseIr | exit2Ir | updateIr
  deriving DecidableEq, Repr

/-- Signals of R35 outside the bundles. Of the TAP (R64): its inputs TRST_N and TDI as last seen, `tdo`, none while it is not
driven, the instruction register, the data register between TDI and TDO, and the last 128 bits TDO has given. -/
structure Pins where
  porstN : Bool
  nodeRstN : Bool
  pwrWarnN : Bool
  thermTripN : Bool
  faultOutN : Bool
  fuseReq : Bool
  idVersion : Byte
  tap : Tap
  trstN : Bool
  tdi : Bool
  tdo : Option Bool
  ir : BitVec 4
  dr : BitVec 128
  shifted : BitVec 128
  scanOut : Word32
  deriving DecidableEq, Repr

/-- The node. `ctrl` holds every control-space register by its offset from 0x01_0000_0000 (R23, R508); a
register not listed holds its reset value (`Machine.regInfo`). `fresh` counts the free values the node has produced: it is the model's own field. -/
structure State where
  pending : List Instr
  pins : Pins
  up : StartUp
  ctrl : Tab Word
  core : Core
  mx : Mx
  mem : Mem
  ecc : Tab EccMark
  cache : Caches
  rtr : Router
  lnkN : LinkPort
  lnkE : LinkPort
  lnkS : LinkPort
  lnkW : LinkPort
  qe : Queue
  spn : Spn
  fltRx : List (List Byte)
  fltRxLast : List Byte
  /-- the activity counters of R436 since the last AON tick, by number -/
  act : Tab Nat
  /-- free values produced so far (the model's own) -/
  fresh : Nat
  deriving DecidableEq, Repr

/-! ### Reset values -/

/-- A context after PORST_N, node-domain reset or CTXSTART (R132, R133, R157, R163, R241).
DESIGN CHOICE (assumption 4). -/
def Ctx.reset : Ctx :=
  { pc := 0, pl := 2, fast := false, cwp := 0, spare := false, n := false, z := false, cf := false,
    v := false, p := false, ie := false, g := [], h := [], k := [], spareK := [], spareF := [], zb := [],
    wvalid := 1, wsp := 0, wslimit := 0, reel := [], reelTrap := false, reelsp := 0, mpl := 0, mph := 0,
    prods := [], xvecS := 0, xvecM := 0, xcauseS := 0, xaddrS := 0, xspS := 0, xsbaseS := 0, xslimitS := 0,
    xcauseM := 0, xaddrM := 0, xspM := 0, xsbaseM := 0, xslimitM := 0, xnest := 0, xdeleg := 0, xien := 0,
    xpend := 0, zpc := 0, zst := 0, zbusy := false, xback := false, xbpl := 0, xbdepth := 0, srstate := 1,
    latch := false, wait := .run, afterEret := false, posted := [] }

/-- The core at reset: RUN0 = 1, RUN1 = 0, C0 owns the matrix state (R162, R176). DESIGN CHOICE (assumption 4). -/
def Core.reset : Core :=
  { c0 := Ctx.reset, c1 := Ctx.reset, cur := .c0, run := 1, xpre := 0, benchBusy := false,
    benchCtx := .c0, benchDepth := 0, mxOwner := .c0, mxDirty := 0, mxCfg := false, chestBase0 := 0,
    chestBase1 := 0, chestErr := 0, chestOp := none, chestXa := 0, chestCtr0 := 0, chestCtr1 := 0,
    chestXctr := 0, kenergy0 := 0, kenergy1 := 0, spoilt := none }

/-- The accumulator set at reset: EMPTY, every cell zero (R262, R296). -/
def AccSet.reset : AccSet :=
  { cells := [], mode := 0, acs := 0, loss := false, sat := false, lossCnt := 0, repCnt := 0 }

/-- The matrix and vector state at reset: every group zero (R176). DESIGN CHOICE (assumption 4). -/
def Mx.reset : Mx :=
  { mode := 0, file := [], tags := [], acc := AccSet.reset, drain := none, scale := [], ovf := false,
    inv := false, ehist := [], vreg := [] }

/-- Caches invalid (R208), replacement bits 0 (R204). -/
def Caches.reset : Caches := { l1i := [], l1d := [], treeI := [], treeD := [], victim := [] }

/-- The router at PORST_N: no packet, no credit (R47), no filter entry. -/
def Router.reset : Router :=
  { inq := [], held := [], credits := [], creditsOut := [], turn := [], vcTurn := [], dup := [], ply := [],
    plyWait := [], draining := 0, drainEnd := 0, ingress := [], idle := true, idleTicks := 0, wakeIn := 0,
    wakeLeft := [], driven := [], bundle := [], tblBad := [], tblTold := [] }

/-- A bundle with nothing on it (R35). -/
def Bundle.quiet : Bundle := { flit := 0, fecc := 0, fvalid := false, fvc := 0, wake := false, run := [] }

/-- An edge adapter at PORST_N: DISABLED, PHY in reset (R368, R52). -/
def LinkPort.reset : LinkPort :=
  { timer := 0, rstN := false, laneEn := 0, rate := false, retired := 0, matched := 0, theirs := 0,
    lstat := 0, okTicks := [], sick := 0, lostNow := 0, critNow := false, owing := 0, limit := 0,
    capGot := false, capAck := false, capSent := false, hitless := false, retrain := false, nullSent := false, oldMask := 0, packets := [],
    replay := [], again := [], repEnds := [], nextSeq := 0, expect := 0, ackV := false, nakOut := false, nakSend := false,
    nakAge := 0, repAge := 0, cvc := 0, rxCred := [], freed := [], placed := [], freedHere := [], partial0 := [],
    crcRun := 0, winTicks := 0, crcWin := 0, uncWin := [], corWin := [], wreq := false, wack := false, wackSent := false,
    wmask := 0, wAge := 0, detaching := false, detSent := 0, detAge := 0, frameOut := [],
    txRest := [], txPos := 0, txd := [], rxMask := 0, rxWords := [], rxPos := 0, rxRest := [], rxTry := [], inbound := [], inCred := [],
    bundle := Bundle.quiet }

/-- A ring with nothing fetched. -/
def Ring.reset : Ring :=
  { head := none, fetching := none, wait := 0, exec := none, phase := true, level := 0, resv := 0 }

/-- The ingress empty (R381). -/
def Queue.reset : Queue :=
  { db := [], imq := [], imqLast0 := [], imqLast1 := [], cq0 := [], cq1 := [], cqLast0 := 0, cqLast1 := 0,
    timers := [], rings := [], reserved := 0, tags := 0, outst := [], bad := [] }

/-- The Spindle at PORST_N: no tick has passed; DBCEIL may rise at once (R442). -/
def Spn.reset : Spn :=
  { energyRem := 0, epochE := 0, epochTicks := 0, debtRem := 0,
    sinceRise := 24, rr := [], hot := false, below := 0, cool := 0, tripRun := 0, diffRun := 0,
    pwrLow := false, holdTicks := 0, oppTarget := 7, stretch := false, dwell := 0,
    wakeSrc := 0, tripped := false, matched := 0, ldoOn := false, devTicks := 0, warnLeft := 0, eHist := [], scrubTicks := 0 }

/-- Nothing acquired, nothing loaded. -/
def StartUp.reset : StartUp :=
  { ready := false, readyTicks := 0, xKnown := false, yKnown := false, held := none, creditSeen := 0,
    fuse := [], fuseFailed := false, fuseTicks := 0, repair := [], phase := .off,
    pllLost := false, ran := false, testMode := false, extIdx := 0, aonSet := [], aonAdd := [], tickRecs := [] }

/-- Outputs at their reset values (R35), PORST_N still low. -/
def Pins.reset : Pins :=
  { porstN := false, nodeRstN := true, pwrWarnN := true, thermTripN := true, faultOutN := true,
    fuseReq := false, idVersion := 0x31, tap := .testLogicReset, trstN := true, tdi := false, tdo := none, ir := 15, dr := 0, shifted := 0, scanOut := 0 }

/-- The node while PORST_N is low: every register at its Reset-column value, no command waiting.
DESIGN CHOICE (assumption 2). -/
def State.reset : State :=
  { pending := [], pins := Pins.reset, up := StartUp.reset, ctrl := [], core := Core.reset,
    mx := Mx.reset, mem := [], ecc := [], cache := Caches.reset, rtr := Router.reset,
    lnkN := LinkPort.reset, lnkE := LinkPort.reset, lnkS := LinkPort.reset, lnkW := LinkPort.reset,
    qe := Queue.reset, spn := Spn.reset, fltRx := [], fltRxLast := [], act := [], fresh := 0 }

end Sys2Proof.Machine
end

