-- ==== Sys2Proof/Machine/Tab.lean ====
section
/-! DEFINITION. Sparse arrays, bit fields and byte order: the helpers every block uses. -/

namespace Sys2Proof.Machine

/-- The element at key `k`; `d` where none is listed. -/
def tget {α : Type} (d : α) : Tab α → Nat → α
  | [], _ => d
  | (i, x) :: r, k => if k = i then x else tget d r k

/-- Put a non-default element at `k`, keeping the keys rising. -/
def tins {α : Type} : Tab α → Nat → α → Tab α
  | [], k, v => [(k, v)]
  | (i, x) :: r, k, v =>
    if k < i then (k, v) :: (i, x) :: r
    else if k = i then (k, v) :: r
    else (i, x) :: tins r k v

/-- Store `v` at `k`; a value equal to the default `d` is not listed. -/
def tput {α : Type} [DecidableEq α] (d : α) (t : Tab α) (k : Nat) (v : α) : Tab α :=
  if v = d then t.filter (fun e => e.1 ≠ k) else tins t k v

/-- Keys strictly rising and no entry at its key's default: the canonical form. -/
def twf {α : Type} [DecidableEq α] (d : Nat → α) : Tab α → Bool
  | [] => true
  | [(i, x)] => x ≠ d i
  | (i, x) :: (j, y) :: r => (x ≠ d i && i < j) && twf d ((j, y) :: r)

/-- Memory in canonical form: rising addresses, no zero byte listed. DESIGN CHOICE (assumption 5). -/
abbrev Mem.wf (m : Mem) : Prop := twf (fun _ => (0 : Byte)) m = true

/-- Remove every element whose key is in `lo .. lo + n - 1`. -/
def tclear {α : Type} (t : Tab α) (lo n : Nat) : Tab α :=
  t.filter (fun e => e.1 < lo || lo + n ≤ e.1)

/-! ### Bits of natural numbers -/

/-- Bits [lo + w - 1 : lo] of `x`. -/
def bits (x lo w : Nat) : Nat := x / 2 ^ lo % 2 ^ w

/-- Bit `i` of `x`. -/
def bit (x i : Nat) : Bool := x.testBit i

/-- `x` with bits [lo + w - 1 : lo] replaced by `v`. -/
def setBits (x lo w v : Nat) : Nat :=
  x / 2 ^ (lo + w) * 2 ^ (lo + w) + v % 2 ^ w * 2 ^ lo + x % 2 ^ lo

/-- A Bool as a bit. -/
def b2n (b : Bool) : Nat := if b then 1 else 0

/-- `x` read as a signed number of `w` bits. -/
def signed (w x : Nat) : Int := if x % 2 ^ w < 2 ^ (w - 1) then ((x % 2 ^ w : Nat) : Int) else (x % 2 ^ w : Nat) - (2 ^ w : Nat)

/-- The `w`-bit pattern of an integer. -/
def unsigned (w : Nat) (x : Int) : Nat := (x % (2 ^ w : Nat)).toNat

/-- Sign extension to 64 bits. -/
def sext {n : Nat} (x : BitVec n) : Word := x.signExtend 64

/-- Zero extension to 64 bits. -/
def zext {n : Nat} (x : BitVec n) : Word := x.setWidth 64

/-! ### Bytes, little-endian (R12) -/

/-- The number a byte list spells, lowest byte first. -/
def leNat : List Byte → Nat
  | [] => 0
  | b :: r => b.toNat + 256 * leNat r

/-- `n` bytes of a number, lowest first. -/
def toLe : Nat → Nat → List Byte
  | 0, _ => []
  | n + 1, x => BitVec.ofNat 8 x :: toLe n (x / 256)

/-- `n` bytes of a list from byte `at`, zero past its end. -/
def slice (l : List Byte) (at0 n : Nat) : List Byte :=
  (List.range n).map fun i => l.getD (at0 + i) 0

/-- The little-endian number in `n` bytes of a list from byte `at0`. -/
def field (l : List Byte) (at0 n : Nat) : Nat := leNat (slice l at0 n)

/-! ### Byte arrays -/

/-- One byte of memory. DESIGN CHOICE (assumption 5). -/
def Mem.byte (m : Mem) (a : Nat) : Byte := tget 0 m a

/-- Write one byte. DESIGN CHOICE (assumption 5). -/
def Mem.put (m : Mem) (a : Nat) (b : Byte) : Mem := tput 0 m a b

/-- `n` bytes from `a` upward. -/
def Mem.read (m : Mem) (a n : Nat) : List Byte := (List.range n).map fun i => m.byte (a + i)

/-- Write a list of bytes from `a` upward. -/
def Mem.write (m : Mem) (a : Nat) : List Byte → Mem
  | [] => m
  | b :: r => Mem.write (m.put a b) (a + 1) r

/-! ### Lists -/

/-- Replace the element at an index. -/
def lset {α : Type} (l : List α) (i : Nat) (x : α) : List α := l.set i x

/-- Repeat a state change once for each number below `n`, in ascending order. -/
def forN {σ : Type} (n : Nat) (f : Nat → σ → σ) (s : σ) : σ := (List.range n).foldl (fun s i => f i s) s

end Sys2Proof.Machine
end

