-- ==== Sys2Proof/Machine/Crypto.lean ====
section
/-! DEFINITION. SHA-384, HMAC-SHA-384 and AES-256-GCM as their standards define them, for R85, R178, R464 and
R175, and the fuse image's CRC-32 (R62). PRESUMED: the spec names the algorithms and does not restate them
(assumption 7). -/

namespace Sys2Proof.Machine

/-! ### SHA-384 -/

/-- Round constants of SHA-384. -/
def shaK0 : List Word :=
  [0x428A2F98D728AE22, 0x7137449123EF65CD, 0xB5C0FBCFEC4D3B2F, 0xE9B5DBA58189DBBC,
   0x3956C25BF348B538, 0x59F111F1B605D019, 0x923F82A4AF194F9B, 0xAB1C5ED5DA6D8118,
   0xD807AA98A3030242, 0x12835B0145706FBE, 0x243185BE4EE4B28C, 0x550C7DC3D5FFB4E2,
   0x72BE5D74F27B896F, 0x80DEB1FE3B1696B1, 0x9BDC06A725C71235, 0xC19BF174CF692694]

/-- Round constants of SHA-384. -/
def shaK1 : List Word :=
  [0xE49B69C19EF14AD2, 0xEFBE4786384F25E3, 0x0FC19DC68B8CD5B5, 0x240CA1CC77AC9C65,
   0x2DE92C6F592B0275, 0x4A7484AA6EA6E483, 0x5CB0A9DCBD41FBD4, 0x76F988DA831153B5,
   0x983E5152EE66DFAB, 0xA831C66D2DB43210, 0xB00327C898FB213F, 0xBF597FC7BEEF0EE4,
   0xC6E00BF33DA88FC2, 0xD5A79147930AA725, 0x06CA6351E003826F, 0x142929670A0E6E70]

/-- Round constants of SHA-384. -/
def shaK2 : List Word :=
  [0x27B70A8546D22FFC, 0x2E1B21385C26C926, 0x4D2C6DFC5AC42AED, 0x53380D139D95B3DF,
   0x650A73548BAF63DE, 0x766A0ABB3C77B2A8, 0x81C2C92E47EDAEE6, 0x92722C851482353B,
   0xA2BFE8A14CF10364, 0xA81A664BBC423001, 0xC24B8B70D0F89791, 0xC76C51A30654BE30,
   0xD192E819D6EF5218, 0xD69906245565A910, 0xF40E35855771202A, 0x106AA07032BBD1B8]

/-- Round constants of SHA-384. -/
def shaK3 : List Word :=
  [0x19A4C116B8D2D0C8, 0x1E376C085141AB53, 0x2748774CDF8EEB99, 0x34B0BCB5E19B48A8,
   0x391C0CB3C5C95A63, 0x4ED8AA4AE3418ACB, 0x5B9CCA4F7763E373, 0x682E6FF3D6B2B8A3,
   0x748F82EE5DEFB2FC, 0x78A5636F43172F60, 0x84C87814A1F0AB72, 0x8CC702081A6439EC,
   0x90BEFFFA23631E28, 0xA4506CEBDE82BDE9, 0xBEF9A3F7B2C67915, 0xC67178F2E372532B]

/-- Round constants of SHA-384. -/
def shaK4 : List Word :=
  [0xCA273ECEEA26619C, 0xD186B8C721C0C207, 0xEADA7DD6CDE0EB1E, 0xF57D4F7FEE6ED178,
   0x06F067AA72176FBA, 0x0A637DC5A2C898A6, 0x113F9804BEF90DAE, 0x1B710B35131C471B,
   0x28DB77F523047D84, 0x32CAAB7B40C72493, 0x3C9EBE0A15C9BEBC, 0x431D67C49C100D4C,
   0x4CC5D4BECB3E42B6, 0x597F299CFC657E2A, 0x5FCB6FAB3AD6FAEC, 0x6C44198C4A475817]

/-- Round constants of SHA-384. -/
def shaK : List Word := shaK0 ++ shaK1 ++ shaK2 ++ shaK3 ++ shaK4

/-- Initial hash value of SHA-384. -/
def shaH : List Word :=
  [0xCBBB9D5DC1059ED8, 0x629A292A367CD507, 0x9159015A3070DD17, 0x152FECD8F70E5939,
   0x67332667FFC00B31, 0x8EB44A8768581511, 0xDB0C2E0D64F98FA7, 0x47B5481DBEFA4FA4]

/-- Big-endian bytes of a word. -/
def be64 (x : Word) : List Byte := (toLe 8 x.toNat).reverse

/-- The word eight big-endian bytes spell. -/
def word64 (l : List Byte) : Word := BitVec.ofNat 64 (leNat l.reverse)

/-- Bytes in pieces of `n`. -/
def chunks (n : Nat) (l : List Byte) : List (List Byte) :=
  (List.range ((l.length + n - 1) / n)).map fun i => (l.drop (n * i)).take n

/-- One further word of the message schedule; the last sixteen are held newest first. -/
def shaExtend (w : List Word) : Word :=
  let a := w.getD 1 0
  let b := w.getD 14 0
  let s1 := a.rotateRight 19 ^^^ a.rotateRight 61 ^^^ (a >>> 6)
  let s0 := b.rotateRight 1 ^^^ b.rotateRight 8 ^^^ (b >>> 7)
  s1 + w.getD 6 0 + s0 + w.getD 15 0

/-- The eighty words of the schedule of one block. -/
def shaSchedule (block : List Byte) : List Word :=
  let w0 := ((chunks 8 block).map word64).reverse
  (Nat.repeat (fun w => shaExtend w :: w) 64 w0).reverse

/-- One round on the working variables a to h. -/
def shaRound (v : List Word) (kw : Word) : List Word :=
  let a := v.getD 0 0
  let b := v.getD 1 0
  let c := v.getD 2 0
  let e := v.getD 4 0
  let f := v.getD 5 0
  let g := v.getD 6 0
  let s1 := e.rotateRight 14 ^^^ e.rotateRight 18 ^^^ e.rotateRight 41
  let ch := (e &&& f) ^^^ (~~~e &&& g)
  let t1 := v.getD 7 0 + s1 + ch + kw
  let s0 := a.rotateRight 28 ^^^ a.rotateRight 34 ^^^ a.rotateRight 39
  let maj := (a &&& b) ^^^ (a &&& c) ^^^ (b &&& c)
  [t1 + s0 + maj, a, b, c, v.getD 3 0 + t1, e, f, g]

/-- One block. -/
def shaBlock (h : List Word) (block : List Byte) : List Word :=
  let v := (List.zipWith (· + ·) shaK (shaSchedule block)).foldl shaRound h
  List.zipWith (· + ·) h v

/-- The padded message. -/
def shaPad (m : List Byte) : List Byte :=
  let z := (239 - m.length % 128) % 128
  m ++ [0x80] ++ List.replicate z 0 ++ (toLe 16 (8 * m.length)).reverse

/-- SHA-384 of a byte list: 48 bytes. PRESUMED (assumption 7). -/
def sha384 (m : List Byte) : List Byte :=
  (((chunks 128 (shaPad m)).foldl shaBlock shaH).flatMap be64).take 48

/-- HMAC-SHA-384 under a key of at most 128 bytes. PRESUMED (assumption 7). -/
def hmac384 (key m : List Byte) : List Byte :=
  let k := key ++ List.replicate (128 - key.length) 0
  sha384 ((k.map fun b => b ^^^ 0x5C) ++ sha384 ((k.map fun b => b ^^^ 0x36) ++ m))

/-! ### AES-256-GCM -/

/-- Multiply by x in the AES field. -/
def xtime (a : Byte) : Byte := (a <<< 1) ^^^ (if a.getLsbD 7 then 0x1B else 0)

/-- Multiply in the AES field. -/
def gfMul (a b : Byte) : Byte :=
  ((List.range 8).foldl (fun (st : Byte × Byte) i =>
    (if b.getLsbD i then st.1 ^^^ st.2 else st.1, xtime st.2)) ((0 : Byte), a)).1

/-- The 254th power: the inverse, 0 for 0. -/
def gfInv (a : Byte) : Byte :=
  let a2 := gfMul a a
  let a4 := gfMul a2 a2
  let a8 := gfMul a4 a4
  let a16 := gfMul a8 a8
  let a32 := gfMul a16 a16
  let a64 := gfMul a32 a32
  let a128 := gfMul a64 a64
  gfMul a128 (gfMul a64 (gfMul a32 (gfMul a16 (gfMul a8 (gfMul a4 a2)))))

/-- SubBytes of one byte. -/
def sbox (a : Byte) : Byte :=
  let b := gfInv a
  b ^^^ b.rotateLeft 1 ^^^ b.rotateLeft 2 ^^^ b.rotateLeft 3 ^^^ b.rotateLeft 4 ^^^ 0x63

/-- Bytewise XOR. -/
def xorBytes (a b : List Byte) : List Byte := List.zipWith (· ^^^ ·) a b

/-- Key expansion: word `i` (8 or more) from the words so far, newest first. -/
def aesNext (i : Nat) (ws : List (List Byte)) : List Byte :=
  let t := ws.getD 0 []
  let t :=
    if i % 8 = 0 then
      xorBytes ((t.drop 1 ++ t.take 1).map sbox) [Nat.repeat xtime (i / 8 - 1) 1, 0, 0, 0]
    else if i % 8 = 4 then t.map sbox else t
  xorBytes (ws.getD 7 []) t

/-- The 60 words of the AES-256 key schedule. -/
def aesKeys (key : List Byte) : List (List Byte) :=
  ((List.range 52).foldl (fun ws i => aesNext (i + 8) ws :: ws) (chunks 4 key).reverse).reverse

/-- ShiftRows on the 16 bytes in column order. -/
def shiftRows (s : List Byte) : List Byte :=
  (List.range 16).map fun i => s.getD ((i + 4 * (i % 4)) % 16) 0

/-- MixColumns. -/
def mixColumns (s : List Byte) : List Byte :=
  (List.range 16).map fun i =>
    let c := 4 * (i / 4)
    let at' (k : Nat) := s.getD (c + (i + k) % 4) 0
    gfMul 2 (at' 0) ^^^ gfMul 3 (at' 1) ^^^ at' 2 ^^^ at' 3

/-- The round key `r`. -/
def roundKey (ks : List (List Byte)) (r : Nat) : List Byte := ((ks.drop (4 * r)).take 4).flatten

/-- AES-256 encryption of one block. -/
def aesBlock (ks : List (List Byte)) (b : List Byte) : List Byte :=
  let s := xorBytes b (roundKey ks 0)
  let s := (List.range 13).foldl (fun s r => xorBytes (mixColumns (shiftRows (s.map sbox))) (roundKey ks (r + 1))) s
  xorBytes (shiftRows (s.map sbox)) (roundKey ks 14)

/-- A block as GCM numbers it: the first byte is the most significant. -/
def beNat (l : List Byte) : Nat := leNat l.reverse

/-- Multiply in the GCM field. -/
def ghMul (x y : Nat) : Nat :=
  ((List.range 128).foldl (fun (st : Nat × Nat) i =>
    (if x.testBit (127 - i) then st.1 ^^^ st.2 else st.1,
     if st.2 % 2 = 1 then (st.2 / 2) ^^^ (0xE1 * 2 ^ 120) else st.2 / 2)) (0, y)).1

/-- Zero-pad to whole blocks. -/
def pad16 (l : List Byte) : List Byte := l ++ List.replicate ((16 - l.length % 16) % 16) 0

/-- GHASH of a byte list of whole blocks. -/
def ghash (h : Nat) (l : List Byte) : Nat := (chunks 16 l).foldl (fun y b => ghMul (y ^^^ beNat b) h) 0

/-- Counter block `i` of a 96-bit IV. -/
def gcmCounter (iv : List Byte) (i : Nat) : List Byte := iv ++ (toLe 4 i).reverse

/-- Encrypt or decrypt in counter mode. PRESUMED (assumption 7). -/
def gcmCrypt (ks : List (List Byte)) (iv d : List Byte) : List Byte :=
  ((chunks 16 d).zipIdx.map fun e => xorBytes e.1 (aesBlock ks (gcmCounter iv (e.2 + 2)))).flatten

/-- The 16-byte tag over the additional data and the ciphertext. -/
def gcmTag (ks : List (List Byte)) (iv aad c : List Byte) : List Byte :=
  let h := beNat (aesBlock ks (List.replicate 16 0))
  let s := ghash h (pad16 aad ++ pad16 c ++ (toLe 8 (8 * aad.length)).reverse ++ (toLe 8 (8 * c.length)).reverse)
  xorBytes (aesBlock ks (gcmCounter iv 1)) (toLe 16 s).reverse

/-! ### CRC-32 with polynomial 0x04C1_1DB7 -/

/-- Feed one bit, most significant remainder bit first. -/
def crcBit (r : BitVec 32) (b : Bool) : BitVec 32 :=
  if r.getLsbD 31 != b then (r <<< 1) ^^^ 0x04C11DB7 else r <<< 1

/-- Feed a byte, its bit 0 first when `reflect`. -/
def crcByte (reflect : Bool) (r : BitVec 32) (b : Byte) : BitVec 32 :=
  (List.range 8).foldl (fun r i => crcBit r (b.getLsbD (if reflect then i else 7 - i))) r

/-- The CRC of a byte list in a given form. -/
def crc32 (init : BitVec 32) (reflect : Bool) (xorOut : BitVec 32) (l : List Byte) : BitVec 32 :=
  let r := l.foldl (crcByte reflect) init
  (if reflect then r.reverse else r) ^^^ xorOut

end Sys2Proof.Machine
end

