-- ==== Sys2Proof/Config.lean ====
section
/-! DEFINITION. What an implementation fixes and the spec leaves open: constants without a body, so that no
proof can see their value. -/

namespace Sys2Proof.Config

/-- A 64-bit value the spec leaves open, fresh for every index (assumption 20). DESIGN CHOICE (assumption 18).
DESIGN CHOICE (assumption 24). DESIGN CHOICE (assumption 33). -/
opaque freeWord : Nat → Word

/-- The initial remainder of the fuse CRC-32, whose polynomial R62 names (assumption 8). -/
opaque fuseCrcInit : BitVec 32

/-- Whether the fuse CRC-32 takes each byte's bit 0 first and its result reflected (assumption 8). -/
opaque fuseCrcReflect : Bool

/-- What the fuse CRC-32's remainder is XORed with at the end (assumption 8). -/
opaque fuseCrcXor : BitVec 32

/-- Which of the FP32 results within 2 units in the last place VEXP2 (false) or VRCP (true) gives, by operand (assumption 30). -/
opaque ulpError : Bool → BitVec 32 → Nat

/-- The SECDED check bits of a flit's low half with FVC above it, and of its high half (R45, R48), whose code the spec does not
give (assumption 74). -/
opaque secdedLow : BitVec 258 → BitVec 16
opaque secdedHigh : BitVec 256 → BitVec 16

/-- The TAP instruction that selects the test network, which the spec does not give (assumption 75). -/
opaque tapNetwork : BitVec 4

/-- The coefficient of a unit that the energy-coefficient calibration of a fuse image gives, in 1/16 nJ per count; the spec
lays out none of its bits (R62, R73, R436, assumption 61). -/
opaque energyCoeff : List (BitVec 8) → Nat → BitVec 16

/-- The requesters that present a transfer to the local memory port at a capture (assumption 21). -/
opaque presenting : Nat → BitVec 6

/-- The requester that holds the local memory port's turn at a capture (assumption 21). -/
opaque portTurn : Nat → Fin 6

/-- The SOURCE of the contained record a refused drop-list write makes, which R452 does not name (assumption 22). -/
opaque dropSource : BitVec 8

end Sys2Proof.Config
end

