-- ==== Sys2Proof/Machine/RegMap.lean ====
section
/-! DEFINITION. The control-space registers of the node (R508, R509): for each offset from
0x01_0000_0000, its access types as bit masks and its reset value, and the named fields of the register tables. -/

namespace Sys2Proof.Machine

/-- A register's types (R16) as masks, and its reset value. Bits in no mask are RO or reserved. -/
structure RegInfo where
  rw : Nat
  w1c : Nat
  w1s : Nat
  rc : Nat
  /-- stored and not readable -/
  wo : Nat
  /-- bits in `rw` that a LOCK bit freezes (RWL) -/
  rwl : Nat
  reset : Nat
  deriving DecidableEq, Repr

/-- A register whose every field is RO. -/
def ro (reset : Nat) : RegInfo := ⟨0, 0, 0, 0, 0, 0, reset⟩
/-- A register with RW bits `m`. -/
def rw (m reset : Nat) : RegInfo := ⟨m, 0, 0, 0, 0, 0, reset⟩
/-- A read-to-clear counter. -/
def rc (m : Nat) : RegInfo := ⟨0, 0, 0, m, 0, 0, 0⟩
/-- A register stored on write and never read. -/
def wo (m : Nat) : RegInfo := ⟨0, 0, 0, 0, m, 0, 0⟩
/-- A register whose WO fields act on write and store nothing. -/
def woAct : RegInfo := ro 0
/-- A register with W1C bits. -/
def w1c (m : Nat) : RegInfo := ⟨0, m, 0, 0, 0, 0, 0⟩

/-- All 64 bits. -/
def m64 : Nat := 0xFFFFFFFFFFFFFFFF
/-- The low 32 bits. -/
def m32 : Nat := 0xFFFFFFFF

/-- ID_ (R92 to R94, R508). X, Y, DIE, W and H of ID_COORD read 0 until they are acquired. DESIGN CHOICE (assumption 90). -/
def idInfo (o : Nat) : Option RegInfo :=
  if o = 0x000 then some (ro 0x0231) else if o = 0x008 then some (ro 0xFF)
  else if o = 0x010 ∨ o = 0x018 then some (ro 3) else if o = 0x020 then some (rw 0xF 2)
  else if o = 0x058 then some (rw 0xFF 0) else if o = 0x060 then some (rw 0x7FFFFF 0)
  else if o % 8 = 0 ∧ o ≤ 0x068 then some (ro 0) else none

/-- SPN_ (R449). -/
def spnInfo (o : Nat) : Option RegInfo :=
  if o = 0x000 then some (rw 0x10007 0x70)
  else if o = 0x008 then some (rw 0xFF03FFFF 0x19020019)
  else if o = 0x010 then some (rw 0x7 0)
  else if o = 0x020 then some (rw 0xF 0xF)
  else if o = 0x030 then some (rw 0xFFFFFFFFFFFFFFFC 0)
  else if o = 0x040 then some (rw m32 0x61A8)
  else if o = 0x048 then some (rw 0xFFFF 0x0880)
  else if o = 0x050 ∨ o = 0x058 then some (rw m32 0x2134)
  else if o = 0x060 then some (ro 0x213400)
  else if o = 0x078 then some (rw 0x7FFFFF 0)
  else if o = 0x080 ∨ o = 0x0A8 ∨ o = 0x0D0 then some (rc m32)
  else if o = 0x088 then some (rw 0x3FFFFFFFF 0x3000061A8)
  else if o = 0x0B0 then some { rw 0x0FFF0FFF0FFF 0x01CC01900154 with rwl := 0x0FFF0FFF0FFF }
  else if o = 0x0C0 then some (ro 0x02260000)
  else if o = 0x0C8 then some (rw 0xFF 0x1E)
  else if o = 0x0D8 then some (rw 0xFFFF 0xFA)
  else if o = 0x0E0 then some (w1c 0x1FF)
  else if o = 0x0E8 then some (rw 0x1FF01 0)
  else if o = 0x0F0 then some { ro 0 with w1s := 1 }
  else if o = 0x100 ∨ o = 0x110 ∨ o = 0x120 ∨ o = 0x130 then some (rw m64 0)
  else if o = 0x108 ∨ o = 0x118 then some (rw 0xFFFFFFFF00000007 0)
  else if o = 0x128 then some (rw 0xFFFFFFFF00000005 0)
  else if o = 0x138 then some (rw 0xFFFFFFFF00000005 2)
  else if o = 0x140 then some { w1c 0xF with rc := 0xFFFFFFFF00 }
  else if o % 8 = 0 ∧ (o ≤ 0x0F0 ∨ (0x200 ≤ o ∧ o < 0x280)) then some (ro 0) else none

/-- QE_ registers of one context, at their offset from 0x200 + 0x100c (R417). -/
def qeCtxInfo (o : Nat) : Option RegInfo :=
  if o = 0x00 then some (rw 0xFF0003 0x400000)
  else if o = 0x08 ∨ o = 0x10 then some (w1c 0x700)
  else if o = 0x20 then some (rw 0xFF 0)
  else if o = 0x28 then some (rc m32)
  else if o = 0x40 then some { ro 0 with w1s := 2 }
  else if o = 0x48 then some (rw m64 0)
  else if o = 0x18 ∨ o = 0x30 ∨ o = 0x50 ∨ (o % 8 = 0 ∧ 0x80 ≤ o ∧ o < 0xC0) then some (ro 0) else none

/-- QE_ registers of one ring, at their offset from 0x800 + 0x20n (R417). -/
def qeRingInfo (o : Nat) : Option RegInfo :=
  if o = 0x00 then some (rw 0xFFFFFFFFFFFFFFC0 0)
  else if o = 0x08 then some (rw 0xFF03FF 0x48)
  else if o = 0x10 then some (rw 0xFFFF0000 0)
  else if o = 0x18 then some (w1c 4) else none

/-- QE_ (R417). -/
def qeInfo (o : Nat) : Option RegInfo :=
  if o = 0x000 then some { rw 0x10000 0 with w1c := 0x300 }
  else if o = 0x008 then some (rw m32 0x61A8)
  else if o = 0x020 then some (rw 0xFF 0)
  else if 0x028 ≤ o ∧ o ≤ 0x040 ∧ o % 8 = 0 then some (rc m32)
  else if o = 0x010 ∨ o = 0x018 ∨ o = 0x048 ∨ (0x080 ≤ o ∧ o < 0x0C0 ∧ o % 8 = 0) then some (ro 0)
  else if 0x200 ≤ o ∧ o < 0x400 then qeCtxInfo (o % 0x100)
  else if 0x800 ≤ o ∧ o < 0xA00 then qeRingInfo (o % 0x20) else none

/-- RTR_ (R353). -/
def rtrInfo (o : Nat) : Option RegInfo :=
  if o < 0x020 ∧ o % 8 = 0 then some (rw 0x7FF 0)
  else if o = 0x020 then some (rw 0x1FFF 0)
  else if o = 0x028 then some (rw 0xFFFF 0x64)
  else if o = 0x030 then some (rw 0xFFFF 0x7D)
  else if o = 0x038 then some (rw 0xF 0)
  else if 0x040 ≤ o ∧ o < 0x060 ∧ o % 8 = 0 then some (rw 0x1FFF 0)
  else if o = 0x060 then some (ro 0)
  else if 0x070 ≤ o ∧ o ≤ 0x0B0 ∧ o % 8 = 0 then some (rc m32)
  else if 0x800 ≤ o ∧ o < 0x1000 then
    if o % 0x20 = 0 then some (rw 0x3F 0)
    else if o % 0x20 = 8 ∨ o % 0x20 = 0x10 then some (rw 0x7FFFFFFF7FFFFFFF 0) else none
  else if 0x1000 ≤ o ∧ o < 0x1200 then
    if o % 0x10 = 0 then some (rw 0xFFFF007FFFFF 0x6400000000) else if o % 0x10 = 8 then some (ro 0) else none
  else if 0x8000 ≤ o ∧ o % 8 = 0 then some (rw 0x3FFF3FFF 0) else none

/-- LNK_ (R380). -/
def lnkInfo (o : Nat) : Option RegInfo :=
  if o = 0 then some (rw 0x1F1 0)
  else if 0x100 ≤ o ∧ o < 0x500 then
    let q := o % 0x100
    if q = 0x00 then some (rw 0x3 1)
    else if q = 0x08 ∨ q = 0x10 then some (ro 0)
    else if q = 0x18 then some (rw 0xFF00FFFFFF 0x1900004004)
    else if q = 0x20 then some (rw 0xFFFFF 0x83205)
    else if q = 0x28 then some (w1c 0x1F)
    else if q = 0x30 then some (rw m32 0x100000)
    else if 0x38 ≤ q ∧ q < 0xB0 ∧ q % 8 = 0 then some (rc m32) else none
  else none

/-- LM_ (R214). -/
def lmInfo (o : Nat) : Option RegInfo :=
  if o = 0x000 then some (rw 0xFFFFFF 0x223632)
  else if o = 0x008 then some (ro 0x2C)
  else if o = 0x010 ∨ o = 0x018 then some (rw 0x1FF 0x100)
  else if o = 0x020 then some (ro 0)
  else if o = 0x028 then some (w1c 3)
  else if o = 0x030 ∨ o = 0x038 then some (rc m32)
  else if o = 0x040 then some (w1c 0x100000000)
  else if o = 0x048 then some (rw 0xFFFF 0x19)
  else if 0x100 ≤ o ∧ o < 0x200 ∧ o % 8 = 0 then some (rw 0x7F7F7F7F7F7F7F7F 0x0303030303030303) else none

/-- OBS_ (R488, R509). -/
def obsInfo (o : Nat) : Option RegInfo :=
  if o = 0x000 then some ⟨0x3DFF03, 0, 0x80000000, 0, 0, 0x310000, 0⟩
  else if o = 0x008 then some (w1c 1)
  else if o = 0x010 ∨ o = 0x040 then some (ro 0)
  else if o = 0x018 ∨ o = 0x020 ∨ o = 0x028 then some (rc m32)
  else if o = 0x030 then some (rw 0xFFFFF00003FFF 0)
  else if o = 0x038 then some (rw 0xFF 0)
  else if o = 0x048 then some (w1c 0xFF)
  else if 0x080 ≤ o ∧ o < 0x200 ∧ o % 8 = 0 then some (ro 0)
  else if 0x200 ≤ o ∧ o < 0x400 then
    if o % 0x20 = 0 then some { rw 0x7FF 0 with w1c := 0x800 }
    else if o % 0x20 = 8 then some (rw 0xFFFFFFFFFFFF 0) else none
  else if 0x400 ≤ o ∧ o < 0x1400 then
    let q := o % 0x200
    if q = 0x00 then some (rw 0xFFFF00FF07FD 0)
    else if q = 0x08 ∨ q = 0x10 then some (rw m64 0)
    else if q = 0x18 then some (ro 0x7FFFFFFFFFFFFFFF)
    else if q = 0x20 then some (ro 0x8000000000000000)
    else if q = 0x28 ∨ q = 0x30 then some (ro 0)
    else if q = 0x38 then some (rc m32)
    else if 0x100 ≤ q ∧ q < 0x180 ∧ q % 8 = 0 then some (ro 0) else none
  else none

/-- SEC_ (R180, R467). -/
def secInfo (o : Nat) : Option RegInfo :=
  if o = 0x000 then some { ro 0 with w1s := 1 }
  else if o = 0x018 then some { rw 1 0 with rwl := 1 }
  else if 0x040 ≤ o ∧ o < 0x0B0 ∧ o % 8 = 0 then some (wo m64)
  else if 0x100 ≤ o ∧ o < 0x120 ∧ o % 8 = 0 then some (wo m64)
  else if o = 0x120 then some { rw 2 0 with rwl := 2 }
  else if o = 0x138 then some (rc m32)
  else if o = 0x008 ∨ o = 0x010 ∨ o = 0x020 ∨ o = 0x128 ∨ o = 0x130 then some (ro 0)
  else if 0x200 ≤ o ∧ o < 0x2C0 ∧ o % 8 = 0 then some (ro 0) else none

/-- FLT_ (R473). -/
def fltInfo (o : Nat) : Option RegInfo :=
  if o = 0x000 then some (w1c 0x30000)
  else if o = 0x008 then some (rw 0x31F 0)
  else if o = 0x010 then some (rw 0x3FFFFFF 0)
  else if o = 0x020 ∨ o = 0x030 then some (rc m32)
  else if o = 0x018 ∨ o = 0x028 ∨ (0x040 ≤ o ∧ o ≤ 0x068 ∧ o % 8 = 0) then some (ro 0)
  else if 0x100 ≤ o ∧ o < 0x500 ∧ o % 8 = 0 then
    if o % 0x20 = 0 then some (w1c 1) else some (ro 0)
  else none

/-- The register at an offset from 0x01_0000_0000; none where no register is defined (R31, R507).
DEDUCED (assumption 14). -/
def regInfo (off : Nat) : Option RegInfo :=
  let o := off % 0x10000
  match off / 0x10000 with
  | 0 => idInfo o
  | 1 => spnInfo o
  | 2 => qeInfo o
  | 3 => rtrInfo o
  | 4 => lnkInfo o
  | 5 => lmInfo o
  | 8 => obsInfo o
  | 9 => secInfo o
  | 10 => fltInfo o
  | _ => none

/-- The reset value of the word at an offset. -/
def regReset (off : Nat) : Word :=
  match regInfo off with
  | some i => BitVec.ofNat 64 i.reset
  | none => 0

/-! ### Named fields -/

/-- A field of a control-space register: its offset from 0x01_0000_0000, its low bit and its width. -/
structure Fld where
  off : Nat
  lo : Nat
  w : Nat
  deriving DecidableEq, Repr

/-- The whole stored word of a register. -/
def State.reg (s : State) (off : Nat) : Word := tget (regReset off) s.ctrl off

/-- Store a whole word. -/
def State.setReg (s : State) (off : Nat) (v : Word) : State :=
  { s with ctrl := tput (regReset off) s.ctrl off v }

/-- The value of a field. -/
def State.g (s : State) (f : Fld) : Nat := bits (s.reg f.off).toNat f.lo f.w

/-- Hardware sets a field. -/
def State.put (s : State) (f : Fld) (v : Nat) : State :=
  s.setReg f.off (BitVec.ofNat 64 (setBits (s.reg f.off).toNat f.lo f.w v))

/-- Is a one-bit field set? -/
def State.is (s : State) (f : Fld) : Bool := s.g f = 1

/-- A counter that stops at its largest value gains `n`. -/
def State.sat (s : State) (f : Fld) (n : Nat) : State :=
  s.put f (min (s.g f + n) (2 ^ f.w - 1))

/-- Hardware sets a W1C bit of the always-on domain: it stays set against a write of 1 in the same AON tick (R18).
DEDUCED (assumption 76). -/
def State.hwSet (s : State) (f : Fld) : State :=
  { s.put f 1 with up := { s.up with aonSet := tput 0 s.up.aonSet f.off (setBits (tget 0 s.up.aonSet f.off) f.lo 1 1) } }

/-- An RC counter of the always-on domain gains `n`, which a read in the same AON tick neither returns nor clears (R18).
DEDUCED (assumption 76). -/
def State.hwAdd (s : State) (f : Fld) (n : Nat) : State :=
  let d := (s.sat f n).g f - s.g f
  { s.sat f n with up := { s.up with aonAdd := tput 0 s.up.aonAdd f.off (tget 0 s.up.aonAdd f.off + d * 2 ^ f.lo) } }

namespace F
def descSel : Fld := ⟨0x20, 0, 4⟩
def pmN : Fld := ⟨0x28, 0, 2⟩
def pmE : Fld := ⟨0x28, 2, 2⟩
def pmS : Fld := ⟨0x28, 4, 2⟩
def pmW : Fld := ⟨0x28, 6, 2⟩
def hint : Fld := ⟨0x28, 8, 11⟩
def coordX : Fld := ⟨0x30, 0, 5⟩
def coordY : Fld := ⟨0x30, 5, 5⟩
def node : Fld := ⟨0x30, 0, 10⟩
def coordValid : Fld := ⟨0x30, 10, 1⟩
def die : Fld := ⟨0x30, 16, 12⟩
def dieValid : Fld := ⟨0x30, 28, 1⟩
def dieW : Fld := ⟨0x30, 32, 6⟩
def dieH : Fld := ⟨0x30, 40, 6⟩
def stage : Fld := ⟨0x38, 0, 4⟩
def fuseOk : Fld := ⟨0x38, 8, 1⟩
def memReady : Fld := ⟨0x38, 9, 1⟩
def suFault : Fld := ⟨0x40, 0, 12⟩
def repairUsed (m : Nat) : Fld := ⟨0x48, 8 * m, 5⟩
def earlyDrop : Fld := ⟨0x50, 0, 32⟩
def bootBase : Fld := ⟨0x58, 0, 8⟩
def bootLen : Fld := ⟨0x60, 0, 23⟩
def oppReq : Fld := ⟨0x10000, 0, 3⟩
def oppCur : Fld := ⟨0x10000, 4, 3⟩
def thCeil : Fld := ⟨0x10000, 8, 3⟩
def dbCeil : Fld := ⟨0x10000, 12, 3⟩
def oppAuto : Fld := ⟨0x10000, 16, 1⟩
def oppBusy : Fld := ⟨0x10000, 17, 1⟩
def floor : Fld := ⟨0x10000, 18, 1⟩
def n2Dwell : Fld := ⟨0x10008, 0, 16⟩
def maxAuto : Fld := ⟨0x10008, 16, 2⟩
def meshHold : Fld := ⟨0x10008, 24, 8⟩
def psCmd : Fld := ⟨0x10010, 0, 3⟩
def psPend : Fld := ⟨0x10010, 8, 1⟩
def psState : Fld := ⟨0x10018, 0, 3⟩
def psSrc : Fld := ⟨0x10018, 8, 4⟩
def wakeDb : Fld := ⟨0x10020, 0, 1⟩
def wakeMsg : Fld := ⟨0x10020, 1, 1⟩
def wakeMem : Fld := ⟨0x10020, 2, 1⟩
def wakeCmp : Fld := ⟨0x10020, 3, 1⟩
def ltime : Fld := ⟨0x10038, 0, 64⟩
def epoch : Fld := ⟨0x10040, 0, 32⟩
def fill : Fld := ⟨0x10048, 0, 16⟩
def cap : Fld := ⟨0x10050, 0, 32⟩
def debtMax : Fld := ⟨0x10058, 0, 32⟩
def bucket : Fld := ⟨0x10060, 0, 56⟩
def resv : Fld := ⟨0x10068, 0, 56⟩
def bGen : Fld := ⟨0x10070, 0, 16⟩
def bGenValid : Fld := ⟨0x10070, 16, 1⟩
def bSrc : Fld := ⟨0x10078, 0, 22⟩
def bSrcValid : Fld := ⟨0x10078, 22, 1⟩
def bRej : Fld := ⟨0x10080, 0, 32⟩
def age : Fld := ⟨0x10088, 0, 32⟩
def defCls : Fld := ⟨0x10088, 32, 2⟩
def epochE : Fld := ⟨0x10090, 0, 48⟩
def energy : Fld := ⟨0x10098, 0, 64⟩
def debtE : Fld := ⟨0x100A0, 0, 48⟩
def debtCnt : Fld := ⟨0x100A8, 0, 32⟩
def soft : Fld := ⟨0x100B0, 0, 12⟩
def hard : Fld := ⟨0x100B0, 16, 12⟩
def trip : Fld := ⟨0x100B0, 32, 12⟩
def t0 : Fld := ⟨0x100B8, 0, 12⟩
def t1 : Fld := ⟨0x100B8, 16, 12⟩
def tMax : Fld := ⟨0x100B8, 32, 12⟩
def vSensed : Fld := ⟨0x100C0, 0, 10⟩
def vTarget : Fld := ⟨0x100C0, 16, 10⟩
def droopTh : Fld := ⟨0x100C8, 0, 8⟩
def droopCnt : Fld := ⟨0x100D0, 0, 32⟩
def hold : Fld := ⟨0x100D8, 0, 16⟩
/-- SPN_EVT: SOFT, HARD, FLOOR, FLOORX, DEBT, QUOTA, BUDGET, EPOCH, SENSOR from bit 0 up. -/
def spnEvt (i : Nat) : Fld := ⟨0x100E0, i, 1⟩
def spnEvts : Fld := ⟨0x100E0, 0, 9⟩
def spnEvCtx : Fld := ⟨0x100E8, 0, 1⟩
def spnEvEn : Fld := ⟨0x100E8, 8, 9⟩
def spnLock : Fld := ⟨0x100F0, 0, 1⟩
def cmpVal (i : Nat) : Fld := ⟨0x10100 + 0x10 * i, 0, 64⟩
def cmpEn (i : Nat) : Fld := ⟨0x10108 + 0x10 * i, 0, 1⟩
def cmpCtx (i : Nat) : Fld := ⟨0x10108 + 0x10 * i, 1, 1⟩
def cmpWake (i : Nat) : Fld := ⟨0x10108 + 0x10 * i, 2, 1⟩
def cmpPeriod (i : Nat) : Fld := ⟨0x10108 + 0x10 * i, 32, 32⟩
def cmpHit (i : Nat) : Fld := ⟨0x10140, i, 1⟩
def cmpMiss (i : Nat) : Fld := ⟨0x10140, 8 + 8 * i, 8⟩
def ringLevel (n : Nat) : Fld := ⟨0x10200 + 8 * n, 0, 40⟩
def ringWait (n : Nat) : Fld := ⟨0x10200 + 8 * n, 40, 24⟩
def resumePc : Fld := ⟨0x10030, 2, 62⟩
def dbOvr : Fld := ⟨0x20000, 8, 1⟩
def dbStale : Fld := ⟨0x20000, 9, 1⟩
def dbEvCtx : Fld := ⟨0x20000, 16, 1⟩
def staleTicks : Fld := ⟨0x20008, 0, 32⟩
def mboxReady : Fld := ⟨0x20010, 0, 8⟩
def mboxOwn : Fld := ⟨0x20020, 0, 8⟩
def mboxBusy : Fld := ⟨0x20028, 0, 32⟩
def dbStaleCnt : Fld := ⟨0x20030, 0, 32⟩
def refCnt : Fld := ⟨0x20038, 0, 32⟩
def plyOrph : Fld := ⟨0x20040, 0, 32⟩
def mbox (i : Nat) : Fld := ⟨0x20080 + 8 * i, 0, 64⟩
/-- Offset of a per-context QE_ register. -/
def qc (c : Nat) (o : Nat) : Nat := 0x20200 + 0x100 * c + o
def imqEn (c : Nat) : Fld := ⟨qc c 0, 0, 1⟩
def imqHostOnly (c : Nat) : Fld := ⟨qc c 0, 1, 1⟩
def imqLim (c : Nat) : Fld := ⟨qc c 0, 16, 8⟩
def imqOvr (c : Nat) : Fld := ⟨qc c 8, 8, 1⟩
def imqUdr (c : Nat) : Fld := ⟨qc c 8, 9, 1⟩
def imqStale (c : Nat) : Fld := ⟨qc c 8, 10, 1⟩
def cqOvr (c : Nat) : Fld := ⟨qc c 0x10, 8, 1⟩
def cqUdr (c : Nat) : Fld := ⟨qc c 0x10, 9, 1⟩
def cqStale (c : Nat) : Fld := ⟨qc c 0x10, 10, 1⟩
def evtEn (c : Nat) : Fld := ⟨qc c 0x20, 0, 8⟩
def sendDrop (c : Nat) : Fld := ⟨qc c 0x28, 0, 32⟩
def sendSeq (c : Nat) : Fld := ⟨qc c 0x30, 0, 16⟩
def sendFenced (c : Nat) : Fld := ⟨qc c 0x30, 16, 1⟩
def sendNode (c : Nat) : Fld := ⟨qc c 0x30, 32, 22⟩
def kFull (c : Nat) : Fld := ⟨qc c 0x40, 0, 1⟩
def kTaken (c : Nat) : Fld := ⟨qc c 0x40, 1, 1⟩
def kExpired (c : Nat) : Fld := ⟨qc c 0x40, 2, 1⟩
def kRing (c : Nat) : Fld := ⟨qc c 0x40, 4, 4⟩
def kIndex (c : Nat) : Fld := ⟨qc c 0x40, 16, 16⟩
def kResult (c : Nat) : Fld := ⟨qc c 0x48, 0, 64⟩
def kDesc (c w : Nat) : Fld := ⟨qc c (0x80 + 8 * w), 0, 64⟩
/-- Offset of a per-ring QE_ register. -/
def qr (n : Nat) (o : Nat) : Nat := 0x20800 + 0x20 * n + o
def rBase (n : Nat) : Fld := ⟨qr n 0, 6, 58⟩
def rEn (n : Nat) : Fld := ⟨qr n 8, 0, 1⟩
def rCtx (n : Nat) : Fld := ⟨qr n 8, 1, 1⟩
def rClass (n : Nat) : Fld := ⟨qr n 8, 2, 2⟩
def rLog (n : Nat) : Fld := ⟨qr n 8, 4, 4⟩
def rDbPerm (n : Nat) : Fld := ⟨qr n 8, 8, 2⟩
def rShare (n : Nat) : Fld := ⟨qr n 8, 16, 8⟩
def rHead (n : Nat) : Fld := ⟨qr n 0x10, 0, 16⟩
def rTail (n : Nat) : Fld := ⟨qr n 0x10, 16, 16⟩
def rBusy (n : Nat) : Fld := ⟨qr n 0x18, 0, 1⟩
def rHeld (n : Nat) : Fld := ⟨qr n 0x18, 1, 1⟩
def rFerr (n : Nat) : Fld := ⟨qr n 0x18, 2, 1⟩
def rLast (n : Nat) : Fld := ⟨qr n 0x18, 8, 8⟩
def gwNode (n : Nat) : Fld := ⟨0x30000 + 8 * n, 0, 10⟩
def gwValid (n : Nat) : Fld := ⟨0x30000 + 8 * n, 10, 1⟩
def xgwNode : Fld := ⟨0x30020, 0, 10⟩
def xgwPort : Fld := ⟨0x30020, 10, 2⟩
def xgwValid : Fld := ⟨0x30020, 12, 1⟩
def mcHold : Fld := ⟨0x30028, 0, 16⟩
def dupWin : Fld := ⟨0x30030, 0, 16⟩
def portFail : Fld := ⟨0x30038, 0, 4⟩
def detPort (p : Nat) : Fld := ⟨0x30040 + 8 * p, 0, 2⟩
def detX (p : Nat) : Fld := ⟨0x30040 + 8 * p, 2, 5⟩
def detY (p : Nat) : Fld := ⟨0x30040 + 8 * p, 7, 5⟩
def detValid (p : Nat) : Fld := ⟨0x30040 + 8 * p, 12, 1⟩
def rtrSeq : Fld := ⟨0x30060, 0, 16⟩
def dupCnt : Fld := ⟨0x30070, 0, 32⟩
def dupOvf : Fld := ⟨0x30078, 0, 32⟩
def mcDrop : Fld := ⟨0x30080, 0, 32⟩
def plyLate : Fld := ⟨0x30088, 0, 32⟩
def hopDrop : Fld := ⟨0x30090, 0, 32⟩
def badPkt : Fld := ⟨0x30098, 0, 32⟩
def unreach : Fld := ⟨0x300A0, 0, 32⟩
def stray : Fld := ⟨0x300A8, 0, 32⟩
def flitCorr : Fld := ⟨0x300B0, 0, 32⟩
def mcgPorts (g : Nat) : Fld := ⟨0x30800 + 0x20 * g, 0, 5⟩
def mcgValid (g : Nat) : Fld := ⟨0x30800 + 0x20 * g, 5, 1⟩
/-- RECT and COUNT of the subtree below port p: N, E in word 1, S, W in word 2. -/
def mcgRect (g p : Nat) : Fld := ⟨0x30808 + 0x20 * g + 8 * (p / 2), 32 * (p % 2), 20⟩
def mcgCount (g p : Nat) : Fld := ⟨0x30808 + 0x20 * g + 8 * (p / 2), 32 * (p % 2) + 20, 11⟩
def plyCid (i : Nat) : Fld := ⟨0x31000 + 0x10 * i, 0, 12⟩
def plyIn (i : Nat) : Fld := ⟨0x31000 + 0x10 * i, 12, 5⟩
def plyOut (i : Nat) : Fld := ⟨0x31000 + 0x10 * i, 17, 3⟩
def plyDt (i : Nat) : Fld := ⟨0x31000 + 0x10 * i, 20, 2⟩
def plyValid (i : Nat) : Fld := ⟨0x31000 + 0x10 * i, 22, 1⟩
def plyTimeout (i : Nat) : Fld := ⟨0x31000 + 0x10 * i, 32, 16⟩
def plyLast (i : Nat) : Fld := ⟨0x31008 + 0x10 * i, 0, 16⟩
def plyLastV (i : Nat) : Fld := ⟨0x31008 + 0x10 * i, 16, 1⟩
def drtNode (d h : Nat) : Fld := ⟨0x38000 + 8 * d, 16 * h, 10⟩
def drtPort (d h : Nat) : Fld := ⟨0x38000 + 8 * d, 16 * h + 10, 2⟩
def drtValid (d h : Nat) : Fld := ⟨0x38000 + 8 * d, 16 * h + 12, 1⟩
def drtEsc (d h : Nat) : Fld := ⟨0x38000 + 8 * d, 16 * h + 13, 1⟩
def lnkEvCtx : Fld := ⟨0x40000, 0, 1⟩
def lnkEvEn : Fld := ⟨0x40000, 4, 5⟩
/-- Offset of a LNK_ register of port p. -/
def lk (p : Nat) (o : Nat) : Nat := 0x40100 + 0x100 * p + o
def lEn (p : Nat) : Fld := ⟨lk p 0, 0, 1⟩
def lRate (p : Nat) : Fld := ⟨lk p 0, 1, 1⟩
def lState (p : Nat) : Fld := ⟨lk p 8, 0, 4⟩
def lInsvc (p : Nat) : Fld := ⟨lk p 8, 4, 1⟩
def lVer (p : Nat) : Fld := ⟨lk p 8, 5, 3⟩
def lMask (p : Nat) : Fld := ⟨lk p 8, 8, 4⟩
def lHealthy (p : Nat) : Fld := ⟨lk p 8, 12, 4⟩
def lPl128 (p : Nat) : Fld := ⟨lk p 8, 16, 1⟩
def lPeerDie (p : Nat) : Fld := ⟨lk p 0x10, 0, 12⟩
def lPeerNode (p : Nat) : Fld := ⟨lk p 0x10, 16, 10⟩
def lPeerPort (p : Nat) : Fld := ⟨lk p 0x10, 28, 2⟩
def lPeerValid (p : Nat) : Fld := ⟨lk p 0x10, 31, 1⟩
def lUncTh (p : Nat) : Fld := ⟨lk p 0x18, 0, 8⟩
def lCrcTh (p : Nat) : Fld := ⟨lk p 0x18, 8, 16⟩
def lWin (p : Nat) : Fld := ⟨lk p 0x18, 32, 8⟩
def lRepTo (p : Nat) : Fld := ⟨lk p 0x20, 0, 8⟩
def lRetTo (p : Nat) : Fld := ⟨lk p 0x20, 8, 8⟩
def lRepMax (p : Nat) : Fld := ⟨lk p 0x20, 16, 4⟩
/-- LNK_EVT: UP, DOWN, RETIRE, WIDTH, FAIL from bit 0 up. -/
def lEvt (p i : Nat) : Fld := ⟨lk p 0x28, i, 1⟩
def lEvts (p : Nat) : Fld := ⟨lk p 0x28, 0, 5⟩
def lCorTh (p : Nat) : Fld := ⟨lk p 0x30, 0, 32⟩
def lTxData (p : Nat) : Fld := ⟨lk p 0x38, 0, 32⟩
def lRxData (p : Nat) : Fld := ⟨lk p 0x40, 0, 32⟩
def lCrcErr (p : Nat) : Fld := ⟨lk p 0x48, 0, 32⟩
def lNak (p : Nat) : Fld := ⟨lk p 0x50, 0, 32⟩
def lReplay (p : Nat) : Fld := ⟨lk p 0x58, 0, 32⟩
def lReinj (p : Nat) : Fld := ⟨lk p 0x60, 0, 32⟩
def lRetrain (p : Nat) : Fld := ⟨lk p 0x68, 0, 32⟩
def lFecCor (p l : Nat) : Fld := ⟨lk p (0x70 + 8 * l), 0, 32⟩
def lFecUnc (p l : Nat) : Fld := ⟨lk p (0x90 + 8 * l), 0, 32⟩
/-- Weights of LM_ARBW: 0 CORE, 1 VECTOR, 2 MATRIX, 3 DMA, 4 ROUTER, 5 CHEST. -/
def arbW (i : Nat) : Fld := ⟨0x50000, 4 * i, 4⟩
def quota (c : Nat) : Fld := ⟨0x50010 + 8 * c, 0, 9⟩
def denied (c : Nat) : Fld := ⟨0x50028, c, 1⟩
def eccCorr : Fld := ⟨0x50030, 0, 32⟩
def eccUnc : Fld := ⟨0x50038, 0, 32⟩
def eccWord : Fld := ⟨0x50040, 3, 19⟩
def eccValid : Fld := ⟨0x50040, 32, 1⟩
def scrubPeriod : Fld := ⟨0x50048, 0, 16⟩
def scrubNext : Fld := ⟨0x50048, 16, 14⟩
def page (p : Nat) : Fld := ⟨0x50100 + 8 * (p / 8), 8 * (p % 8), 8⟩
def pageTag (p : Nat) : Fld := ⟨0x50100 + 8 * (p / 8), 8 * (p % 8), 2⟩
def pageRemote (p : Nat) : Fld := ⟨0x50100 + 8 * (p / 8), 8 * (p % 8) + 2, 2⟩
def pageHostOnly (p : Nat) : Fld := ⟨0x50100 + 8 * (p / 8), 8 * (p % 8) + 4, 1⟩
def pageSOnly (p : Nat) : Fld := ⟨0x50100 + 8 * (p / 8), 8 * (p % 8) + 5, 1⟩
def pageClaim (p : Nat) : Fld := ⟨0x50100 + 8 * (p / 8), 8 * (p % 8) + 6, 1⟩
def obsEvCtx : Fld := ⟨0x80000, 0, 1⟩
def obsEvFull : Fld := ⟨0x80000, 1, 1⟩
def obsEvMon : Fld := ⟨0x80000, 8, 8⟩
def obsScfg : Fld := ⟨0x80000, 16, 1⟩
def obsAccept : Fld := ⟨0x80000, 18, 2⟩
def ctxCap : Fld := ⟨0x80000, 20, 2⟩
def obsLock : Fld := ⟨0x80000, 31, 1⟩
def snapFull : Fld := ⟨0x80008, 0, 1⟩
def lastV : Fld := ⟨0x80008, 1, 1⟩
def lastMiss : Fld := ⟨0x80008, 16, 16⟩
def lastId : Fld := ⟨0x80008, 32, 16⟩
def capNum : Fld := ⟨0x80010, 0, 32⟩
def skeinMiss : Fld := ⟨0x80018, 0, 32⟩
def skeinDup : Fld := ⟨0x80020, 0, 32⟩
def skeinRej : Fld := ⟨0x80028, 0, 32⟩
def trigFlt : Fld := ⟨0x80030, 0, 4⟩
def trigMon : Fld := ⟨0x80030, 4, 8⟩
def trigBcast : Fld := ⟨0x80030, 12, 1⟩
def trigAll : Fld := ⟨0x80030, 13, 1⟩
def trigRect : Fld := ⟨0x80030, 32, 20⟩
def locBase : Fld := ⟨0x80038, 0, 8⟩
def locSeq : Fld := ⟨0x80038, 8, 8⟩
def monThr : Fld := ⟨0x80048, 0, 8⟩
def snap (w : Nat) : Fld := ⟨if w < 32 then 0x80100 + 8 * w else 0x80080 + 8 * (w - 32), 0, 64⟩
def pcEvent (j : Nat) : Fld := ⟨0x80200 + 0x20 * j, 0, 8⟩
def pcCtxF (j : Nat) : Fld := ⟨0x80200 + 0x20 * j, 8, 2⟩
def pcEn (j : Nat) : Fld := ⟨0x80200 + 0x20 * j, 10, 1⟩
def pcOvf (j : Nat) : Fld := ⟨0x80200 + 0x20 * j, 11, 1⟩
def pcVal (j : Nat) : Fld := ⟨0x80208 + 0x20 * j, 0, 48⟩
/-- Offset of a register of monitor i. -/
def mo (i : Nat) (o : Nat) : Nat := 0x80400 + 0x200 * i + o
def monEn (i : Nat) : Fld := ⟨mo i 0, 0, 1⟩
def monFrz (i : Nat) : Fld := ⟨mo i 0, 2, 1⟩
def monMode (i : Nat) : Fld := ⟨mo i 0, 3, 1⟩
def monThrEn (i : Nat) : Fld := ⟨mo i 0, 4, 1⟩
def monWsh (i : Nat) : Fld := ⟨mo i 0, 5, 6⟩
def monSrc (i : Nat) : Fld := ⟨mo i 0, 16, 8⟩
def monFilter (i : Nat) : Fld := ⟨mo i 0, 32, 16⟩
def monBase (i : Nat) : Fld := ⟨mo i 8, 0, 64⟩
def monThrV (i : Nat) : Fld := ⟨mo i 0x10, 0, 64⟩
def monMin (i : Nat) : Fld := ⟨mo i 0x18, 0, 64⟩
def monMax (i : Nat) : Fld := ⟨mo i 0x20, 0, 64⟩
def monCount (i : Nat) : Fld := ⟨mo i 0x28, 0, 48⟩
def monSum (i : Nat) : Fld := ⟨mo i 0x30, 0, 64⟩
def monDrop (i : Nat) : Fld := ⟨mo i 0x38, 0, 32⟩
def monBin (i k : Nat) : Fld := ⟨mo i (0x100 + 8 * (k / 2)), 32 * (k % 2), 32⟩
def secLock : Fld := ⟨0x90000, 0, 1⟩
def keyValid (c : Nat) : Fld := ⟨0x90008, c, 1⟩
def extBusy : Fld := ⟨0x90008, 8, 1⟩
def dbgEn : Fld := ⟨0x90018, 0, 1⟩
def key (c j : Nat) : Fld := ⟨0x90040 + 0x20 * c + 8 * j, 0, 64⟩
def extData (j : Nat) : Fld := ⟨0x90080 + 8 * j, 0, 64⟩
def fcKey (j : Nat) : Fld := ⟨0x90100 + 8 * j, 0, 64⟩
def fcKeyValid : Fld := ⟨0x90120, 0, 1⟩
def hostOk : Fld := ⟨0x90120, 1, 1⟩
def fcNonce : Fld := ⟨0x90130, 0, 64⟩
def fcRej : Fld := ⟨0x90138, 0, 32⟩
def meas (i j : Nat) : Fld := ⟨0x90200 + 0x30 * i + 8 * j, 0, 64⟩
def fenced : Fld := ⟨0xA0000, 0, 1⟩
def reason : Fld := ⟨0xA0000, 1, 3⟩
def rxOvr : Fld := ⟨0xA0000, 16, 1⟩
def rxUdr : Fld := ⟨0xA0000, 17, 1⟩
def fltEvCtx : Fld := ⟨0xA0008, 0, 1⟩
def fltEvEn : Fld := ⟨0xA0008, 1, 4⟩
def rxEn : Fld := ⟨0xA0008, 8, 1⟩
def rxEv : Fld := ⟨0xA0008, 9, 1⟩
def rptNode : Fld := ⟨0xA0010, 0, 22⟩
def rptHport : Fld := ⟨0xA0010, 22, 2⟩
def rptToHost : Fld := ⟨0xA0010, 24, 1⟩
def rptValid : Fld := ⟨0xA0010, 25, 1⟩
def fltNum : Fld := ⟨0xA0018, 0, 32⟩
def fltLost : Fld := ⟨0xA0020, 0, 32⟩
def l1Par : Fld := ⟨0xA0030, 0, 32⟩
/-- Word k of fault record i. -/
def rec (i k : Nat) : Fld := ⟨0xA0100 + 0x20 * i + 8 * k, 0, 64⟩
def recValid (i : Nat) : Fld := ⟨0xA0100 + 0x20 * i, 0, 1⟩
def recClass (i : Nat) : Fld := ⟨0xA0100 + 0x20 * i, 1, 3⟩
def recSource (i : Nat) : Fld := ⟨0xA0100 + 0x20 * i, 8, 8⟩
def recSent (i : Nat) : Fld := ⟨0xA0100 + 0x20 * i, 4, 1⟩
def recNum (i : Nat) : Fld := ⟨0xA0100 + 0x20 * i, 32, 32⟩
end F

end Sys2Proof.Machine
end

