-- ==== Sys2Proof/Machine/Ops.lean ====
section
/-! DEFINITION. The named operations over contexts, scalar registers, status, addresses, pages and counters
that every meaning uses. -/

namespace Sys2Proof

/-- 0 for C0, 1 for C1. -/
def CtxId.num : CtxId → Nat
  | .c0 => 0
  | .c1 => 1

/-- The context a bit names. -/
def CtxId.ofBool : Bool → CtxId
  | false => .c0
  | true => .c1

/-- The context a number names: its bit 0. -/
def CtxId.named (n : Nat) : CtxId := CtxId.ofBool (n % 2 = 1)

/-- The other context. -/
def CtxId.other : CtxId → CtxId
  | .c0 => .c1
  | .c1 => .c0

/-- N 0, E 1, S 2, W 3, L 4 (R317). -/
def Port.num : Port → Nat
  | .n => 0
  | .e => 1
  | .s => 2
  | .w => 3
  | .l => 4

/-- The port a code names; 4 and above name L. -/
def Port.named : Nat → Port
  | 0 => .n
  | 1 => .e
  | 2 => .s
  | 3 => .w
  | _ => .l

end Sys2Proof

namespace Sys2Proof.Machine

/-! ### Contexts -/

/-- The state of a context. -/
def State.ctx (s : State) : CtxId → Ctx
  | .c0 => s.core.c0
  | .c1 => s.core.c1

/-- Replace the state of a context. -/
def State.setCtx (s : State) : CtxId → Ctx → State
  | .c0, x => { s with core := { s.core with c0 := x } }
  | .c1, x => { s with core := { s.core with c1 := x } }

/-- The issuing context's state. -/
def State.cx (s : State) : Ctx := s.ctx s.core.cur

/-- Replace the issuing context's state. -/
def State.setCx (s : State) (x : Ctx) : State := s.setCtx s.core.cur x

/-! ### Scalar register names (R96, R97, R98, R102) -/

/-- Where a register number leads. -/
inductive Loc where
  | zero
  | g (i : Nat)
  | h (i : Nat)
  | k (i : Nat)
  | spareK (i : Nat)
  | spareF (i : Nat)
  | z (i : Nat)
  deriving DecidableEq, Repr

/-- The storage a 5-bit register number names in a context. -/
def Ctx.loc (x : Ctx) (r : BitVec 5) : Loc :=
  let i := r.toNat
  let w := x.cwp.toNat
  let up := (w + 1) % 8
  if x.fast then
    if i = 0 then .zero else if i < 4 then .g i else if i < 16 then .z i else .z (i - 16)
  else if i = 0 then .zero
  else if i < 16 then .g i
  else if i < 22 then .h (6 * (if x.spare then up else w) + (i - 16))
  else if i < 26 then (if x.spare then .spareK (i - 22) else .k (4 * w + (i - 22)))
  else if x.spare then .spareF (i - 26) else .h (6 * up + (i - 26))

/-- Read a place. -/
def Ctx.at (x : Ctx) : Loc → Word
  | .zero => 0
  | .g i => tget 0 x.g i
  | .h i => tget 0 x.h i
  | .k i => tget 0 x.k i
  | .spareK i => tget 0 x.spareK i
  | .spareF i => tget 0 x.spareF i
  | .z i => tget 0 x.zb i

/-- Write a place; a write to G0 is discarded (R97). -/
def Ctx.put (x : Ctx) (l : Loc) (v : Word) : Ctx :=
  match l with
  | .zero => x
  | .g i => { x with g := tput 0 x.g i v }
  | .h i => { x with h := tput 0 x.h i v }
  | .k i => { x with k := tput 0 x.k i v }
  | .spareK i => { x with spareK := tput 0 x.spareK i v }
  | .spareF i => { x with spareF := tput 0 x.spareF i v }
  | .z i => { x with zb := tput 0 x.zb i v }

/-- The value of a numbered register. -/
def Ctx.rd (x : Ctx) (r : BitVec 5) : Word := x.at (x.loc r)

/-- Write a numbered register. -/
def Ctx.wr (x : Ctx) (r : BitVec 5) (v : Word) : Ctx := x.put (x.loc r) v

/-- Write consecutive registers from `r` upward, lowest first. -/
def Ctx.wrs (x : Ctx) (r : Nat) : List Word → Ctx
  | [] => x
  | v :: t => Ctx.wrs (x.wr (BitVec.ofNat 5 r) v) (r + 1) t

/-- Read a register of the issuing context. -/
def State.r (s : State) (n : BitVec 5) : Word := s.cx.rd n

/-- Write a register of the issuing context. -/
def State.w (s : State) (n : BitVec 5) (v : Word) : State := s.setCx (s.cx.wr n v)

/-! ### PSTAT (R132) -/

/-- PSTAT bits [16:0] of a context. -/
def pstatNat (c : CtxId) (x : Ctx) : Nat :=
  x.pl.toNat + 4 * b2n x.fast + 8 * c.num + 16 * x.cwp.toNat + 128 * b2n x.spare + 256 * b2n x.n
    + 512 * b2n x.z + 1024 * b2n x.cf + 2048 * b2n x.v + 4096 * b2n x.p + 65536 * b2n x.ie

/-- Load every PSTAT field but CTX from bits [16:0] of a saved status. -/
def Ctx.setPstat (x : Ctx) (v : Nat) : Ctx :=
  { x with pl := BitVec.ofNat 2 v, fast := bit v 2, cwp := BitVec.ofNat 3 (bits v 4 3), spare := bit v 7,
           n := bit v 8, z := bit v 9, cf := bit v 10, v := bit v 11, p := bit v 12, ie := bit v 16 }

/-- Is WVALID bit `w mod 8` set? -/
def Ctx.live (x : Ctx) (w : Nat) : Bool := x.wvalid.getLsbD (w % 8)

/-- Set or clear WVALID bit `w mod 8`. -/
def Ctx.setLive (x : Ctx) (w : Nat) (b : Bool) : Ctx :=
  { x with wvalid := BitVec.ofNat 8 (setBits x.wvalid.toNat (w % 8) 1 (b2n b)) }

/-- RDEPTH (R104). -/
def Ctx.depth (x : Ctx) : Nat := x.reel.length

/-- The ring is full at the current window (R99). -/
def Ctx.ringFull (x : Ctx) : Bool := x.live (x.cwp.toNat + 2)

/-! ### The exposed multiplier (R112, R113) -/

/-- Take over what a producer still gives. -/
def Ctx.commit (x : Ctx) (p : Prod) : Ctx :=
  { x with mpl := p.lo.getD x.mpl, mph := p.hi.getD x.mph }

/-- Make every earlier producer visible. -/
def Ctx.flush (x : Ctx) : Ctx := { x.prods.foldl Ctx.commit x with prods := [] }

/-- One instruction of the context has gone by: producers three instructions back become visible. -/
def Ctx.age (x : Ctx) : Ctx :=
  let ps := x.prods.map fun p => { p with age := p.age + 1 }
  { (ps.filter fun p => 3 ≤ p.age).foldl Ctx.commit x with prods := ps.filter fun p => p.age < 3 }

/-! ### Identity and addresses (R29 to R32) -/

/-- The node's own die ID and node-in-die, as SRC holds them. -/
def State.self (s : State) : BitVec 22 := BitVec.ofNat 22 (s.g F.die * 1024 + s.g F.node)

/-- Bits [61:40] of a node-space address: die ID and node-in-die. -/
def nodeOf (a : Word) : Nat := bits a.toNat 40 22

/-- The offset of an address. -/
def offOf (a : Word) : Nat := bits a.toNat 0 40

/-- The fabric address of an offset in a node. -/
def nodeAddr (node : BitVec 22) (off : Nat) : Word := BitVec.ofNat 64 (node.toNat * 2 ^ 40 + off)

/-- The address of an ECC word of own local memory, in the form the access at `a` has (R32, R190). -/
def wordAddr (a : Word) (w : Nat) : Word := BitVec.ofNat 64 (a.toNat / 2 ^ 40 * 2 ^ 40 + 8 * w)

/-- What an access names. -/
inductive Place where
  /-- local memory below the Bench, by offset -/
  | lm (off : Nat)
  | bench (off : Nat)
  /-- control space, by its offset from 0x01_0000_0000 -/
  | ctrl (off : Nat)
  /-- another node -/
  | node (a : Word)
  | ext (a : Word)
  /-- refused under R31 -/
  | bad
  deriving DecidableEq, Repr

/-- First byte of the Bench (R30). -/
def benchBase : Nat := 0x3FFF00

/-- What an offset of the node's own space names (R30). -/
def placeOff (off : Nat) : Place :=
  if off < benchBase then .lm off
  else if off < 0x400000 then .bench off
  else if 0x0100000000 ≤ off ∧ off < 0x01000B0000 then .ctrl (off - 0x0100000000)
  else .bad

/-- Is an address one of the two forms of the node's own space (R32)? -/
def State.own (s : State) (a : Word) : Bool :=
  a.toNat < 2 ^ 40 || (a.toNat < 2 ^ 62 && nodeOf a = s.self.toNat)

/-- What an access of the core, the queue engine or the Chest engine names (R31, R32). -/
def State.place (s : State) (a : Word) : Place :=
  if a.toNat ≥ 2 ^ 63 then .ext a
  else if a.toNat ≥ 2 ^ 62 then .bad
  else if s.own a then placeOff (offOf a)
  else .node a

/-- Is an address outside the node? -/
def Place.remote : Place → Bool
  | .node _ => true
  | .ext _ => true
  | _ => false

/-- The local-memory offset of `n` bytes at `a`, when they lie in the node's own local memory below the Bench
in one of the two forms of R254. -/
def State.local? (s : State) (a : Word) (n : Nat) : Option Nat :=
  match s.place a with
  | .lm off => if off + n ≤ benchBase then some off else none
  | _ => none

/-! ### Pages (R193 to R196) -/

/-- The page of an offset. -/
def pageOf (off : Nat) : Nat := off / 0x4000

/-- May context `c` at level `pl` reach page `p` (R194)? -/
def State.pageOk (s : State) (c : CtxId) (pl : Nat) (p : Nat) : Bool :=
  let tag := s.g (F.pageTag p)
  if pl ≥ 2 then true
  else if tag = 3 then false
  else if tag = 2 ∨ tag = c.num then pl = 1 || !s.is (F.pageSOnly p)
  else false

/-- May it reach `n` bytes at an offset? -/
def State.rangeOk (s : State) (c : CtxId) (pl off n : Nat) : Bool :=
  (List.range (pageOf (off + n - 1) - pageOf off + 1)).all fun i => s.pageOk c pl (pageOf off + i)

/-- Does page `p` admit a remote operation (R195)? `op` is 1 for READ, 2 for a write, 3 for ATOMIC. -/
def State.remoteOk (s : State) (p op : Nat) (host : Bool) : Bool :=
  s.g (F.pageTag p) ≠ 3 && s.g (F.pageRemote p) ≥ op && (!s.is (F.pageHostOnly p) || host)

/-- Does every page of `n` bytes at an offset admit it? -/
def State.remoteRangeOk (s : State) (off n op : Nat) (host : Bool) : Bool :=
  (List.range (pageOf (off + n - 1) - pageOf off + 1)).all fun i => s.remoteOk (pageOf off + i) op host

/-- Pages whose TAG names context `c` (R201). -/
def State.held (s : State) (c : CtxId) : Nat :=
  ((List.range 256).filter fun p => s.g (F.pageTag p) = c.num).length

/-! ### Performance counters (R486) -/

/-- Counter `j` sees `n` events of `code`, of one context where the event is marked "ctx". -/
def State.perf1 (code n : Nat) (ctx : Option CtxId) (j : Nat) (s : State) : State :=
  if s.is (F.pcEn j) && s.g (F.pcEvent j) = code &&
      (match ctx with
       | none => true
       | some c => s.g (F.pcCtxF j) = 0 || s.g (F.pcCtxF j) = c.num + 1) then
    let v := s.g (F.pcVal j) + n
    let s := s.put (F.pcVal j) (v % 2 ^ 48)
    if v ≥ 2 ^ 48 then s.put (F.pcOvf j) 1 else s
  else s

/-- Activity counter `k` of R436 counts `n`. -/
def State.tally (s : State) (k n : Nat) : State :=
  if n = 0 then s else { s with act := tput 0 s.act k (tget 0 s.act k + n) }

/-- The activity counter of an event (R486), one for each context where the event is marked "ctx". DESIGN CHOICE (assumption 61). -/
def eventAct (code : Nat) : Option CtxId → Nat
  | none => code
  | some c => 0x100 * (c.num + 1) + code

/-- Activity counters of what R437 attributes apart: the DMA transfers and the flits injected by ring `n`'s engine, and the local-memory
transfers of a context's issue. -/
def ringXfers (n : Nat) : Nat := 0x400 + n
def ringFlits (n : Nat) : Nat := 0x410 + n
def issueXfers (c : CtxId) : Nat := 0x420 + c.num

/-- `n` events of `code` occur: the counters of R486 that are set to them, and the activity counter of R436. DEDUCED (assumption 59). -/
def State.perf (s : State) (code n : Nat) (ctx : Option CtxId) : State :=
  (forN 16 (State.perf1 code n ctx) s).tally (eventAct code ctx) n

/-! ### Levels, power and fence -/

/-- The node is fenced (R462). -/
def State.isFenced (s : State) : Bool := s.is F.fenced

/-- The power state (R26). -/
def State.power (s : State) : Nat := s.g F.psState

/-- The LDO gives the node-logic domain its voltage, in NODE_INIT too (R39, R80). -/
def State.domainOn (s : State) : Bool := s.spn.ldoOn

/-- The node-logic domain is powered: not N3, not N4, not off through a reset or a fence of REASON 2 or 3. -/
def State.nodeOn (s : State) : Bool :=
  s.g F.memReady = 1 && s.power < 3 && !(s.isFenced && (s.g F.reason = 2 || s.g F.reason = 3 || s.g F.reason = 5))

/-- The node-logic domain runs: powered, clocked, not fenced, not in N2. -/
def State.nodeRuns (s : State) : Bool := s.nodeOn && !s.isFenced && s.power < 2

/-- The node is in service (R340): in RUN and not fenced. DESIGN CHOICE (assumption 3). -/
def State.inRun (s : State) : Bool := s.g F.stage = 4

/-- The core comes to an instruction of the current context: RUN stage, not fenced, N0 or N1 left, RUN bit set
and nothing waited for (R162, R428). DESIGN CHOICE (assumption 3). -/
def State.mayIssue (s : State) : Bool :=
  s.inRun && s.nodeRuns && s.core.run.getLsbD s.core.cur.num && s.cx.wait = .run

/-- The core can issue it: no array has an entry that fails its parity (R458). DESIGN CHOICE (assumption 77). -/
def State.canIssue (s : State) : Bool := s.mayIssue && s.core.spoilt.isNone

/-- A fresh free value's index. -/
def State.tick (s : State) : State := { s with fresh := s.fresh + 1 }

end Sys2Proof.Machine
end

