-- ==== Sys2Proof/Machine/Packets.lean ====
section
/-! DEFINITION. Building packets and putting them on the router's L input (R320 to R323, R336 to R338). -/

namespace Sys2Proof.Machine

/-- STATUS codes (R323). -/
def stOk : BitVec 8 := 0
def stRefused : BitVec 8 := 1
def stData : BitVec 8 := 2
def stUnmapped : BitVec 8 := 3
def stAlign : BitVec 8 := 4
def stUnreachable : BitVec 8 := 5
def stMalformed : BitVec 8 := 6

/-- A header with every field zero. -/
def Packet.blank : Packet :=
  { ty := 0, host := false, xd := false, xcls := false, len := 0, hops := 0, status := 0, seq := 0, tag := 0,
    dst := 0, src := 0, sctx := false, shost := false, sport := 0, exitN := 0, exitP := 0, exitV := false,
    wpx := 0, wpy := 0, wpv := false, hport := 0, tohost := false, aux := 0, vc := 0, payload := [] }

/-- A packet of a type on a channel to an address. -/
def Packet.mk' (ty : BitVec 5) (vc : BitVec 2) (dst aux : Word) (tag : BitVec 16) (payload : List Byte) : Packet :=
  { Packet.blank with ty := ty, vc := vc, dst := dst, aux := aux, tag := tag, payload := payload,
                      len := BitVec.ofNat 9 payload.length }

/-- The flits of a packet (R320). -/
def flits (p : Packet) : Nat := if p.len.toNat ≤ 32 then 1 else 1 + (p.len.toNat + 63) / 64

/-- The 32 header bytes (R321). -/
def headerBytes (p : Packet) : List Byte :=
  toLe 8 (p.ty.toNat + 2 ^ 5 * b2n p.host + 2 ^ 6 * b2n p.xd + 2 ^ 7 * b2n p.xcls + 2 ^ 8 * p.len.toNat
      + 2 ^ 17 * p.hops.toNat + 2 ^ 24 * p.status.toNat + 2 ^ 32 * p.seq.toNat + 2 ^ 48 * p.tag.toNat)
    ++ toLe 8 p.dst.toNat
    ++ toLe 8 (p.src.toNat + 2 ^ 22 * b2n p.sctx + 2 ^ 23 * b2n p.shost + 2 ^ 24 * p.sport.toNat
      + 2 ^ 32 * p.exitN.toNat + 2 ^ 42 * p.exitP.toNat + 2 ^ 44 * b2n p.exitV + 2 ^ 45 * p.wpx.toNat
      + 2 ^ 50 * p.wpy.toNat + 2 ^ 55 * b2n p.wpv + 2 ^ 56 * p.hport.toNat + 2 ^ 58 * b2n p.tohost)
    ++ toLe 8 p.aux.toNat

/-- A flit as 64 bytes. -/
def flitBytes (f : BitVec 512) : List Byte := toLe 64 f.toNat

/-- 64 bytes, or fewer with zeros after them, as a flit. -/
def flitOf (l : List Byte) : BitVec 512 := BitVec.ofNat 512 (leNat l)

/-- The flits of a packet (R320). -/
def toFlits (p : Packet) : List (BitVec 512) :=
  if p.len.toNat ≤ 32 then [flitOf (headerBytes p ++ p.payload)]
  else flitOf (headerBytes p) ::
    ((List.range ((p.len.toNat + 63) / 64)).map fun i => flitOf ((p.payload.drop (64 * i)).take 64))

/-- Flits of the packet whose header flit this is. -/
def flitCount (h : BitVec 512) : Nat :=
  let n := bits h.toNat 8 9
  if n ≤ 32 then 1 else 1 + (n + 63) / 64

/-- The packet its flits spell, on channel `vc`. -/
def ofFlits (vc : BitVec 2) (l : List (BitVec 512)) : Packet :=
  match l with
  | [] => { Packet.blank with vc := vc }
  | h :: d =>
    let b := flitBytes h
    let w := field b 0 8
    let x := field b 16 8
    let n := bits w 8 9
    { ty := BitVec.ofNat 5 w, host := bit w 5, xd := bit w 6, xcls := bit w 7, len := BitVec.ofNat 9 n,
      hops := BitVec.ofNat 7 (bits w 17 7), status := BitVec.ofNat 8 (bits w 24 8),
      seq := BitVec.ofNat 16 (bits w 32 16), tag := BitVec.ofNat 16 (bits w 48 16),
      dst := BitVec.ofNat 64 (field b 8 8), src := BitVec.ofNat 22 x, sctx := bit x 22, shost := bit x 23,
      sport := BitVec.ofNat 2 (bits x 24 2), exitN := BitVec.ofNat 10 (bits x 32 10),
      exitP := BitVec.ofNat 2 (bits x 42 2), exitV := bit x 44, wpx := BitVec.ofNat 5 (bits x 45 5),
      wpy := BitVec.ofNat 5 (bits x 50 5), wpv := bit x 55, hport := BitVec.ofNat 2 (bits x 56 2),
      tohost := bit x 58, aux := BitVec.ofNat 64 (field b 24 8), vc := vc,
      payload := if n ≤ 32 then slice b 32 n else (d.flatMap flitBytes).take n }

/-- READ_DATA, WRITE_ACK, MSG_DROPPED and FENCED (R338). -/
def isResponse (ty : BitVec 5) : Bool := ty = 2 || ty = 4 || ty = 8 || ty = 9

/-- A WRITE that is a sink write: on VC1 with NOACK (R322). -/
def isSink (p : Packet) : Bool := p.ty = 3 && p.aux.getLsbD 0

/-- Requests of R322: READ, WRITE that is not a sink write, ATOMIC, DOORBELL, MSG and MC_WRITE. -/
def isRequest (p : Packet) : Bool :=
  p.ty = 1 || (p.ty = 3 && !isSink p) || p.ty = 5 || p.ty = 6 || p.ty = 7 || p.ty = 0x0B

/-- Requests that receive an error response: READ, ATOMIC, an acknowledged WRITE, MC_WRITE (R322). -/
def answersError (p : Packet) : Bool :=
  p.ty = 1 || p.ty = 5 || (p.ty = 3 && !isSink p) || p.ty = 0x0B

/-- Put a packet on the L input. It carries this node as SRC and no host mark (R337). A packet that is neither
a response nor an MC_DROP takes the next number of RTR_SEQ (R338). DEDUCED (assumption 9). -/
def State.inject (s : State) (p : Packet) : State :=
  let p := { p with src := s.self, host := false, shost := false }
  if isResponse p.ty || p.ty = 0x0C then
    { s with rtr := { s.rtr with inq := s.rtr.inq ++ [(Port.l, p, 0)] } }
  else
    let p := { p with seq := BitVec.ofNat 16 (s.g F.rtrSeq) }
    let s := s.put F.rtrSeq ((s.g F.rtrSeq + 1) % 2 ^ 16)
    { s with rtr := { s.rtr with inq := s.rtr.inq ++ [(Port.l, p, 0)] } }

/-- A response to a request: to its SRC at offset 0, with its TAG and SEQ, through the host bridge when the
request came from one (R336). -/
def respondTo (q : Packet) (ty : BitVec 5) (vc : BitVec 2) (status : BitVec 8) (aux : Word) (payload : List Byte) : Packet :=
  { Packet.mk' ty vc (nodeAddr q.src 0) aux q.tag payload with
      status := status, seq := q.seq, tohost := q.shost, hport := if q.shost then q.sport else 0 }

/-- The channel of a READ_DATA: VC3 when the READ asked for BULK (R322). -/
def dataVc (q : Packet) : BitVec 2 := if q.ty = 1 && q.aux.getLsbD 9 then 3 else 1

/-- Send a READ_DATA with data. -/
def State.sendData (s : State) (q : Packet) (d : List Byte) : State :=
  s.inject (respondTo q 2 (dataVc q) stOk 0 d)

/-- Send a WRITE_ACK with a status. -/
def State.sendAck (s : State) (q : Packet) (st : BitVec 8) : State := s.inject (respondTo q 4 1 st 0 [])

/-- Send the error response of a request; any other packet is discarded (R322). -/
def State.sendError (s : State) (q : Packet) (st : BitVec 8) : State :=
  if q.ty = 1 ∨ q.ty = 5 then s.inject (respondTo q 2 (dataVc q) st 0 [])
  else if answersError q then s.sendAck q st
  else s

/-- Send a FENCED response (R340). -/
def State.sendFenced (s : State) (q : Packet) : State :=
  s.inject (respondTo q 9 1 0 (BitVec.ofNat 64 (q.ty.toNat + q.seq.toNat * 2 ^ 16)) [])

/-- Send a MSG_DROPPED for a DOORBELL or a MSG (R386, R412). DEDUCED (assumption 25). -/
def State.sendDropped (s : State) (q : Packet) (dctx : Bool) : State :=
  s.inject (respondTo q 8 1 0 (BitVec.ofNat 64 (q.seq.toNat + b2n dctx * 2 ^ 16 + q.ty.toNat * 2 ^ 17)) [])

/-- The next request TAG of the node, none that an answer may still come for (R336, R392). -/
def State.takeTag (s : State) : BitVec 16 × State :=
  let used (t : BitVec 16) : Bool := s.qe.outst.any fun e => e.1 = t
  let t := (((List.range 1024).map fun i => s.qe.tags + BitVec.ofNat 16 i).find? fun t => !used t).getD s.qe.tags
  (t, { s with qe := { s.qe with tags := t + 1 } })

/-- Remember who waits for the answer to a TAG. -/
def State.await (s : State) (tag : BitVec 16) (o : Owner) : State :=
  { s with qe := { s.qe with outst := s.qe.outst ++ [(tag, o)] } }

/-- Who waits for a TAG. -/
def State.ownerOf (s : State) (tag : BitVec 16) : Option Owner :=
  (s.qe.outst.find? fun e => e.1 = tag).map fun e => e.2

/-- The answer to a TAG has come. -/
def State.settled (s : State) (tag : BitVec 16) : State :=
  { s with qe := { s.qe with outst := s.qe.outst.filter fun e => e.1 ≠ tag } }

/-- Inject a packet of the engine of ring `n`, whose flits its activity counter counts (R437). -/
def State.injectOf (s : State) (n : Nat) (p : Packet) : State := (s.tally (ringFlits n) (flits p)).inject p

/-- Inject a request on behalf of who waits for its answer. -/
def State.injectFor (s : State) (o : Owner) (p : Packet) : State :=
  match o with
  | .ring n => s.injectOf n p
  | _ => s.inject p

/-- Send a request to a node or to external space, under a fresh TAG. -/
def State.request (s : State) (o : Owner) (ty : BitVec 5) (vc : BitVec 2) (dst aux : Word) (sctx : CtxId)
    (payload : List Byte) : BitVec 16 × State :=
  let t := s.takeTag
  (t.1, (t.2.await t.1 o).injectFor o { Packet.mk' ty vc dst aux t.1 payload with sctx := sctx = .c1 })

/-- The bytes of RECT, x0, x1, y0, y1 (R341). -/
def rectX0 (r : Nat) : Nat := bits r 0 5
def rectX1 (r : Nat) : Nat := bits r 5 5
def rectY0 (r : Nat) : Nat := bits r 10 5
def rectY1 (r : Nat) : Nat := bits r 15 5

/-- RECT of four bounds. -/
def mkRect (x0 x1 y0 y1 : Nat) : Nat := x0 + 32 * x1 + 1024 * y0 + 32768 * y1

/-- Nodes of a rectangle. -/
def rectCount (r : Nat) : Nat := (rectX1 r - rectX0 r + 1) * (rectY1 r - rectY0 r + 1)

/-- The rectangle has ordered bounds and lies within the die (R341). -/
def State.rectOk (s : State) (r : Nat) : Bool :=
  rectX0 r ≤ rectX1 r && rectY0 r ≤ rectY1 r && rectX1 r < s.g F.dieW && rectY1 r < s.g F.dieH

/-- The node injects a SKEIN with a trigger ID (R474, R477). `aux` holds RECT and ALL. -/
def State.injectSkein (s : State) (id die aux : Nat) : State :=
  s.inject (Packet.mk' 0x0E 2 (BitVec.ofNat 64 (die * 2 ^ 50)) (BitVec.ofNat 64 aux) 0
    (toLe 8 id ++ toLe 8 (s.g F.ltime) ++ toLe 16 0))

end Sys2Proof.Machine
end

