-- ==== Sys2Proof/Machine/Obs.lean ====
section
/-! DEFINITION. The observability block: the snapshot bank, triggers and monitors (R474 to R485). -/

namespace Sys2Proof.Machine

/-- ACCSTAT (R296). -/
def accStat (a : AccSet) : Nat :=
  a.mode.toNat + 4 * b2n a.loss + 8 * b2n a.sat + 256 * a.acs.toNat

/-- QE_ENGBUSY: descriptors other than KERNEL in execution (R392). -/
def execIsKernel (e : Exec) : Bool := field e.desc 0 1 / 16 = 1

/-- A ring's engine state. -/
def State.ring (s : State) (n : Nat) : Ring := tget Ring.reset s.qe.rings n

/-- Replace a ring's engine state. -/
def State.setRing (s : State) (n : Nat) (r : Ring) : State :=
  { s with qe := { s.qe with rings := tput Ring.reset s.qe.rings n r } }

/-- Descriptors in the engines, 0 to 4 (R392, R417). -/
def State.engBusy (s : State) : Nat :=
  ((List.range 16).filter fun n =>
    match (s.ring n).exec with
    | some e => !execIsKernel e
    | none => false).length

/-- The flits of a held packet still in its buffer: a multicast's stay until every branch has gone (R343). -/
def heldFlits (h : Held) : Nat := if h.pkt.ty = 0x0B ∨ h.pkt.ty = 0x0E then flits h.pkt else flits h.pkt - h.sent

/-- The flits of the one packet whose copies are held from a buffer. -/
def heldMost (l : List Held) : Nat := l.foldl (fun m h => max m (heldFlits h)) 0

/-- Flits in the buffers of one input and channel, of routed packets, each once, of packets not yet routed and of Ply inputs that
wait (R481 word 14). -/
def State.bufFlits (s : State) (p v : Nat) : Nat :=
  let here (h : Held) : Bool := h.inp.num = p && h.pkt.vc.toNat = v
  let waits (l : List (Port × Packet × Nat)) : Nat :=
    ((l.filter fun e => e.1.num = p && e.2.1.vc.toNat = v).map fun e => flits e.2.1).foldl (· + ·) 0
  heldMost (s.rtr.held.filter fun h => here h && h.owed = 0) + heldMost (s.rtr.held.filter fun h => here h && h.owed ≠ 0)
    + waits s.rtr.inq + waits s.rtr.plyWait

/-- PORT_MODE of a port (R54); L counts as a neighbour. -/
def State.portMode (s : State) : Port → Nat
  | .n => s.g F.pmN
  | .e => s.g F.pmE
  | .s => s.g F.pmS
  | .w => s.g F.pmW
  | .l => 0

/-- The credits that a waiting packet needs at its output are there (R326, R354). DEDUCED (assumption 17). -/
def State.hasCredits (s : State) (h : Held) : Bool :=
  let c := tget 0 s.rtr.credits (4 * h.out.num + h.pkt.vc.toNat)
  if h.sent > 0 ∨ h.pkt.xcls ∨ s.portMode h.out = 3 then c ≥ 1 else c ≥ flits h.pkt + 3

/-- A multicast branch is held: a copy for an outward port that lacks its credits (R343). -/
def State.branchHeld (s : State) (h : Held) : Bool :=
  (h.pkt.ty = 0x0B || h.pkt.ty = 0x0E) && bits h.pkt.dst.toNat 50 12 = s.g F.die && h.out ≠ .l && !s.hasCredits h

/-- Distinct Ply inputs held (R347). -/
def State.plyUsed (s : State) : Nat := (s.rtr.ply.map fun i => i.inputs.length).foldl (· + ·) 0

/-- May group 0 or 1 be captured (R481)? -/
def State.ctxCaptured (s : State) (c : CtxId) : Bool := bit (s.g F.ctxCap) c.num && s.is F.dbgEn

/-- FLT_STAT.COUNT: valid records. -/
def State.faultCount (s : State) : Nat := ((List.range 32).filter fun i => s.is (F.recValid i)).length

/-- The power state and OPP word as SPN_OPP reads it, bits [18:0]. -/
def State.oppWord (s : State) : Nat := (s.reg 0x10000).toNat % 2 ^ 19

/-- Bank word `w` at a capture, for the words after the header words 0 to 3 (R481). DESIGN CHOICE (assumption 21). -/
def State.bankWord (s : State) (w : Nat) : Nat :=
  let on := s.domainOn
  let ctxWord (c : CtxId) (k : Nat) : Nat :=
    if on && s.ctxCaptured c then
      (if k = 0 then (s.ctx c).pc.toNat else pstatNat c (s.ctx c) + (s.ctx c).xnest.toNat * 2 ^ 32)
    else 0
  if w = 4 then ctxWord .c0 0 else if w = 5 then ctxWord .c0 1
  else if w = 6 then ctxWord .c1 0 else if w = 7 then ctxWord .c1 1
  else if w = 8 then
    if on then
      s.core.run.toNat + 4 * s.core.cur.num + 8 * b2n (s.cx.wait = .wfe) + 16 * (accStat s.mx.acc % 4096)
        + 2 ^ 16 * (s.core.mxDirty.toNat + 256 * b2n s.core.mxCfg) + 2 ^ 25 * s.core.mxOwner.num
        + 2 ^ 26 * s.mx.mode.toNat + 2 ^ 28 * (b2n s.core.chestOp.isSome + 2 * s.core.chestErr.toNat)
    else 0
  else if w = 9 then
    if on then s.held .c0 + 2 ^ 16 * s.held .c1 + 2 ^ 32 * (Config.portTurn s.fresh).val
        + 2 ^ 40 * (Config.presenting s.fresh).toNat else 0
  else if w = 10 then
    (List.range 16).foldl (fun a n => a + 2 ^ n * s.g (F.rBusy n) + 2 ^ (16 + n) * s.g (F.rHeld n)) 0
      + 2 ^ 32 * s.engBusy + 2 ^ 40 * s.qe.db.length
      + 2 ^ 48 * ((s.qe.imq.filter fun e => e.ctx = .c0).length % 256)
      + 2 ^ 56 * ((s.qe.imq.filter fun e => e.ctx = .c1).length % 256)
  else if w = 11 then s.oppWord + 2 ^ 20 * s.power + 2 ^ 32 * s.g F.tMax
  else if w = 12 then s.g F.bucket
  else if w = 13 then s.g F.resv
  else if w = 14 then
    (List.range 16).foldl (fun a k => a + 2 ^ (4 * k) * min 15 (s.bufFlits (k / 4) (k % 4))) 0
  else if w = 15 then
    (List.range 16).foldl (fun a k => a + 2 ^ (4 * k) * min 15 (tget 0 s.rtr.credits k)) 0
  else if w = 16 then
    s.g F.rtrSeq + 2 ^ 16 * s.plyUsed + 2 ^ 24 * min 15 (s.rtr.held.filter s.branchHeld).length
  else if w = 17 then
    (List.range 4).foldl (fun a p => a + 2 ^ (16 * p) * ((s.reg (F.lk p 8)).toNat % 65536)) 0
  else if w = 18 then
    ((s.reg 0xA0000).toNat % 2 ^ 18 + 256 * s.faultCount) + 2 ^ 32 * s.g F.fltNum
  else if 32 ≤ w ∧ w < 48 then s.g (F.pcVal (w - 32)) + 2 ^ 48 * s.g (F.pcEn (w - 32))
  else 0

/-- VALID of bank word 0: groups 0 to 9 captured (R481). -/
def State.bankValid (s : State) : Nat :=
  let on := s.domainOn
  b2n (on && s.ctxCaptured .c0) + 2 * b2n (on && s.ctxCaptured .c1) + 12 * b2n on + 0x3F0

/-- What a trigger says of itself: kind (R481), ID, HOPS, XD, SRC, HOST and, for a SKEIN, ORIGLTIME. -/
structure Trigger where
  kind : Nat
  id : Nat
  hops : Nat
  xd : Bool
  src : Nat
  host : Bool
  orig : Option Nat
  deriving DecidableEq, Repr

/-- A trigger of the node itself. DEDUCED (assumption 40). -/
def State.localTrigger (s : State) (kind id : Nat) : Trigger :=
  { kind := kind, id := id, hops := 0, xd := false, src := s.self.toNat, host := false, orig := none }

/-- Store every word of the bank (R479, R481); a monitor with FRZ stops (R485). -/
def State.capture (s : State) (t : Trigger) : State :=
  let w0 := t.id + 2 ^ 16 * t.kind + 2 ^ 19 * t.hops + 2 ^ 26 * b2n t.xd + 2 ^ 32 * s.bankValid
  let lt := s.g F.ltime
  let word (w : Nat) : Nat :=
    if w = 0 then w0 else if w = 1 then lt else if w = 2 then t.src + 2 ^ 22 * b2n t.host
    else if w = 3 then t.orig.getD lt else s.bankWord w
  let words := (List.range 48).map word
  let s' := forN 48 (fun w s => s.put (F.snap w) (words.getD w 0)) s
  let s' := forN 8 (fun i s => if s.is (F.monFrz i) then s.put (F.monEn i) 0 else s) s'
  (((s'.put F.snapFull 1).put F.lastId t.id).put F.lastV 1).put F.capNum ((s'.g F.capNum + 1) % 2 ^ 32) |>.tick

/-- Handle a trigger (R479). -/
def State.trigger (s : State) (t : Trigger) : State :=
  if s.is F.lastV && s.g F.lastId = t.id then s.sat F.skeinDup 1
  else if s.is F.snapFull then (s.sat F.skeinMiss 1).put F.lastMiss t.id
  else s.capture t

/-- A fault (kind 1) or monitor (kind 2) trigger: it takes BASE and LOCSEQ, and with BCAST the node injects a
SKEIN with that ID, whether or not it captures (R478). DEDUCED (assumption 40). -/
def State.autoTrigger (s : State) (kind : Nat) : State :=
  let id := s.g F.locBase * 256 + s.g F.locSeq
  let t := s.localTrigger kind id
  let s := s.put F.locSeq ((s.g F.locSeq + 1) % 256)
  let s := s.trigger t
  if s.is F.trigBcast then
    s.injectSkein id (s.g F.die) (s.g F.trigRect + 2 ^ 20 * s.g F.trigAll)
  else s

/-- The software trigger of OBS_SWTRIG (R478). DEDUCED (assumption 40). -/
def State.swTrigger (s : State) (id : Nat) : State :=
  let t := s.localTrigger 3 id
  (s.put F.locSeq ((s.g F.locSeq + 1) % 256)).trigger t

/-! ### Monitors (R482 to R485) -/

/-- The bin of a sample. -/
def monBinOf (mode wsh : Nat) (u : Int) : Nat :=
  if mode = 0 then
    let q := u / (2 ^ wsh : Nat)
    if q < 0 then 0 else min 31 q.toNat
  else if u < (2 ^ wsh : Nat) then 0
  else min 31 (Nat.log2 u.toNat - wsh + 1)

/-- A sample meets the threshold of monitor `i` (R484). -/
def State.overThr (s : State) (i : Nat) (v : Int) : Bool := s.is (F.monThrEn i) && decide (signed 64 (s.g (F.monThrV i)) ≤ v)

/-- Monitor `i` applies one sample (R484). -/
def State.applySample (s : State) (i : Nat) (v : Int) : State :=
  let b := monBinOf (s.g (F.monMode i)) (s.g (F.monWsh i)) (v - signed 64 (s.g (F.monBase i)))
  let s := s.sat (F.monBin i b) 1
  let s := s.sat (F.monCount i) 1
  let s := s.put (F.monSum i) (unsigned 64 ((s.g (F.monSum i) : Int) + v))
  let s := s.put (F.monMin i) (unsigned 64 (min (signed 64 (s.g (F.monMin i))) v))
  let s := s.put (F.monMax i) (unsigned 64 (max (signed 64 (s.g (F.monMax i))) v))
  if s.overThr i v then s.put F.monThr (setBits (s.g F.monThr) i 1 1) else s

/-- A sample: its source, the FILTERs that admit it, and its value. -/
abbrev Sample := Nat × (Nat → Bool) × Int

/-- Does a sample reach monitor `i`? -/
def State.admits (s : State) (i : Nat) (e : Sample) : Bool :=
  s.is (F.monEn i) && s.g (F.monSrc i) = e.1 && e.2.1 (s.g (F.monFilter i))

/-- The samples of one cycle reach the monitors that admit them, and after them come the triggers of those whose threshold was met, the
lowest-numbered first (R479, R484, R485). DEDUCED (assumption 59). -/
def State.samples (s : State) (l : List Sample) : State :=
  let s' := forN 8 (fun i t => l.foldl (fun t e => if s.admits i e then t.applySample i e.2.2 else t) t) s
  forN 8 (fun i t => if (l.any fun e => s.admits i e && s.overThr i e.2.2) && bit (s.g F.trigMon) i then t.autoTrigger 2 else t) s'

/-- One sample of source `src`. -/
def State.sample (s : State) (src : Nat) (admits : Nat → Bool) (v : Int) : State := s.samples [(src, admits, v)]

/-- A sample of a source whose value is a time the model does not hold: SRC 0x03, 0x04 and 0x05. DESIGN CHOICE (assumption 78). -/
def State.sampleTime (s : State) (src : Nat) (admits : Nat → Bool) : State :=
  if (List.range 8).any fun i => s.is (F.monEn i) && s.g (F.monSrc i) = src && admits (s.g (F.monFilter i)) then
    (s.sample src admits (Config.freeWord s.fresh).toInt).tick
  else s

/-- Performance events of the node-logic domain (R25, R486). DEDUCED (assumption 85). -/
def logicEvent (code : Nat) : Bool := (0x01 ≤ code && code ≤ 0x32) || code = 0x40 || code = 0x41 || code = 0x44

/-- A monitor or counter keeps the mesh domain at 2.2 GHz (R483). -/
def State.meshKept (s : State) : Bool :=
  ((List.range 8).any fun i => s.is (F.monEn i) && 3 ≤ s.g (F.monSrc i) && s.g (F.monSrc i) ≤ 5)
    || (List.range 16).any fun j => s.is (F.pcEn j) && logicEvent (s.g (F.pcEvent j))

/-- `n` transfers are granted to requester `req` of local memory: counted, and sampled (R186, R482, R486). -/
def State.lmGrant (s : State) (req n : Nat) : State :=
  let s := s.perf (0x20 + req) n none
  forN n (fun _ s => s.sampleTime 0x04 fun f => bit f req) (if req = 1 then s.tally (issueXfers s.core.cur) n else s)

end Sys2Proof.Machine
end

