-- ==== Sys2Proof/Machine/Faults.lean ====
section
/-! DEFINITION. Fault records, checkstop and fencing (R451 to R463), and the ECC words of local memory
(R189 to R191). -/

namespace Sys2Proof.Machine

/-- A fault to be recorded (R452, R453). -/
structure FaultRec where
  source : Nat
  cls : Nat
  ctx : Option CtxId
  info : Nat
  addr : Nat
  deriving DecidableEq, Repr

/-- The slot of a new record (R454): the lowest free one; for class 3 or 4, failing that, the valid record of
class 2 or 5 with the lowest NUM. -/
def State.faultSlot (s : State) (cls : Nat) : Option Nat :=
  match (List.range 32).find? fun i => !s.is (F.recValid i) with
  | some i => some i
  | none =>
    if cls = 3 ∨ cls = 4 then
      ((List.range 32).filter fun i => s.g (F.recClass i) = 2 ∨ s.g (F.recClass i) = 5).foldl
        (fun b i => match b with
          | none => some i
          | some j => if s.g (F.recNum i) < s.g (F.recNum j) then some i else some j) none
    else none

/-- Store a record in the slot R454 gives it, or lose it; the entry says where it went and what that took. -/
def State.storeRec (s : State) (e : TickRec) : TickRec × State :=
  match s.faultSlot e.cls with
  | none =>
    let t := s.hwAdd F.fltLost 1
    ({ e with slot := none, old := [t.g F.fltLost - s.g F.fltLost] }, t)
  | some i =>
    let num := s.g F.fltNum
    let t := forN 4 (fun k t => t.put (F.rec i k) (e.words.getD k 0 + (if k = 0 then 2 ^ 32 * num else 0))) s
    ({ e with slot := some i, old := (List.range 4).map fun k => s.g (F.rec i k) },
      (t.hwSet (F.recValid i)).put F.fltNum ((num + 1) % 2 ^ 32))

/-- Take back what the last record stored or lost did. -/
def State.unstoreRec (e : TickRec) (s : State) : State :=
  match e.slot with
  | none =>
    let d := e.old.headD 0
    { s.put F.fltLost (s.g F.fltLost - d) with
      up := { s.up with aonAdd := tput 0 s.up.aonAdd F.fltLost.off (tget 0 s.up.aonAdd F.fltLost.off - d) } }
  | some i => (forN 4 (fun k t => t.put (F.rec i k) (e.old.getD k 0)) s).put F.fltNum ((s.g F.fltNum + 2 ^ 32 - 1) % 2 ^ 32)

/-- Store records in order. -/
def State.storeRecs : List TickRec → State → List TickRec × State
  | [], s => ([], s)
  | e :: r, s =>
    let t := s.storeRec e
    let u := State.storeRecs r t.2
    (t.1 :: u.1, u.2)

/-- Nothing of this AON tick's records has been cleared or reported yet. -/
def State.recsStand (s : State) : Bool :=
  s.up.tickRecs.all fun e => match e.slot with
    | none => true
    | some i => s.is (F.recValid i) && !s.is (F.recSent i)

/-- The record of a fault but for NUM (R453). -/
def State.recOf (s : State) (f : FaultRec) : TickRec :=
  { source := f.source, cls := f.cls, slot := none, old := [],
    words := [1 + 2 * f.cls + 256 * f.source + (match f.ctx with | some c => 2 ^ 20 + 2 ^ 21 * c.num | none => 0),
      s.self.toNat + 2 ^ 22 * s.g F.dieValid + 2 ^ 24 * s.g F.stage + 2 ^ 32 * (f.info % 2 ^ 32), f.addr, s.g F.ltime] }

/-- Record a fault (R453, R454), and make the trigger of R478 where its class asks for one. The faults of one AON tick take their
slots, overwrite and are lost as if they had come by ascending SOURCE: those of a higher SOURCE make room and are recorded again.
DEDUCED (assumption 79). -/
def State.record (s : State) (f : FaultRec) : State :=
  let log := if s.recsStand then s.up.tickRecs else []
  let later := log.filter fun e => f.source < e.source
  let r := State.storeRecs (s.recOf f :: later) (later.foldr State.unstoreRec s)
  let s := { r.2 with up := { r.2.up with tickRecs := (log.filter fun e => e.source ≤ f.source) ++ r.1 } }
  if (r.1.any fun e => e.source = f.source && e.slot.isSome) && 2 ≤ f.cls && bit (s.g F.trigFlt) (f.cls - 2) then s.autoTrigger 1 else s

/-- The context whose kernel slot the KERNEL in execution on ring `n` fills, unless it has expired: CTX of the ring may have been
written since (R384, R396, R397). -/
def State.kernelSlot (s : State) (n : Nat) (x : Exec) : Option CtxId :=
  [CtxId.c0, CtxId.c1].find? fun c => s.is (F.kFull c.num) && !s.is (F.kExpired c.num) && s.g (F.kRing c.num) = n
    && s.g (F.kIndex c.num) = x.index.toNat

/-- The engines stop under a fence: descriptors in execution end without a trace, a KERNEL's slot is emptied,
fetched heads and fetches are dropped, reservations end (R394, R438). -/
def State.stopRing (n : Nat) (s : State) : State :=
  let r := s.ring n
  let s := match r.exec with
    | some e =>
      if execIsKernel e then
        match s.kernelSlot n e with
        | some c => ((s.put (F.kFull c.num) 0).put (F.kTaken c.num) 0).put (F.kExpired c.num) 0
        | none => s
      else s
    | none => s
  let s := (s.put (F.rBusy n) 0).put (F.rHeld n) 0
  s.setRing n { r with head := none, fetching := none, exec := none, wait := 0, resv := 0 }

/-- Every engine stops; a Chest operation in progress leaves CHESTSTAT as it is (R394, R462). -/
def State.stopEngines (s : State) : State :=
  let s := forN 16 State.stopRing s
  let s := forN 16 (fun n s => s.put (F.ringWait n) 0) s
  let s := s.put F.resv 0
  { s with qe := { s.qe with outst := [], reserved := 0 } }

/-- A fetch in flight ends with the ring processing that awaits it (R25, R26). -/
def State.dropFetches (s : State) : State :=
  let s := forN 16 (fun n s => s.setRing n { s.ring n with fetching := none }) s
  { s with qe := { s.qe with outst := s.qe.outst.filter fun e => match e.2 with
      | .fetch _ => false
      | _ => true } }

/-- The LDO's output goes to zero, or comes on (R39). -/
def State.ldo (s : State) (on : Bool) : State := { s with spn := { s.spn with ldoOn := on, devTicks := 0, stretch := false } }

/-- Node-logic state is lost: core, matrix and vector state, caches, fetches in flight (R25, R26, R91). CHESTCTR keeps its
value (R181). -/
def State.loseLogic (s : State) : State :=
  let s := s.dropFetches
  { s with core := { Core.reset with chestCtr0 := s.core.chestCtr0, chestCtr1 := s.core.chestCtr1 },
           mx := Mx.reset, cache := Caches.reset }

/-- A fence takes effect (R461, R462). A fence of REASON 1 to 4 replaces REASON 5, which a reset in progress placed, and
that reset then holds at its tick 1 (R90); otherwise the first stays. DEDUCED (assumption 27). -/
def State.fence (s : State) (reason : Nat) : State :=
  if s.isFenced then
    if s.g F.reason = 5 ∧ reason ≠ 5 then
      { s.put F.reason reason with up := { s.up with phase := if s.up.phase = .holding then .fenced else s.up.phase } }
    else s
  else
    let s := (s.put F.fenced 1).put F.reason reason
    let s := s.stopEngines
    let s := if reason = 2 ∨ reason = 3 then s.loseLogic.ldo false else s
    { s with pins := { s.pins with faultOutN := false } }

/-- Checkstop: a node-fatal record and a fence of REASON 1 (R461). DEDUCED (assumption 27). -/
def State.checkstop (s : State) (f : FaultRec) : State := (s.record f).fence 1

/-- Which start-up faults fence (R81). -/
def suFences (b : Nat) : Bool := b ≤ 5 || b = 7

/-- A start-up fault: its sticky bit, its record, and for the fencing ones checkstop and START_FENCED (R81, R452). -/
def State.startUpFault (s : State) (b : Nat) : State :=
  let s := s.put F.suFault (setBits (s.g F.suFault) b 1 1)
  let f : FaultRec := { source := 0x10 + b, cls := if suFences b then 3 else 2, ctx := none,
                        info := s.g F.suFault, addr := 0 }
  if suFences b then (s.checkstop f).put F.stage 8 else s.record f

/-! ### ECC (R189 to R191) -/

/-- Requester codes of LM_UNC (R452). -/
def reqRouter : Nat := 0
def reqCore : Nat := 1
def reqVector : Nat := 2
def reqMatrix : Nat := 3
def reqDma : Nat := 4
def reqChest : Nat := 5
def reqScrub : Nat := 6

/-- The check state of the ECC word with index `w`. DEDUCED (assumption 60). -/
def State.eccOf (s : State) (w : Nat) : EccMark := tget .good s.ecc w

/-- The ECC words an access of `n` bytes at `off` touches. -/
def eccWords (off n : Nat) : List Nat :=
  (List.range ((off + n - 1) / 8 - off / 8 + 1)).map fun i => off / 8 + i

/-- The lowest touched ECC word that fails, for the words the access reads. DEDUCED (assumption 60). -/
def State.eccFail (s : State) (ws : List Nat) : Option Nat := ws.find? fun w => s.eccOf w = .bad

/-- The 256-byte blocks of local memory an access of `n` bytes at `off` touches, each a transfer of its own (R182): offset and
bytes. -/
def blocks (off n : Nat) : List (Nat × Nat) :=
  (List.range ((off + n - 1) / 256 - off / 256 + 1)).map fun i =>
    let lo := max off (256 * (off / 256 + i))
    (lo, min (off + n) (256 * (off / 256 + i + 1)) - lo)

/-- The words among `ws` with a single-bit error. DEDUCED (assumption 60). -/
def State.eccSingles (s : State) (ws : List Nat) : List Nat :=
  ws.filter fun w => s.eccOf w = .single ∨ s.eccOf w = .corrected

/-- Count the corrected words an access reads; each waits to be written back (R189). -/
def State.eccCorrect (s : State) (ws : List Nat) : State :=
  let l := s.eccSingles ws
  if l.isEmpty then s
  else
    let s := (s.sat F.eccCorr l.length).perf 0x28 l.length none
    { s with ecc := l.foldl (fun e w => tput .good e w .corrected) s.ecc }

/-- A transfer fails: counted, its word noted, a contained record made (R190). -/
def State.eccFailed (s : State) (req : Nat) (ctx : Option CtxId) (w : Nat) : State :=
  let s := s.sat F.eccUnc 1
  let s := (s.put F.eccWord w).put F.eccValid 1
  s.record { source := 0x01, cls := 2, ctx := ctx, info := req, addr := 8 * w }

/-- Transfers of an access: blocks of 256 bytes it touches (R182). -/
def transfers (off n : Nat) : Nat := (off + n - 1) / 256 - off / 256 + 1

/-- Read `n` bytes of local memory: the bytes, or the lowest failing ECC word. Each transfer corrects or fails by itself (R189). -/
def State.lmRead (s : State) (req : Nat) (ctx : Option CtxId) (off n : Nat) : Except Nat (List Byte) × State :=
  let s := s.lmGrant req (transfers off n)
  let fails (b : Nat × Nat) : Option Nat := s.eccFail (eccWords b.1 b.2)
  match (blocks off n).filterMap fails with
  | [] => (.ok (s.mem.read off n), s.eccCorrect (eccWords off n))
  | w :: ws =>
    let good := ((blocks off n).filter fun b => (fails b).isNone).flatMap fun b => eccWords b.1 b.2
    (.error w, (w :: ws).foldl (fun s w => s.eccFailed req ctx w) (s.eccCorrect good))

/-- Words of a write that it does not cover entirely (R183). -/
def eccPartial (off n : Nat) : List Nat :=
  (eccWords off n).filter fun w => 8 * w < off || off + n < 8 * w + 8

/-- Write bytes to local memory; a partial write of a failing word fails, and nothing is written (R190, R191). Stored words get
fresh check bits. -/
def State.lmWrite (s : State) (req : Nat) (ctx : Option CtxId) (off : Nat) (d : List Byte) : Option Nat × State :=
  let s := s.lmGrant req (transfers off d.length)
  if d.isEmpty then (none, s)
  else
    let ps := eccPartial off d.length
    match (blocks off d.length).filterMap fun b => s.eccFail (ps.filter fun w => w / 32 = b.1 / 256) with
    | w :: ws => (some w, (w :: ws).foldl (fun s w => s.eccFailed req ctx w) s)
    | [] =>
      let s := s.eccCorrect ps
      (none, { s with mem := s.mem.write off d,
                      ecc := (eccWords off d.length).foldl (fun e w => tput .good e w .good) s.ecc })

end Sys2Proof.Machine
end

