-- ==== Sys2Proof/Machine/Exceptions.lean ====
section
/-! DEFINITION. Taking an exception and returning from one (R134 to R153, R511): routes, frames, normal, fast
and Bench entry, and ERET. -/

namespace Sys2Proof.Machine

/-! ### Causes (R136) -/

def cIllegal : Nat := 0x01
def cPriv : Nat := 0x02
def cSyscall : Nat := 0x03
def cBreak : Nat := 0x04
def cAlign : Nat := 0x05
def cAccess : Nat := 0x06
def cMemData : Nat := 0x07
def cWindowOvf : Nat := 0x08
def cWindowUnf : Nat := 0x09
def cReelOvf : Nat := 0x0A
def cReelUnf : Nat := 0x0B
def cRetPriv : Nat := 0x0C
def cFrameFault : Nat := 0x0D
def cTileShape : Nat := 0x0E
def cTileFormat : Nat := 0x0F
def cMxNotOwned : Nat := 0x10
def cSendFull : Nat := 0x11
def cQuota : Nat := 0x12
def cDoorbell : Nat := 0x20
def cMessage : Nat := 0x21
def cTimer : Nat := 0x22
def cSpindle : Nat := 0x23
def cSkein : Nat := 0x24
def cFault : Nat := 0x25
def cLink : Nat := 0x26

/-- The route of a cause raised at level `pl` (R135): 1 is S, 2 is M. -/
def Ctx.route (x : Ctx) (c : Nat) : Nat :=
  if c = cRetPriv ∨ c = cFrameFault ∨ c = cMxNotOwned then 2
  else if c = cSyscall ∧ x.pl.toNat ≥ 1 then 2
  else if (if c ≥ 0x20 then x.xdeleg.getLsbD (32 + c - 0x20) else x.xdeleg.getLsbD c) then 1 else 2

/-- The target level: the higher of PL and the route (R135). -/
def Ctx.target (x : Ctx) (c : Nat) : Nat := max x.pl.toNat (x.route c)

/-- XSP, XSBASE, XSLIMIT and XVEC of a level. -/
def Ctx.xsp (x : Ctx) (t : Nat) : Word := if t = 1 then x.xspS else x.xspM
def Ctx.xsbase (x : Ctx) (t : Nat) : Word := if t = 1 then x.xsbaseS else x.xsbaseM
def Ctx.xslimit (x : Ctx) (t : Nat) : Word := if t = 1 then x.xslimitS else x.xslimitM
def Ctx.xvec (x : Ctx) (t : Nat) : Word := if t = 1 then x.xvecS else x.xvecM

/-- Set XSP of a level. -/
def Ctx.setXsp (x : Ctx) (t : Nat) (v : Word) : Ctx := if t = 1 then { x with xspS := v } else { x with xspM := v }

/-- Record a cause and its address at a level. -/
def Ctx.setCause (x : Ctx) (t c : Nat) (a : Word) : Ctx :=
  let code := BitVec.ofNat 9 (c + if c ≥ 0x20 then 256 else 0)
  if t = 1 then { x with xcauseS := code, xaddrS := a } else { x with xcauseM := code, xaddrM := a }

/-- XNEST + 1, saturating (R143). -/
def Ctx.nestUp (x : Ctx) : Ctx :=
  { x with xnest := if x.xnest = BitVec.allOnes 32 then x.xnest else x.xnest + 1 }

/-- The bits ZST holds: [16:0] without [2], and CAUSE (R157). DEDUCED (assumption 36). -/
def zstMask : Word := 0xFF0001FFFB

/-- The causes whose frame holds the first parcel (R141). -/
def hasInst (c : Nat) : Bool := c = cIllegal || c = cPriv || c = cAlign || c = cAccess || c = cMemData

/-- The 64 bytes of a frame (R141); `nest` is XNEST after entry. -/
def frameBytes (id : CtxId) (x : Ctx) (c : Nat) (a pc : Word) (inst : Word32) (nest : Nat) : List Byte :=
  toLe 8 pc.toNat ++ toLe 8 (pstatNat id x) ++ toLe 8 (c + if c ≥ 0x20 then 256 else 0) ++ toLe 8 a.toNat
    ++ toLe 8 (x.wvalid.toNat + 256 * x.depth + 2 ^ 32 * nest) ++ toLe 8 x.zpc.toNat ++ toLe 8 x.zst.toNat
    ++ toLe 8 (if hasInst c then inst.toNat else 0)

/-- frame_check: the reason a frame at `f` is refused (R142). -/
def State.frameCheck (s : State) (id : CtxId) (f : Word) (t : Nat) : Option Nat :=
  let x := s.ctx id
  let sp := x.xsp t
  if sp.toNat % 64 ≠ 0 then some 0
  else if f.toNat < (x.xsbase t).toNat ∨ (x.xslimit t).toNat < sp.toNat then some 1
  else
    match s.local? f 64 with
    | none => some 2
    | some off =>
      let tag := s.g (F.pageTag (pageOf off))
      if tag = id.num ∨ (t = 2 ∧ tag = 3) then none else some 3

/-- Where an exception or return leaves the frame's offset. -/
def State.frameOff (s : State) (f : Word) : Nat := (s.local? f 64).getD 0

/-- Bench entry (R148, R150); a busy Bench is a checkstop. -/
def State.benchEntry (s : State) (id : CtxId) (c t : Nat) (a pc f : Word) (reason : Nat) (inst : Word32) : State :=
  let x := s.ctx id
  if s.core.benchBusy then
    s.checkstop { source := 0x20, cls := 3, ctx := some id, info := c + 256 * t, addr := f.toNat }
  else
    let x1 := x.nestUp
    let zs := (List.range 16).flatMap fun i => toLe 8 (tget 0 x.zb i).toNat
    let d := frameBytes id x c a pc inst x1.xnest.toNat ++ toLe 8 f.toNat
      ++ toLe 8 (c + 256 * t + 1024 * id.num + 4096 * reason + 32768 * b2n x.zbusy)
      ++ toLe 8 (s.g F.ltime) ++ toLe 40 0 ++ zs
    let s := (s.lmWrite reqCore (some id) benchBase d).2
    let s := { s with core := { s.core with benchBusy := true, benchCtx := id, benchDepth := x1.xnest } }
    let x2 := { x1 with
      xcauseM := BitVec.ofNat 9 cFrameFault, xaddrM := f,
      zst := BitVec.ofNat 64 (setBits x1.zst.toNat 32 8 cFrameFault), zbusy := true,
      pl := 2, fast := true, ie := false, p := true, pc := x1.xvecM }
    (s.setCtx id x2).perf 0x03 1 (some id)

/-- Normal entry for cause `c`, target `t`, address `a`, saved PC `pc` (R140). Earlier producers become visible (R113). -/
def State.normalEntry (s : State) (id : CtxId) (c t : Nat) (a pc : Word) (inst : Word32) : State :=
  let s := s.setCtx id (s.ctx id).flush
  let x := s.ctx id
  if x.spare then s.benchEntry id c t a pc 0 4 inst
  else
    let f := x.xsp t - 64
    match s.frameCheck id f t with
    | some reason => s.benchEntry id c t a pc f reason inst
    | none =>
      let x1 := x.nestUp
      let s := (s.lmWrite reqCore (some id) (s.frameOff f) (frameBytes id x c a pc inst x1.xnest.toNat)).2
      let x2 := (x1.setXsp t f).setCause t c a
      let x3 := if x2.ringFull then { x2 with spare := true }
                else
                  let x2 := { x2 with cwp := x2.cwp + 1 }
                  x2.setLive x2.cwp.toNat true
      let x4 := { x3 with pl := BitVec.ofNat 2 t, fast := false, ie := false, p := false, pc := x3.xvec t }
      (s.setCtx id x4).perf 0x03 1 (some id)

/-- Fast entry (R145). -/
def State.fastEntry (s : State) (id : CtxId) (c t : Nat) (pc : Word) : State :=
  let x := (s.ctx id).flush
  let x := { x with
    zpc := pc, zst := BitVec.ofNat 64 (pstatNat id x + 2 ^ 32 * c) &&& zstMask, zbusy := true,
    pl := BitVec.ofNat 2 t, fast := true, ie := false, p := true, pc := x.xvec t }
  (s.setCtx id x).perf 0x04 1 (some id)

/-- Take a cause by the entry R136 and R145 give it. -/
def State.enter (s : State) (id : CtxId) (c t : Nat) (a pc : Word) (inst : Word32) : State :=
  let x := s.ctx id
  if c = cDoorbell ∨ c = cMessage ∨ (cWindowOvf ≤ c ∧ c ≤ cReelUnf ∧ x.zbusy = false) then s.fastEntry id c t pc
  else s.normalEntry id c t (if cWindowOvf ≤ c ∧ c ≤ cReelUnf then 0 else a) pc inst

/-- A synchronous cause of a context: it enters at its target level with `pc` saved. The entry makes the boundary
after an ERET an ordinary one again. -/
def State.raiseOf (s : State) (id : CtxId) (c : Nat) (a pc : Word) (inst : Word32) : State :=
  let s := s.setCtx id { s.ctx id with afterEret := false }
  s.enter id c ((s.ctx id).target c) a pc inst

/-- A synchronous cause of the issuing context. -/
def State.raise (s : State) (c : Nat) (a pc : Word) (inst : Word32) : State := s.raiseOf s.core.cur c a pc inst

/-- A synchronous cause routed to M whatever XDELEG holds (R511, R102). -/
def State.raiseM (s : State) (c : Nat) (a pc : Word) (inst : Word32) : State :=
  let id := s.core.cur
  let s := s.setCtx id { s.ctx id with afterEret := false }
  s.normalEntry id c 2 a pc inst

/-! ### Asynchronous causes (R137 to R139, R165) -/

/-- Is a cause pending for a context? (R396, R413, R434, R447, R480, R457, R378) -/
def State.pendingNow (s : State) (id : CtxId) (c : Nat) : Bool :=
  let n := id.num
  if c = cDoorbell then
    (s.is (F.kFull n) && !s.is (F.kTaken n))
      || (s.is (F.imqOvr n) && bit (s.g (F.evtEn n)) 0) || (s.is (F.imqUdr n) && bit (s.g (F.evtEn n)) 1)
      || (s.is (F.imqStale n) && bit (s.g (F.evtEn n)) 2) || (s.is (F.cqOvr n) && bit (s.g (F.evtEn n)) 3)
      || (s.is (F.cqUdr n) && bit (s.g (F.evtEn n)) 4) || (s.is (F.cqStale n) && bit (s.g (F.evtEn n)) 5)
      || (s.g F.dbEvCtx = n && ((s.is F.dbOvr && bit (s.g (F.evtEn n)) 6) || (s.is F.dbStale && bit (s.g (F.evtEn n)) 7)))
  else if c = cMessage then s.qe.imq.any fun e => e.ctx = id
  else if c = cTimer then (List.range 4).any fun i => s.is (F.cmpHit i) && s.is (F.cmpEn i) && s.g (F.cmpCtx i) = n
  else if c = cSpindle then s.g F.spnEvCtx = n && (s.g F.spnEvts &&& s.g F.spnEvEn) ≠ 0
  else if c = cSkein then
    s.g F.obsEvCtx = n && ((s.is F.snapFull && s.is F.obsEvFull) || (s.g F.monThr &&& s.g F.obsEvMon) ≠ 0)
  else if c = cFault then
    s.g F.fltEvCtx = n &&
      (((List.range 32).any fun i => s.is (F.recValid i) && s.g (F.recClass i) ≥ 2 && bit (s.g F.fltEvEn) (s.g (F.recClass i) - 2))
        || (s.is F.rxEv && !s.fltRx.isEmpty))
  else if c = cLink then
    s.g F.lnkEvCtx = n && (List.range 4).any fun p => (s.g (F.lEvts p) &&& s.g F.lnkEvEn) ≠ 0
  else false

/-- XPEND as the sources stand. -/
def State.pendMask (s : State) (id : CtxId) : BitVec 7 :=
  BitVec.ofNat 7 ((List.range 7).foldl (fun a i => a + 2 ^ i * b2n (s.pendingNow id (0x20 + i))) 0)

/-- What XPEND reads (R157): the sources as they stand; under a fence, and without the node-logic domain, nothing moves (R462). -/
def State.pendNow (s : State) (id : CtxId) : BitVec 7 :=
  if s.isFenced ∨ 3 ≤ s.power then (s.ctx id).xpend else s.pendMask id

/-! ### Wakes (R430, R431) -/

/-- Ask for a wake from N2, N3 or N4; `src` is the code SPN_PSSTAT.SRC will hold: 1 event latch, 2 packet, 3 cause,
4 admission, 5 comparator, 6 GO. -/
def State.wakeBy (s : State) (src : BitVec 4) : State :=
  if 2 ≤ s.power ∧ s.spn.wakeSrc = 0 then { s with spn := { s.spn with wakeSrc := src } } else s

/-- Bring XPEND of a context up to date; a cause that becomes pending sets the event latch (R128) and wakes the node
from N2 (R431). Under a fence, and without the node-logic domain, nothing moves (R462). -/
def State.updatePend (s : State) (id : CtxId) : State :=
  let x := s.ctx id
  let m := s.pendMask id
  if m = x.xpend ∨ s.isFenced ∨ 3 ≤ s.power then s
  else
    let new := (m &&& ~~~x.xpend) ≠ 0
    let s := if new && s.power = 2 then s.wakeBy 3 else s
    s.setCtx id { x with xpend := m, latch := x.latch || new }

/-- Is cause `c` takeable in a context on its own state (R138, R113, R153)? -/
def State.takeable (s : State) (id : CtxId) (c : Nat) : Bool :=
  let x := s.ctx id
  let t := x.target c
  x.xpend.getLsbD (c - 0x20) && x.xien.getLsbD (c - 0x20)
    && (t > x.pl.toNat || (t = x.pl.toNat && x.ie))
    && !x.spare && (!x.fast || t > x.pl.toNat)
    && (!(c = cDoorbell || c = cMessage) || (!x.fast && !x.zbusy))
    && x.prods.isEmpty && !x.afterEret

/-- The order of R139 within one target level. -/
def asyncOrder : List Nat := [cFault, cSpindle, cTimer, cLink, cSkein, cMessage, cDoorbell]

/-- The cause taken first among those a filter admits: higher target level first, then R139's order. -/
def State.pickAsync (s : State) (id : CtxId) (ok : Nat → Bool) : Option Nat :=
  let l := asyncOrder.filter fun c => s.takeable id c && ok c
  match l.find? fun c => (s.ctx id).target c = 2 with
  | some c => some c
  | none => l.head?

/-! ### Return (R151, R511) -/

/-- What an attempt to execute an instruction comes to. -/
inductive Done where
  /-- it completes; the next instruction follows -/
  | next (s : State)
  /-- it completes and control goes to an address -/
  | to (s : State) (pc : Word)
  /-- it completes and has set the PC, and possibly the issuing context, itself -/
  | gone (s : State)
  /-- it raises a synchronous cause, saved PC its own address -/
  | exc (s : State) (c : Nat) (a : Word)
  /-- the same, routed to M and taken by normal entry (R511, R102) -/
  | excM (s : State) (c : Nat) (a : Word)
  /-- it raises a cause whose saved PC is the next instruction (SYSCALL, BREAK) -/
  | call (s : State) (c : Nat) (a : Word)
  /-- it has not completed: it waits, or an event of its own ends it -/
  | wait (s : State)

/-- The boundary in front of a context's next instruction is the one R153 defers. DEDUCED (assumption 43). -/
def State.deferNext (s : State) (id : CtxId) : State :=
  s.setCtx id { s.ctx id with afterEret := true }

/-- After a return by context `id` that leaves XBACK's level and depth, issue goes back to the other context when
it may (R166). The instruction executed next is the one in front of which R153 takes no asynchronous cause.
DEDUCED (assumption 43). -/
def State.switchBack (s : State) (id : CtxId) (may : Bool) : State :=
  let x := s.ctx id
  if x.xback && x.pl = x.xbpl && x.xnest = x.xbdepth then
    let s := s.setCtx id { x with xback := false }
    let y := s.ctx id.other
    if may && s.core.run.getLsbD id.other.num && !(y.wait = .wfe && !y.latch) then
      { s.deferNext id.other with core := { (s.deferNext id.other).core with cur := id.other } }
    else s.deferNext id
  else s.deferNext id

/-- Bench return (R151): the record and frame are read, MEM_DATA to M on an uncorrectable error.
DEDUCED (assumption 38). DESIGN CHOICE (assumption 68). -/
def State.benchReturn (s : State) : Done :=
  let id := s.core.cur
  match s.lmRead reqCore (some id) benchBase 256 with
  | (.error w, s) => .excM s cMemData (BitVec.ofNat 64 (8 * w))
  | (.ok d, s) =>
    let x := s.ctx id
    let x := { x with
      zb := (List.range 16).foldl (fun t i => tput 0 t i (BitVec.ofNat 64 (field d (128 + 8 * i) 8))) x.zb,
      zpc := BitVec.ofNat 64 (field d 0x28 8), zst := BitVec.ofNat 64 (field d 0x30 8) &&& zstMask,
      zbusy := bit (field d 0x48 8) 15, xnest := x.xnest - 1, pc := BitVec.ofNat 64 (field d 0 8) }
    let x := x.setPstat (field d 8 8)
    let s := { s.setCtx id x.flush with core := { (s.setCtx id x.flush).core with benchBusy := false } }
    .gone (s.switchBack id false)

/-- Fast return (R151). -/
def State.fastReturn (s : State) : Done :=
  let id := s.core.cur
  let x := s.ctx id
  let z := x.zst.toNat
  if bits z 0 2 > x.pl.toNat ∨ bits z 3 1 ≠ id.num then .exc s cRetPriv 0
  else
    let y := { (x.setPstat z) with pc := x.zpc, fast := false, zbusy := false }
    .gone ((s.setCtx id y.flush).switchBack id true)

/-- Frame return (R151, R511). -/
def State.frameReturn (s : State) : Done :=
  let id := s.core.cur
  let x := s.ctx id
  let t := x.pl.toNat
  let sp := x.xsp t
  if x.xnest = 0 ∨ sp.toNat % 64 ≠ 0 ∨ sp.toNat + 64 > (x.xslimit t).toNat then .exc s cRetPriv sp
  else
    match s.local? sp 64 with
    | none => .exc s cRetPriv sp
    | some off =>
      if !s.pageOk id t (pageOf off) then .exc s cRetPriv sp
      else
        match s.lmRead reqCore (some id) off 64 with
        | (.error w, s) => .excM s cMemData (wordAddr sp w)
        | (.ok d, s) =>
          let p := field d 8 8
          if bits p 0 2 > t ∨ bits p 3 1 ≠ id.num then .exc s cRetPriv sp
          else if !x.spare && !x.live (bits p 4 3) then .exc s cWindowUnf 0
          else
            let y := if x.spare then x
                     else if x.cwp.toNat ≠ bits p 4 3 then x.setLive x.cwp.toNat false else x
            let y := { (y.setPstat p) with pc := BitVec.ofNat 64 (field d 0 8), xnest := x.xnest - 1 }
            let y := if bit p 2 then
                { y with zpc := BitVec.ofNat 64 (field d 0x28 8), zst := BitVec.ofNat 64 (field d 0x30 8) &&& zstMask } else y
            .gone ((s.setCtx id (y.setXsp t (sp + 64)).flush).switchBack id true)

/-- ERET after its privilege check: which return it is (R151). -/
def State.eret (s : State) : Done :=
  let id := s.core.cur
  let x := s.ctx id
  if x.fast && x.pl = 2 && s.core.benchBusy && s.core.benchCtx = id && x.xnest = s.core.benchDepth then s.benchReturn
  else if x.fast then s.fastReturn
  else s.frameReturn

end Sys2Proof.Machine
end

