-- ==== Sys2Proof/Machine/Formats.lean ====
section
/-! DEFINITION. Element formats as exact values, the single rounding of every conversion, stochastic rounding and
FP32 arithmetic (R215 to R233, R299). -/

namespace Sys2Proof.Machine

/-- An element's value: NaN, an infinity with its sign, or (-1)^neg × m × 2^e, a zero keeping its sign. -/
inductive FV where
  | nan
  | inf (neg : Bool)
  | fin (neg : Bool) (m : Nat) (e : Int)
  deriving DecidableEq, Repr

/-- A float format (R217): exponent and mantissa bits, bias, the code of the largest finite magnitude, and whether
it has infinities; `nan` is its canonical NaN (R219), if it has one. -/
structure FFmt where
  eb : Nat
  mb : Nat
  bias : Int
  maxc : Nat
  hasInf : Bool
  nan : Option Nat
  deriving DecidableEq, Repr

def fp32 : FFmt := ⟨8, 23, 127, 0x7F7FFFFF, true, some 0x7FC00000⟩
def bf16 : FFmt := ⟨8, 7, 127, 0x7F7F, true, some 0x7FC0⟩
def e4m3 : FFmt := ⟨4, 3, 7, 0x7E, false, some 0x7F⟩
def e5m2 : FFmt := ⟨5, 2, 15, 0x7B, true, some 0x7E⟩
def e2m1 : FFmt := ⟨2, 1, 1, 0x7, false, none⟩
/-- FP6 E2M3 and E3M2, which the vector unit only widens (R223, R311). -/
def e2m3 : FFmt := ⟨2, 3, 1, 0x1F, false, none⟩
def e3m2 : FFmt := ⟨3, 2, 3, 0x1F, false, none⟩

/-- The largest code of the exponent field with a mantissa, of a format that marks specials there. -/
def FFmt.isNan (f : FFmt) (mag : Nat) : Bool :=
  if f.hasInf then mag > (2 ^ f.eb - 1) * 2 ^ f.mb else f.nan = some mag

/-- Is a magnitude code the infinity? -/
def FFmt.isInf (f : FFmt) (mag : Nat) : Bool := f.hasInf && mag = (2 ^ f.eb - 1) * 2 ^ f.mb

/-- The value a code has (R217). -/
def FFmt.dec (f : FFmt) (x : Nat) : FV :=
  let neg := bit x (f.eb + f.mb)
  let mag := x % 2 ^ (f.eb + f.mb)
  if f.isNan mag then .nan
  else if f.isInf mag then .inf neg
  else
    let ex := mag / 2 ^ f.mb
    let m := mag % 2 ^ f.mb
    if ex = 0 then .fin neg m (1 - f.bias - f.mb)
    else .fin neg (m + 2 ^ f.mb) ((ex : Int) - f.bias - f.mb)

/-- `m` × 2^`k` rounded to an integer, to nearest, ties to even (R229). -/
def rneShift (m : Nat) (k : Int) : Nat :=
  if 0 ≤ k then m * 2 ^ k.toNat
  else
    let d := 2 ^ (-k).toNat
    let q := m / d
    let r := m % d
    if 2 * r > d ∨ (2 * r = d ∧ q % 2 = 1) then q + 1 else q

/-- `m` × 2^`k` rounded down to an integer. -/
def truncShift (m : Nat) (k : Int) : Nat := if 0 ≤ k then m * 2 ^ k.toNat else m / 2 ^ (-k).toNat

/-- floor(log2 (m × 2^e)) for m > 0. -/
def expOf (m : Nat) (e : Int) : Int := (Nat.log2 m : Int) + e

/-- The exponent of a magnitude in a format, not below that of the smallest normal. -/
def FFmt.expAt (f : FFmt) (m : Nat) (e : Int) : Int := max (expOf m e) (1 - f.bias)

/-- The magnitude code of `n` quanta at exponent `x`, as though the exponent were unbounded. -/
def FFmt.codeAt (f : FFmt) (x : Int) (n : Nat) : Nat := n + (x - (1 - f.bias)).toNat * 2 ^ f.mb

/-- The magnitude code of a rounded finite value before the range check. -/
def FFmt.magCode (f : FFmt) (m : Nat) (e : Int) : Nat :=
  if m = 0 then 0
  else
    let x := f.expAt m e
    f.codeAt x (rneShift m (e - (x - f.mb)))

/-- A conversion's outcome: the code, and what it adds to OVF and INV (R230, R231). -/
structure Conv where
  code : Nat
  ovf : Bool
  inv : Bool
  deriving DecidableEq, Repr

/-- The code with its sign. -/
def FFmt.signed (f : FFmt) (neg : Bool) (mag : Nat) : Nat := mag + b2n neg * 2 ^ (f.eb + f.mb)

/-- The code of the infinity. -/
def FFmt.infCode (f : FFmt) : Nat := (2 ^ f.eb - 1) * 2 ^ f.mb

/-- Convert a value to a float format (R229, R230). E5M2 saturates a finite overflow. -/
def FFmt.enc (f : FFmt) (v : FV) : Conv :=
  match v with
  | .nan => match f.nan with
    | some c => ⟨c, false, false⟩
    | none => ⟨0, false, true⟩
  | .inf neg => if f.hasInf then ⟨f.signed neg f.infCode, false, false⟩ else ⟨f.signed neg f.maxc, true, false⟩
  | .fin neg m e =>
    let c := f.magCode m e
    if c > f.maxc then
      if f.hasInf && f.eb = 8 then ⟨f.signed neg f.infCode, true, false⟩ else ⟨f.signed neg f.maxc, true, false⟩
    else ⟨f.signed neg c, false, false⟩

/-- Convert a value to a two's-complement integer of `w` bits (R230). -/
def intEnc (w : Nat) (v : FV) : Conv :=
  let hi := 2 ^ (w - 1) - 1
  let lo := 2 ^ (w - 1)
  match v with
  | .nan => ⟨0, false, true⟩
  | .inf neg => ⟨if neg then lo else hi, true, false⟩
  | .fin neg m e =>
    let n := rneShift m e
    if neg then (if n > lo then ⟨lo, true, false⟩ else ⟨(2 ^ w - n) % 2 ^ w, false, false⟩)
    else if n > hi then ⟨hi, true, false⟩ else ⟨n, false, false⟩

/-- The value of a two's-complement integer of `w` bits. -/
def intDec (w x : Nat) : FV :=
  let i := signed w x
  .fin (decide (i < 0)) i.natAbs 0

/-! ### Format codes (R215) -/

/-- Element size in bits; 0 for a reserved code. -/
def fmtBits (c : Nat) : Nat :=
  if c = 0 ∨ c = 3 then 4 else if c = 1 ∨ c = 4 ∨ c = 5 ∨ c = 8 then 8 else if c = 6 then 16
  else if c = 2 ∨ c = 7 then 32 else 0

/-- The value of a code in a format. -/
def fmtDec (c x : Nat) : FV :=
  match c with
  | 0 => intDec 4 x
  | 1 => intDec 8 x
  | 2 => intDec 32 x
  | 3 => e2m1.dec x
  | 4 => e4m3.dec x
  | 5 => e5m2.dec x
  | 6 => bf16.dec x
  | 7 => fp32.dec x
  | _ => .nan

/-- Convert a value to a format. -/
def fmtEnc (c : Nat) (v : FV) : Conv :=
  match c with
  | 0 => intEnc 4 v
  | 1 => intEnc 8 v
  | 2 => intEnc 32 v
  | 3 => e2m1.enc v
  | 4 => e4m3.enc v
  | 5 => e5m2.enc v
  | 6 => bf16.enc v
  | _ => fp32.enc v

/-- Element `i` of `b` bits of a byte list (R216). -/
def elemAt (d : List Byte) (b i : Nat) : Nat :=
  if b = 4 then bits (d.getD (i / 2) 0).toNat (4 * (i % 2)) 4 else field d (i * (b / 8)) (b / 8)

/-- Pack elements of `b` bits (R216). -/
def packElems (b : Nat) : List Nat → List Byte
  | [] => []
  | [x] => if b = 4 then [BitVec.ofNat 8 (x % 16)] else toLe (b / 8) x
  | x :: y :: r =>
    if b = 4 then BitVec.ofNat 8 (x % 16 + 16 * (y % 16)) :: packElems b r else toLe (b / 8) x ++ packElems b (y :: r)

/-! ### Exact arithmetic -/

/-- Value `m` × 2^`e` as a signed multiple of 2^`q`, for q at or below e. -/
def FV.scaled (neg : Bool) (m : Nat) (e q : Int) : Int :=
  let x : Int := (m * 2 ^ (e - q).toNat : Nat)
  if neg then -x else x

/-- IEEE 754 addition, exact: the sum of opposite equal values is +0, of two negative zeros -0. -/
def FV.add : FV → FV → FV
  | .nan, _ => .nan
  | _, .nan => .nan
  | .inf a, .inf b => if a = b then .inf a else .nan
  | .inf a, _ => .inf a
  | _, .inf b => .inf b
  | .fin a m e, .fin b n f =>
    let q := min e f
    let s := FV.scaled a m e q + FV.scaled b n f q
    if s = 0 then .fin (a && b) 0 q else .fin (decide (s < 0)) s.natAbs q

/-- IEEE 754 multiplication, exact. -/
def FV.mul : FV → FV → FV
  | .nan, _ => .nan
  | _, .nan => .nan
  | .inf a, .inf b => .inf (a != b)
  | .inf a, .fin b n _ => if n = 0 then .nan else .inf (a != b)
  | .fin a m _, .inf b => if m = 0 then .nan else .inf (a != b)
  | .fin a m e, .fin b n f => .fin (a != b) (m * n) (e + f)

/-- Negation. -/
def FV.neg : FV → FV
  | .nan => .nan
  | .inf a => .inf (!a)
  | .fin a m e => .fin (!a) m e

/-- Magnitude. -/
def FV.abs : FV → FV
  | .nan => .nan
  | .inf _ => .inf false
  | .fin _ m e => .fin false m e

/-- Is a value zero? -/
def FV.isZero : FV → Bool
  | .fin _ m _ => m = 0
  | _ => false

/-- Order of two values that are not NaN. -/
def FV.lt : FV → FV → Bool
  | .inf a, .inf b => a && !b
  | .inf a, .fin _ _ _ => a
  | .fin _ _ _, .inf b => !b
  | .fin a m e, .fin b n f => FV.scaled a m e (min e f) < FV.scaled b n f (min e f)
  | _, _ => false

/-- Equality of two values that are not NaN; the zeros are equal. -/
def FV.eq : FV → FV → Bool
  | .nan, _ => false
  | _, .nan => false
  | a, b => !a.lt b && !b.lt a

/-- Multiply by 2^k, exactly. -/
def FV.scale2 (v : FV) (k : Int) : FV :=
  match v with
  | .fin a m e => .fin a m (e + k)
  | v => v

/-- FP32 add with round to nearest even (R299). -/
def f32Add (a b : Nat) : Nat := (fp32.enc ((fp32.dec a).add (fp32.dec b))).code

/-- FP32 multiply. -/
def f32Mul (a b : Nat) : Nat := (fp32.enc ((fp32.dec a).mul (fp32.dec b))).code

/-- Round an FP32 code once to BF16. -/
def f32ToBf16 (x : Nat) : Nat := (bf16.enc (fp32.dec x)).code

/-! ### Stochastic rounding (R232, R233) -/

/-- One step of the LFSR. -/
def lfsrStep (x : BitVec 32) : BitVec 32 :=
  let y := x >>> 1
  if x.getLsbD 0 then y ^^^ 0x80200003 else y

/-- next_r(): the state after 16 steps; its low 16 bits are r. -/
def lfsr16 (x : BitVec 32) : BitVec 32 := Nat.repeat lfsrStep 16 x

/-- Stochastic conversion of a value to BF16 with the random number `r` (R232). -/
def bf16Stoch (v : FV) (r : Nat) : Conv :=
  match v with
  | .fin neg m e =>
    if m = 0 then bf16.enc v
    else if expOf m e ≥ 128 then ⟨bf16.signed neg bf16.infCode, true, false⟩
    else
      let x := bf16.expAt m e
      let k := e - (x - 7)
      let n := truncShift m k
      let d16 := truncShift m (k + 16) - n * 65536
      let c := bf16.codeAt x (if r < d16 then n + 1 else n)
      if c > bf16.maxc then ⟨bf16.signed neg bf16.infCode, true, false⟩ else ⟨bf16.signed neg c, false, false⟩
  | v => bf16.enc v

end Sys2Proof.Machine
end

