-- ==== Sys2Proof/Machine/Router.lean ====
section
/-! DEFINITION. The router: header checks, routing, multicast forks, Ply reduction, waiting branches and their
grants (R316 to R350). -/

namespace Sys2Proof.Machine

/-- Does the node hold a die route table (R352)? -/
def State.hasDrt (s : State) : Bool := [Port.n, .e, .s, .w].any fun p => s.portMode p = 1

/-- The mesh domain carries traffic (R49, R432). -/
def State.meshBusy (s : State) : State := { s with rtr := { s.rtr with idle := false, idleTicks := 0 } }

/-- A link port's adapter state. -/
def State.lnk (s : State) : Port → LinkPort
  | .n => s.lnkN
  | .e => s.lnkE
  | .s => s.lnkS
  | _ => s.lnkW

/-- Replace a link port's adapter state. -/
def State.setLnk (s : State) (p : Port) (x : LinkPort) : State :=
  match p with
  | .n => { s with lnkN := x }
  | .e => { s with lnkE := x }
  | .s => { s with lnkS := x }
  | .w => { s with lnkW := x }
  | .l => s

/-- Return `n` credits of a channel to the sender on an outward port (R46); behind a link port that is the edge adapter
(R354). -/
def State.credit (s : State) (p : Port) (vc : BitVec 2) (n : Nat) : State :=
  if p = .l ∨ n = 0 then s
  else if s.portMode p = 1 then
    let x := s.lnk p
    s.setLnk p { x with inCred := tput 0 x.inCred vc.toNat (tget 0 x.inCred vc.toNat + n) }
  else
    let k := 4 * p.num + vc.toNat
    { s with rtr := { s.rtr with creditsOut := tput 0 s.rtr.creditsOut k (tget 0 s.rtr.creditsOut k + n) } }

/-! ### Header checks (R322, R324) -/

/-- The TYPEs R322 defines. -/
def typeDefined (ty : BitVec 5) : Bool := 1 ≤ ty.toNat && ty.toNat ≤ 0x12

/-- Is LEN within the range R322 gives the type? -/
def lenOk (ty : BitVec 5) (n : Nat) : Bool :=
  match ty.toNat with
  | 0x02 => n ≤ 256
  | 0x03 | 0x0B => 1 ≤ n && n ≤ 256
  | 0x05 => n = 16
  | 0x07 => 8 ≤ n && n ≤ 32
  | 0x0D => 4 ≤ n && n ≤ 256 && n % 4 = 0
  | 0x0A | 0x0E | 0x0F | 0x10 | 0x11 | 0x12 => n = 32
  | _ => n = 0

/-! ### Parity of table entries (R460) -/

/-- The table entry a register belongs to: its first register's offset in the RTR_ block (R353). -/
def tblEntry (o : Nat) : Nat :=
  if 0x800 ≤ o ∧ o < 0x1000 then o / 0x20 * 0x20 else if 0x1000 ≤ o ∧ o < 0x1200 then o / 0x10 * 0x10 else o / 8 * 8

/-- An entry passes its parity; one that does not counts as not valid. DESIGN CHOICE (assumption 80). -/
def State.tblOk (s : State) (e : Nat) : Bool := !s.rtr.tblBad.contains e

/-- A lookup reads an entry: one that fails its parity is recorded once. DESIGN CHOICE (assumption 80). -/
def State.tblLook (s : State) (e : Nat) : State :=
  if s.tblOk e || s.rtr.tblTold.contains e then s
  else State.record { s with rtr := { s.rtr with tblTold := s.rtr.tblTold ++ [e] } }
    { source := 0x0B, cls := 2, ctx := none, info := 0, addr := e }

/-- An entry is written: it may be used again. -/
def State.tblWritten (s : State) (e : Nat) : State :=
  { s with rtr := { s.rtr with tblBad := s.rtr.tblBad.filter fun k => k ≠ e, tblTold := s.rtr.tblTold.filter fun k => k ≠ e } }

/-! ### Routing (R330 to R334) -/

/-- The port of an XY step (R330). -/
def xyStep (x y tx ty : Nat) : Port :=
  if x < tx then .e else if tx < x then .w else if y < ty then .n else .s

/-- The port of a YX step (R330). -/
def yxStep (x y tx ty : Nat) : Port :=
  if y < ty then .n else if ty < y then .s else if x < tx then .e else .w

/-- Put a packet in front of an output; HOPS counts this router (R334). `cls1` is the class it arrived in, `drop` what the
MC_DROP of a branch says. -/
def State.holdAs (s : State) (inp out : Port) (p : Packet) (owed : Nat) (branch cls1 : Bool) (drop : Nat) : State :=
  let h : Held := { pkt := { p with hops := p.hops + 1 }, inp := inp, out := out, branch := branch, sent := 0,
                    owed := owed, ticks := 0, cls1 := cls1, drop := drop }
  { s with rtr := { s.rtr with held := s.rtr.held ++ [h] } }

/-- The same for a packet that is no branch and keeps its class. -/
def State.hold (s : State) (inp out : Port) (p : Packet) (owed : Nat) : State := s.holdAs inp out p owed false p.xcls 0

/-- respond_or_discard with UNREACHABLE, counted in RTR_UNREACH (R330). -/
def State.unreachable (s : State) (inp : Port) (p : Packet) (owed : Nat) : State :=
  ((s.credit inp p.vc owed).sat F.unreach 1).sendError p stUnreachable

/-- detour(p, next) (R333). `cls1` is the class the packet arrived in. -/
def State.detour (s : State) (inp next : Port) (p : Packet) (owed : Nat) (cls1 : Bool) : State :=
  let i := next.num
  let s := s.tblLook (0x40 + 8 * i)
  if s.is (F.detValid i) && s.tblOk (0x40 + 8 * i) then
    let q := { p with wpx := BitVec.ofNat 5 (s.g (F.detX i)), wpy := BitVec.ofNat 5 (s.g (F.detY i)), wpv := true, xcls := true }
    let out := Port.named (s.g (F.detPort i))
    if s.portMode out ≠ 0 then s.unreachable inp p owed else s.holdAs inp out q owed false cls1 0
  else s.unreachable inp p owed

/-- out `next`: the packet waits in front of it, or takes the detour of a port in RTR_PORTFAIL (R330, R333, R459). -/
def State.outTo (s : State) (inp next : Port) (p : Packet) (owed : Nat) (cls1 : Bool) : State :=
  if bit (s.g F.portFail) next.num then s.detour inp next p owed cls1 else s.holdAs inp next p owed false cls1 0

/-- The step toward a target node of the die (R330). -/
def State.stepTo (s : State) (inp : Port) (p : Packet) (owed tx ty : Nat) : State :=
  let x := s.g F.coordX
  let y := s.g F.coordY
  let p := if p.wpv && p.wpx.toNat = x && p.wpy.toNat = y then { p with wpv := false } else p
  let next := if p.wpv then yxStep x y p.wpx.toNat p.wpy.toNat else xyStep x y tx ty
  if s.portMode next ≠ 0 then s.unreachable inp p owed else s.outTo inp next p owed p.xcls

/-- Half `h` of the die route table entry of die `d` is valid (R331, R460). -/
def State.drtOk (s : State) (d h : Nat) : Bool := s.is (F.drtValid d h) && s.tblOk (0x8000 + 8 * d)

/-- The ESC bit of the exit a packet uses at this node (R331). DEDUCED (assumption 42). -/
def State.exitEsc (s : State) (d : Nat) (p : Packet) : Bool :=
  let names (h : Nat) := s.drtOk d h && s.g (F.drtNode d h) = p.exitN.toNat && s.g (F.drtPort d h) = p.exitP.toNat
  if names 0 then s.is (F.drtEsc d 0) else if names 1 then s.is (F.drtEsc d 1) else p.xcls

/-- Leave the die by the chosen exit port of this node. DEDUCED (assumption 42). -/
def State.leaveDie (s : State) (inp : Port) (p : Packet) (owed : Nat) : State :=
  let esc := s.exitEsc (bits p.dst.toNat 50 12) p
  s.outTo inp (Port.named p.exitP.toNat) { p with xd := true, xcls := p.xcls || esc } owed p.xcls

/-- die_exit(p) and the steps after it (R331, R332). DEDUCED (assumption 42). -/
def State.dieExit (s : State) (inp : Port) (p : Packet) (owed : Nat) : State :=
  let d := bits p.dst.toNat 50 12
  let own := s.g F.node
  let s := if s.hasDrt then s.tblLook (0x8000 + 8 * d) else s.tblLook (8 * (d % 4))
  let use (h : Nat) (p : Packet) : Packet :=
    { p with exitN := BitVec.ofNat 10 (s.g (F.drtNode d h)), exitP := BitVec.ofNat 2 (s.g (F.drtPort d h)), exitV := true }
  let go (p : Packet) : State :=
    if p.exitN.toNat = own then
      if s.is (F.lInsvc p.exitP.toNat) then s.leaveDie inp p owed
      else if s.drtOk d 1 && !(s.g (F.drtNode d 1) = p.exitN.toNat && s.g (F.drtPort d 1) = p.exitP.toNat) then
        let q := use 1 p
        if q.exitN.toNat ≠ own then s.stepTo inp q owed (q.exitN.toNat % 32) (q.exitN.toNat / 32)
        else if s.is (F.lInsvc q.exitP.toNat) then s.leaveDie inp q owed
        else s.unreachable inp p owed
      else s.unreachable inp p owed
    else s.stepTo inp p owed (p.exitN.toNat % 32) (p.exitN.toNat / 32)
  if p.exitV then go p
  else if s.hasDrt then
    if s.drtOk d 0 then go (use 0 p)
    else if s.drtOk d 1 then go (use 1 p)
    else s.unreachable inp p owed
  else
    let k := d % 4
    if s.is (F.gwValid k) && s.tblOk (8 * k) && s.g (F.gwNode k) ≠ own then s.stepTo inp p owed (s.g (F.gwNode k) % 32) (s.g (F.gwNode k) / 32)
    else s.unreachable inp p owed

/-! ### Multicast (R341 to R344) and SKEIN (R475) -/

/-- RECT and COUNT an MC_DROP of a branch carries (R343, R344). -/
def State.dropAux (s : State) (out : Port) (p : Packet) : Nat :=
  let x := p.aux.toNat
  if bit x 20 then
    let g := bits x 0 6
    s.g (F.mcgRect g out.num) + 2 ^ 20 * s.g (F.mcgCount g out.num)
  else bits x 0 20 + 2 ^ 20 * rectCount x

/-- Hold one copy of a multicast or SKEIN for an outward port. Only an MC_WRITE branch may be dropped. -/
def State.copyOut (inp : Port) (owed : Nat) (s : State) (e : Port × Packet) : State :=
  s.holdAs inp e.1 e.2 owed (e.2.ty = 0x0B) e.2.xcls (if e.2.ty = 0x0B then s.dropAux e.1 e.2 else 0)

/-- A copy with another rectangle. -/
def withRect (p : Packet) (r : Nat) : Packet := { p with aux := BitVec.ofNat 64 (setBits p.aux.toNat 0 20 r) }

/-- The copies a router makes of a rectangle multicast, and whether it delivers one on L (R342). -/
def rectCopies (x y : Nat) (p : Packet) : Bool × List (Port × Packet) :=
  let r := p.aux.toNat
  let a := rectX0 r
  let b := rectX1 r
  let c := rectY0 r
  let d := rectY1 r
  if x < a ∨ b < x ∨ y < c ∨ d < y then
    (false, [(xyStep x y (min (max x a) b) (min (max y c) d), p)])
  else
    (true, (if x < b then [(Port.e, withRect p (mkRect (x + 1) b c d))] else [])
      ++ (if a < x then [(Port.w, withRect p (mkRect a (x - 1) c d))] else [])
      ++ (if y < d then [(Port.n, withRect p (mkRect x x (y + 1) d))] else [])
      ++ (if c < y then [(Port.s, withRect p (mkRect x x c (y - 1)))] else []))

/-- A rectangle rule begins at this router for packets from L, from a host port or from another die (R341). -/
def State.rectBegins (s : State) (inp : Port) : Bool := inp = .l || s.portMode inp = 3 || s.portMode inp = 1

/-- Route a rectangle MC_WRITE or SKEIN of this die: the packet to deliver on L, if any. -/
def State.routeRect (s : State) (inp : Port) (p : Packet) (owed : Nat) : State × Option (Packet × Nat) :=
  let isSkein := p.ty = 0x0E
  let p := if isSkein && p.aux.getLsbD 20 then
      { p with aux := BitVec.ofNat 64 (mkRect 0 (s.g F.dieW - 1) 0 (s.g F.dieH - 1)) } else p
  if s.rectBegins inp && !s.rectOk p.aux.toNat then
    let s := s.credit inp p.vc owed
    if isSkein then (s.sat F.badPkt 1, none) else (s.sendAck p stMalformed, none)
  else
    let c := rectCopies (s.g F.coordX) (s.g F.coordY) p
    let outs := c.2.filter fun e => s.portMode e.1 = 0
    let bad := c.2.filter fun e => s.portMode e.1 ≠ 0
    let s := outs.foldl (State.copyOut inp owed) s
    let s := bad.foldl (fun s _ => s.unreachable .l p 0) s
    if c.1 then (s, some (p, owed))
    else if outs.isEmpty then (s.credit inp p.vc owed, none)
    else (s, none)

/-- Route a group MC_WRITE (R344). -/
def State.routeGroup (s : State) (inp : Port) (p : Packet) (owed : Nat) : State × Option (Packet × Nat) :=
  let g := bits p.aux.toNat 0 6
  let s := s.tblLook (0x800 + 0x20 * g)
  if s.is (F.mcgValid g) && s.tblOk (0x800 + 0x20 * g) then
    let ports := s.g (F.mcgPorts g)
    let all := [Port.n, .e, .s, .w].filter fun q => bit ports q.num
    let outs := all.filter fun q => s.portMode q = 0
    let s := (outs.map fun q => (q, p)).foldl (State.copyOut inp owed) s
    let s := (all.filter fun q => s.portMode q ≠ 0).foldl (fun s _ => s.unreachable .l p 0) s
    if bit ports 4 then (s, some (p, owed))
    else if outs.isEmpty then (s.credit inp p.vc owed, none) else (s, none)
  else ((s.credit inp p.vc owed).sat F.badPkt 1, none)

/-! ### Ply reduction (R346 to R350) -/

/-- CID, INST, DT, CNT, PARTIAL and SAT of a PLY. -/
def plyCidOf (p : Packet) : Nat := bits p.aux.toNat 0 12
def plyInstOf (p : Packet) : Nat := bits p.aux.toNat 12 16
def plyDtOf (p : Packet) : Nat := bits p.aux.toNat 28 2
def plyCntOf (p : Packet) : Nat := bits p.aux.toNat 30 11
def plyPartialOf (p : Packet) : Bool := bit p.aux.toNat 41
def plySatOf (p : Packet) : Bool := bit p.aux.toNat 42

/-- The valid table entry of a CID. -/
def State.plyEntry (s : State) (cid : Nat) : Option Nat :=
  (List.range 32).find? fun i => s.is (F.plyValid i) && s.tblOk (0x1000 + 0x10 * i) && s.g (F.plyCid i) = cid

/-- The Ply table is searched: every entry is read. -/
def State.plyLook (s : State) : State := forN 32 (fun i s => s.tblLook (0x1000 + 0x10 * i)) s

/-- An instance is of collective `cid`. -/
def PlyInst.isOf (h : PlyInst) (cid inst : Nat) : Bool := bits h.conf.toNat 0 12 = cid && h.inst.toNat = inst

/-- LASTV = 1 and the instance is not after LASTINST (R347). -/
def State.plyPast (s : State) (i inst : Nat) : Bool :=
  let d := (inst + 65536 - s.g (F.plyLast i)) % 65536
  s.is (F.plyLastV i) && (d = 0 || d ≥ 32768)

/-- An input of an instance already held is judged by the entry as it stood (R347, R353): counted as bad, late, or taken. -/
def State.plyJoin (s : State) (inp : Port) (p : Packet) (owed : Nat) (h : PlyInst) : Option State :=
  let free := s.credit inp p.vc owed
  let past := match s.plyEntry (plyCidOf p) with
    | some i => s.plyPast i (plyInstOf p)
    | none => false
  let late := past || (h.inputs.any fun e => e.1 = inp) || plyDtOf p ≠ bits h.conf.toNat 20 2
    || (match h.inputs.head? with
        | some e => e.2.len ≠ p.len || plyDtOf e.2 ≠ plyDtOf p
        | none => false)
  if !bit (bits h.conf.toNat 12 5) inp.num then some (free.sat F.badPkt 1)
  else if inp = .l ∧ s.isFenced then some free
  else if late then some (free.sat F.plyLate 1)
  else if s.plyUsed ≥ 16 then none
  else
    some { free with rtr := { free.rtr with ply := free.rtr.ply.map fun k => if k = h then { k with inputs := k.inputs ++ [(inp, p)] } else k } }

/-- The first input of an instance (R346, R347). -/
def State.plyFirst (s : State) (inp : Port) (p : Packet) (owed : Nat) : Option State :=
  let free := s.credit inp p.vc owed
  match s.plyEntry (plyCidOf p) with
  | none => some (free.sat F.badPkt 1)
  | some i =>
    if !bit (s.g (F.plyIn i)) inp.num then some (free.sat F.badPkt 1)
    else if inp = .l ∧ s.isFenced then some free
    else if s.plyPast i (plyInstOf p) || plyDtOf p ≠ s.g (F.plyDt i) then some (free.sat F.plyLate 1)
    else if s.plyUsed ≥ 16 then none
    else
      some { free with rtr := { free.rtr with ply := free.rtr.ply ++
        [{ entry := i, conf := s.reg (0x31000 + 0x10 * i), inst := BitVec.ofNat 16 (plyInstOf p), inputs := [(inp, p)], age := 0,
           spoilt := [] }] } }

/-- Accept, keep waiting or discard one Ply input (R346, R347). `none`: it waits in its input buffer. -/
def State.plyInput (s : State) (inp : Port) (p : Packet) (owed : Nat) : Option State :=
  let s := s.plyLook
  match s.rtr.ply.find? fun h => h.isOf (plyCidOf p) (plyInstOf p) with
  | some h => s.plyJoin inp p owed h
  | none => s.plyFirst inp p owed

/-- IN of an instance, less L while the node is fenced or its node-logic domain off (R350, R431). -/
def State.plyExpected (s : State) (h : PlyInst) : List Port :=
  [Port.n, .e, .s, .w, .l].filter fun q =>
    bit (bits h.conf.toNat 12 5) q.num && !(q = .l && (s.isFenced || s.power ≥ 3))

/-- One element of a Ply sum: FP32 add, BF16 widened and added in FP32, or saturating INT32 with its flag. -/
def plyAdd (dt : Nat) (a b : Nat) : Nat × Bool :=
  if dt = 2 then
    let r := signed 32 a + signed 32 b
    if r > 2 ^ 31 - 1 then (2 ^ 31 - 1, true) else if r < -(2 ^ 31 : Int) then (2 ^ 31, true) else (unsigned 32 r, false)
  else (f32Add a b, false)

/-- Elements of a PLY payload, widened to 32 bits. -/
def plyWiden (dt : Nat) (d : List Byte) : List Nat :=
  if dt = 1 then (List.range (d.length / 2)).map fun i => field d (2 * i) 2 * 65536
  else (List.range (d.length / 4)).map fun i => field d (4 * i) 4

/-- The payload of a widened sum. -/
def plyNarrow (dt : Nat) (l : List Nat) : List Byte :=
  if dt = 1 then l.flatMap fun x => toLe 2 (f32ToBf16 x) else l.flatMap fun x => toLe 4 x

/-- Add two widened vectors. -/
def plyAddAll (dt : Nat) (a b : List Nat) : List Nat × Bool :=
  let r := List.zipWith (plyAdd dt) a b
  (r.map fun e => e.1, r.any fun e => e.2)

/-- The inputs of an instance that count: none whose buffer fails its parity (R460). -/
def PlyInst.good (h : PlyInst) : List (Port × Packet) := h.inputs.filter fun e => !h.spoilt.contains e.1

/-- A NaN the unit writes is the canonical one (R219). -/
def plyCanon (dt x : Nat) : Nat := if dt ≠ 2 ∧ x / 2 ^ 23 % 256 = 255 ∧ x % 2 ^ 23 ≠ 0 then 0x7FC00000 else x

/-- The packet an instance forwards (R348). -/
def State.plyResult (s : State) (h : PlyInst) : Packet :=
  let dt := bits h.conf.toNat 20 2
  let ins := [Port.n, .e, .s, .w, .l].filterMap fun q => h.good.find? fun e => e.1 = q
  let start : Option (List Nat) × Bool := (none, false)
  let acc := ins.foldl (fun (a : Option (List Nat) × Bool) e =>
    let w := plyWiden dt e.2.payload
    match a.1 with
    | none => (some w, a.2)
    | some v => let r := plyAddAll dt v w; (some r.1, a.2 || r.2)) start
  let cnt := (ins.map fun e => plyCntOf e.2).foldl (· + ·) 0
  let part := ((s.plyExpected h).any fun q => !(h.good.any fun e => e.1 = q)) || ins.any fun e => plyPartialOf e.2
  let sat := acc.2 || ins.any fun e => plySatOf e.2
  let aux := bits h.conf.toNat 0 12 + 2 ^ 12 * h.inst.toNat + 2 ^ 28 * dt + 2 ^ 30 * min cnt 2047
    + 2 ^ 41 * b2n part + 2 ^ 42 * b2n sat
  let p := Packet.mk' 0x0D 3 0 (BitVec.ofNat 64 aux) 0 (plyNarrow dt ((acc.1.getD []).map (plyCanon dt)))
  { p with src := s.self }

/-- Forward an instance: its buffers are freed, LASTINST set (R348); without an input left nothing goes on. The result for L is
returned. DESIGN CHOICE (assumption 24). DESIGN CHOICE (assumption 80). -/
def State.plyForward (s : State) (h : PlyInst) : State × Option Packet :=
  let r := s.plyResult h
  let out := bits h.conf.toNat 17 3
  let s := { s with rtr := { s.rtr with ply := s.rtr.ply.erase h } }
  let s := (s.put (F.plyLast h.entry) h.inst.toNat).put (F.plyLastV h.entry) 1
  if h.good = [] then (s, none)
  else if out = 4 then (s, some r)
  else if out < 4 && s.portMode (Port.named out) = 0 then
    (s.tick.tick.hold .l (Port.named out)
      { r with seq := (Config.freeWord s.fresh).setWidth 16, dst := Config.freeWord (s.fresh + 1) } 0, none)
  else (s.sat F.unreach 1, none)

/-- An instance whose every expected port has its input (R348), or that a parity error ends (R460). -/
def State.plyReady (s : State) : Option PlyInst :=
  s.rtr.ply.find? fun h => h.spoilt ≠ [] || (s.plyExpected h).all fun q => h.inputs.any fun e => e.1 = q

/-! ### One packet -/

/-- What routing one packet leaves to do on L: a packet to deliver with the credits it owes. -/
abbrev Routed := State × Option (Packet × Nat)

/-- route(p) of R330 for a packet that is neither COORD, ENUM nor PLY, once coordinates and die ID are known. -/
def State.route (s : State) (inp : Port) (p : Packet) (owed : Nat) : Routed :=
  let own := s.g F.die
  let die := bits p.dst.toNat 50 12
  let ext := p.dst.getLsbD 63
  if (p.ty = 0x0B ∨ p.ty = 0x0E) ∧ !ext ∧ die = own then
    if p.ty = 0x0B ∧ p.aux.getLsbD 20 then s.routeGroup inp p owed else s.routeRect inp p owed
  else if ext then
    let s := s.tblLook 0x20
    if !(s.is F.xgwValid && s.tblOk 0x20) then (s.unreachable inp p owed, none)
    else if s.g F.xgwNode = s.g F.node then
      if s.portMode (Port.named (s.g F.xgwPort)) = 3 then (s.outTo inp (Port.named (s.g F.xgwPort)) p owed p.xcls, none)
      else (s.unreachable inp p owed, none)
    else (s.stepTo inp p owed (s.g F.xgwNode % 32) (s.g F.xgwNode / 32), none)
  else if die ≠ own then (s.dieExit inp p owed, none)
  else
    let tx := bits p.dst.toNat 40 5
    let ty := bits p.dst.toNat 45 5
    let here := tx = s.g F.coordX && ty = s.g F.coordY
    if p.tohost && here then (s.outTo inp (Port.named p.hport.toNat) p owed p.xcls, none)
    else if tx ≥ s.g F.dieW ∨ ty ≥ s.g F.dieH then (s.unreachable inp p owed, none)
    else if here then (s, some (p, owed))
    else (s.stepTo inp p owed tx ty, none)

/-! ### Grants (R317, R326) -/

/-- The adapter's escape buffer of a channel holds no packet (R327, R354). -/
def State.linkEscFree (s : State) (out : Port) (vc : BitVec 2) : Bool :=
  !((s.lnk out).packets.any fun k => k.pkt.vc = vc && k.esc && !k.flits.isEmpty)

/-- Is a waiting packet of output `out` able to go: credits on a neighbour, host or link port (R326, R354), and the port not
failed (R459)? DEDUCED (assumption 17). -/
def State.canSend (s : State) (h : Held) : Bool :=
  !bit (s.g F.portFail) h.out.num && s.hasCredits h

/-- Does a held packet stand in the escape buffer of its input (R327)? -/
def Held.esc (h : Held) : Bool := h.owed = 0 && h.inp ≠ .l

/-- The held packets that may ask an output for a grant: of one buffer, or of L on one channel, the earliest (R317, R335). -/
def firstOfEach : List Held → List Held
  | [] => []
  | h :: r => h :: (firstOfEach r).filter fun k => !(k.inp = h.inp && k.pkt.vc = h.pkt.vc && k.esc = h.esc)

/-- Distance of input `i` after the last granted `t`, round robin over five. -/
def rrDist (t i : Nat) : Nat := (i + 4 - t) % 5

/-- Which of the packets that can go an output serves (R317): VC2 first, else the next of VC0, VC1 and VC3 in turn,
inputs round robin. DEDUCED (assumption 10). -/
def State.choose (s : State) (out : Port) (ok : List Held) : Option Held :=
  let best (v : Nat) : Option Held :=
    let t := tget 4 s.rtr.turn (4 * out.num + v)
    (ok.filter fun h => h.pkt.vc.toNat = v).foldl (fun b h =>
      match b with
      | none => some h
      | some k => if rrDist t h.inp.num < rrDist t k.inp.num then some h else some k) none
  match best 2 with
  | some h => some h
  | none =>
    let last := tget 3 s.rtr.vcTurn out.num
    let order := if last = 0 then [1, 3, 0] else if last = 1 then [3, 0, 1] else [0, 1, 3]
    order.findSome? best

/-- An output's turns after it has served a packet of input `inp` (R317). -/
def State.granted (s : State) (out inp : Port) (vc : BitVec 2) : State :=
  { s with rtr := { s.rtr with
    turn := tput 4 s.rtr.turn (4 * out.num + vc.toNat) inp.num,
    vcTurn := if vc = 2 then s.rtr.vcTurn else tput 3 s.rtr.vcTurn out.num vc.toNat } }

/-- The held packet an output grants next: one already started, else the one R317 serves. -/
def State.grant (s : State) (out : Port) : Option Held :=
  let hs := s.rtr.held.filter fun h => h.out = out
  match hs.find? fun h => h.sent > 0 with
  | some h => if s.canSend h then some h else none
  | none => s.choose out ((firstOfEach hs).filter fun h => s.canSend h)

/-- Do two held packets stand in one buffer? They are then copies of one packet, since only the head is routed (R317, R343). -/
def Held.sameBuf (h k : Held) : Bool := k.inp = h.inp && k.pkt.vc = h.pkt.vc && k.esc = h.esc

/-- Remove a held copy; when the last copy of its packet has gone, the input buffer's credits return. -/
def State.dropHeld (s : State) (h : Held) : State :=
  let s := { s with rtr := { s.rtr with held := s.rtr.held.erase h } }
  if s.rtr.held.any fun k => h.sameBuf k then s else s.credit h.inp h.pkt.vc h.owed

/-- The check bits of a flit (R45, R48). DESIGN CHOICE (assumption 74). -/
def flitEcc (f : BitVec 512) (vc : BitVec 2) : BitVec 32 :=
  (Config.secdedHigh (f.extractLsb' 256 256)).append (Config.secdedLow (vc.append (f.extractLsb' 0 256)))

/-- A bundle that carries a run of flits, each with its check bits: FVALID and WAKE are high (R45, R48, R49). -/
def Bundle.run' (fs : List (BitVec 512)) (vc : BitVec 2) : Bundle :=
  { flit := fs.getLastD 0, fecc := flitEcc (fs.getLastD 0) vc, fvalid := true, fvc := vc, wake := true,
    run := fs.map fun f => (f, flitEcc f vc) }

/-- Every flit of a bundle's run passes the check of its two halves (R48). -/
def Bundle.feccOk (b : Bundle) : Bool := b.run.all fun e => e.2 = flitEcc e.1 b.fvc

/-- A run of flits goes out on a port. -/
def State.drive (s : State) (out : Port) (fs : List (BitVec 512)) (vc : BitVec 2) : State :=
  { s with rtr := { s.rtr with bundle := tput Bundle.quiet s.rtr.bundle out.num (Bundle.run' fs vc) } }

/-- The edge adapter takes a whole packet, whose flits pass the check (R48, R354, R355): nothing upsets them between the router and
its adapter. DESIGN CHOICE (assumption 74). One that reaches it out of service is offered to the router again at once (R375).
DESIGN CHOICE (assumption 81). -/
def State.toAdapter (s : State) (out : Port) (p : Packet) (esc : Bool) : State :=
  let x := s.lnk out
  let k := 4 * out.num + p.vc.toNat
  if !(tget Bundle.quiet s.rtr.bundle out.num).feccOk then s
  else if s.is (F.lInsvc out.num) then
    s.setLnk out { x with packets := x.packets ++
      [{ pkt := p, flits := toFlits p, started := false, last := none, owed := if esc then 0 else flits p, esc := esc }] }
  else
    let q := { p with exitN := BitVec.ofNat 10 (s.g F.node), exitP := BitVec.ofNat 2 out.num, exitV := true }
    let s := (s.setLnk out { x with inbound := x.inbound ++ [(q, 0)] }).sat (F.lReinj out.num) 1
    if esc then s
    else { s with rtr := { s.rtr with credits := tput 0 s.rtr.credits k (tget 0 s.rtr.credits k + flits p) } }

/-- Output `out` sends flits of the packet it grants; a class-0 packet goes whole (R326). Flits that enter an adapter's free
escape buffer give their credits back at once (R327). -/
def State.sendOne (s : State) (out : Port) : State :=
  match s.grant out with
  | none => s
  | some h =>
    let k := 4 * out.num + h.pkt.vc.toNat
    let c := tget 0 s.rtr.credits k
    let link := s.portMode out = 1
    let esc := link && h.pkt.xcls && h.sent = 0 && s.linkEscFree out h.pkt.vc
    let n := if esc then flits h.pkt else min c (flits h.pkt - h.sent)
    let s := s.perf (0x38 + out.num) n none
    let s := { s with rtr := { s.rtr with
      credits := if esc then s.rtr.credits else tput 0 s.rtr.credits k (c - n),
      turn := tput 4 s.rtr.turn k h.inp.num,
      vcTurn := if h.pkt.vc = 2 then s.rtr.vcTurn else tput 3 s.rtr.vcTurn out.num h.pkt.vc.toNat,
      idle := false, idleTicks := 0 } }
    let s := s.drive out (((toFlits h.pkt).drop h.sent).take n) h.pkt.vc
    if h.sent + n = flits h.pkt then
      let s := s.dropHeld h
      if link then s.toAdapter out h.pkt esc
      else { s with rtr := { s.rtr with driven := tput Packet.blank s.rtr.driven out.num h.pkt } }
    else
      { s with rtr := { s.rtr with held := s.rtr.held.map fun k => if k = h then { h with sent := h.sent + n } else k } }

/-! ### Escape buffers and failed ports (R327, R459) -/

/-- Some packet stands in the escape buffer of an input and channel. -/
def State.escBusy (s : State) (i : Port) (vc : BitVec 2) : Bool :=
  let at' (e : Port × Packet × Nat) : Bool := e.1 = i && e.2.1.vc = vc && e.2.2 = 0
  s.rtr.inq.any at' || s.rtr.plyWait.any at' || s.rtr.held.any fun h => h.inp = i && h.pkt.vc = vc && h.owed = 0

/-- A class-1 packet in an input buffer whose escape buffer is free: its input, channel and credits, and a test of the packet.
DEDUCED (assumption 82). -/
def State.escNext (s : State) : Option (Port × BitVec 2 × Nat) :=
  let may (i : Port) (vc : BitVec 2) (owed : Nat) (c1 : Bool) : Bool := c1 && i ≠ .l && owed ≠ 0 && !s.escBusy i vc
  match s.rtr.held.find? fun h => may h.inp h.pkt.vc h.owed h.cls1 with
  | some h => some (h.inp, h.pkt.vc, h.owed)
  | none =>
    match (s.rtr.plyWait ++ s.rtr.inq).find? fun e => may e.1 e.2.1.vc e.2.2 e.2.1.xcls with
    | some e => some (e.1, e.2.1.vc, e.2.2)
    | none => none

/-- The first entry a test admits owes no credits any more. -/
def freeFirst (ok : Port × Packet × Nat → Bool) : List (Port × Packet × Nat) → List (Port × Packet × Nat)
  | [] => []
  | e :: r => if ok e then (e.1, e.2.1, 0) :: r else e :: freeFirst ok r

/-- It moves, and its credits return at once (R327). DEDUCED (assumption 82). -/
def State.escMove (s : State) (i : Port) (vc : BitVec 2) (owed : Nat) : State :=
  let here (h : Held) : Bool := h.inp = i && h.pkt.vc = vc && h.cls1 && h.owed ≠ 0
  let ok (e : Port × Packet × Nat) : Bool := e.1 = i && e.2.1.vc = vc && e.2.1.xcls && e.2.2 ≠ 0
  let s := if s.rtr.held.any here then
      { s with rtr := { s.rtr with held := s.rtr.held.map fun h => if here h then { h with owed := 0 } else h } }
    else if s.rtr.plyWait.any ok then { s with rtr := { s.rtr with plyWait := freeFirst ok s.rtr.plyWait } }
    else { s with rtr := { s.rtr with inq := freeFirst ok s.rtr.inq } }
  s.credit i vc owed

/-- A header that waits for a port in RTR_PORTFAIL, to take the detour, whose port has not failed (R333, R459): no copy of a multicast, no SKEIN, PLY, COORD or
ENUM, and nothing part sent. -/
def State.stranded (s : State) : Option Held :=
  s.rtr.held.find? fun h => h.out ≠ .l && bit (s.g F.portFail) h.out.num && h.sent = 0
    && !(s.is (F.detValid h.out.num) && bit (s.g F.portFail) (s.g (F.detPort h.out.num)))
    && !(((h.pkt.ty = 0x0B || h.pkt.ty = 0x0E) && bits h.pkt.dst.toNat 50 12 = s.g F.die)
      || h.pkt.ty = 0x0D || h.pkt.ty = 0x10 || h.pkt.ty = 0x11)

/-- It takes the detour. -/
def State.restrand (s : State) (h : Held) : State :=
  State.detour { s with rtr := { s.rtr with held := s.rtr.held.erase h } } h.inp h.out { h.pkt with hops := h.pkt.hops - 1 } h.owed h.cls1

end Sys2Proof.Machine
end

