-- ==== Sys2Proof/Machine/Queue.lean ====
section
/-! DEFINITION. The queue engine: rings, doorbells, descriptors and their engines, completion, mailboxes and the
FIFOs (R381 to R417). -/

namespace Sys2Proof.Machine

/-! ### Parity of ingress entries (R460) -/

/-- The entries of a FIFO that pass their parity. -/
def passing {α : Type} (bad : List (Nat × Nat)) (q : Nat) (l : List α) : List α :=
  ((List.range l.length).filter fun i => !bad.contains (q, i)).filterMap fun i => l[i]?

/-- Discard `n` entries of a FIFO whose packets were of TYPE `ty`: INBOUND_REFUSED of each; what the entry held is lost.
DESIGN CHOICE (assumption 80). -/
def State.discarded (s : State) (ty n : Nat) : State :=
  let lost (s : State) : FaultRec :=
    { source := 0x08, cls := 2, ctx := none, info := ty + 2 ^ 10 * ((Config.freeWord s.fresh).toNat % 2 ^ 22),
      addr := (Config.freeWord (s.fresh + 1)).toNat }
  forN n (fun _ s => s.tick.tick.record (lost s)) s

/-- Entries of the doorbell FIFO and the IMQ that fail their parity are found and discarded at the next use of either (R460).
DESIGN CHOICE (assumption 80). -/
def State.purge (s : State) : State :=
  if s.qe.bad = [] then s
  else
    let db := passing s.qe.bad 0 s.qe.db
    let imq := passing s.qe.bad 1 s.qe.imq
    let a := s.qe.db.length - db.length
    let b := s.qe.imq.length - imq.length
    (State.discarded { s with qe := { s.qe with db := db, imq := imq, bad := [] } } 6 a).discarded 7 b

/-! ### Rings (R382 to R387) -/

/-- The ring's owning context. -/
def State.ringCtx (s : State) (n : Nat) : CtxId := CtxId.named (s.g (F.rCtx n))

/-- The context of the KERNEL in execution on ring `n`: that of its slot, before it fills one the ring's (R396). -/
def State.kernelCtx (s : State) (n : Nat) (x : Exec) : CtxId := (s.kernelSlot n x).getD (s.ringCtx n)

/-- Entries of a ring; the encoding 0x0 means 2^16 (R382). -/
def State.ringSize (s : State) (n : Nat) : Nat :=
  let l := s.g (F.rLog n)
  if l = 0 then 2 ^ 16 else 2 ^ l

/-- BASE of a ring as an address. -/
def State.ringBase (s : State) (n : Nat) : Word := BitVec.ofNat 64 (s.g (F.rBase n) * 64)

/-- Apply a new TAIL, or count it as stale (R387). -/
def State.applyTail (s : State) (n t : Nat) : State :=
  let size := s.ringSize n
  let old := (s.g (F.rTail n) + size - s.g (F.rHead n) % size) % size
  let new := (t + size - s.g (F.rHead n) % size) % size
  if new ≥ old then s.put (F.rTail n) t else s.sat F.dbStaleCnt 1

/-! ### FIFO timers (R415) -/

/-- Restart a FIFO's stale timer. -/
def State.restart (s : State) (q : Nat) : State :=
  { s with qe := { s.qe with timers := tput 0 s.qe.timers q 0 } }

/-- Entries of a context in the IMQ. -/
def State.imqCount (s : State) (c : CtxId) : Nat := (s.qe.imq.filter fun e => e.ctx = c).length

/-- The completion FIFO of a context. -/
def State.cq (s : State) : CtxId → List Word
  | .c0 => s.qe.cq0
  | .c1 => s.qe.cq1

/-- Replace it. -/
def State.setCq (s : State) : CtxId → List Word → State
  | .c0, l => { s with qe := { s.qe with cq0 := l } }
  | .c1, l => { s with qe := { s.qe with cq1 := l } }

/-- Push a completion entry; into a full FIFO it is lost and OVR set (R411, R415). -/
def State.cqPush (s : State) (c : CtxId) (e : Word) : State :=
  let l := s.cq c
  if l.length ≥ 32 then s.put (F.cqOvr c.num) 1
  else
    let s := if l.isEmpty then s.restart (3 + c.num) else s
    s.setCq c (l ++ [e])

/-- Remove and return the head of a completion FIFO; an empty one gives the last value and sets UDR (R411, R415). -/
def State.cqPop (s : State) (c : CtxId) : Word × State :=
  match s.cq c with
  | [] => ((match c with | .c0 => s.qe.cqLast0 | .c1 => s.qe.cqLast1), s.put (F.cqUdr c.num) 1)
  | e :: r =>
    let s := (s.setCq c r).restart (3 + c.num)
    (e, { s with qe := (match c with
      | .c0 => { s.qe with cqLast0 := e }
      | .c1 => { s.qe with cqLast1 := e }) })

/-- Take the head IMQ entry of a context: its 48 bytes and whether the queue was empty (R127, R413, R415). -/
def State.imqPop (s : State) (c : CtxId) : List Byte × Bool × State :=
  let s := s.purge
  match s.qe.imq.find? fun e => e.ctx = c with
  | none => ((match c with | .c0 => s.qe.imqLast0 | .c1 => s.qe.imqLast1), true, s.put (F.imqUdr c.num) 1)
  | some e =>
    let s := s.restart (1 + c.num)
    let q := { s.qe with imq := s.qe.imq.erase e }
    (e.bytes, false, { s with qe := (match c with
      | .c0 => { q with imqLast0 := e.bytes }
      | .c1 => { q with imqLast1 := e.bytes }) })

/-! ### Mailboxes (R409) -/

/-- Does slot `i` belong to context `c`? -/
def State.mboxOwned (s : State) (i : Nat) (c : CtxId) : Bool := bits (s.g F.mboxOwn) i 1 = c.num

/-- Is slot `i` busy: READY, or reserved for a post? -/
def State.mboxBusy (s : State) (i : Nat) : Bool := bit (s.g F.mboxReady) i || s.qe.reserved.getLsbD i

/-- Set a slot's value and READY together. -/
def State.mboxSet (s : State) (i : Nat) (v : Word) : State :=
  (s.put (F.mbox i) v.toNat).put F.mboxReady (setBits (s.g F.mboxReady) i 1 1)

/-- A post to a slot: 0 posted, 1 busy, 2 another context's slot (R409, R410). -/
def State.mboxPost (s : State) (c : CtxId) (i : Nat) (v : Word) : Nat × State :=
  if !s.mboxOwned i c then (2, s)
  else if s.mboxBusy i then (1, s.sat F.mboxBusy 1)
  else (0, s.mboxSet i v)

/-! ### Descriptor fields (R388, R389) -/

/-- Version and type of a descriptor. -/
def dVer (d : List Byte) : Nat := field d 0 1 % 16
def dType (d : List Byte) : Nat := field d 0 1 / 16
/-- v2 fields, 0 under v1. -/
def dV2 (d : List Byte) : Bool := dVer d ≠ 1
def dCq (d : List Byte) : Bool := bit (field d 1 1) 0
def dMbx (d : List Byte) : Bool := dV2 d && bit (field d 1 1) 1
def dMslot (d : List Byte) : Nat := bits (field d 1 1) 2 3
def dTherm (d : List Byte) : Nat := if dV2 d then bits (field d 1 1) 5 2 else 0
def dCphase (d : List Byte) : Bool := bit (field d 1 1) 7
def dWexp (d : List Byte) : Nat := bits (field d 2 2) 0 6
def dCrec (d : List Byte) : Word := BitVec.ofNat 64 (field d 8 8)
/-- The estimate in 1/16 nJ (R438). -/
def dEst (d : List Byte) : Nat :=
  let e := bits (field d 4 4) 0 20
  if dV2 d && bit (field d 4 4) 20 then e * 4096 * 16 else e * 16 * 16

/-- The local offset an address names, when it names the node's own local memory (R254). -/
def State.lmOff (s : State) (a : Word) : Option Nat :=
  match s.place a with
  | .lm off => some off
  | _ => none

/-- Is an address in local memory below the Bench? -/
def State.isLm (s : State) (a : Word) : Bool := (s.lmOff a).isSome

/-! ### RESHARD layouts (R403, R404) -/

/-- One block-cyclic layout. -/
structure Layout where
  rect : Nat
  br : Nat
  bc : Nat
  base : Nat
  lds : Nat
  deriving DecidableEq, Repr

/-- The layout whose fields begin at byte `b` of a descriptor. -/
def layoutAt (d : List Byte) (b : Nat) : Layout :=
  ⟨bits (field d b 4) 0 20, field d (b + 4) 2 + 1, field d (b + 6) 2 + 1, bits (field d (b + 8) 4) 0 22, field d (b + 12) 4⟩

/-- Columns and rows of its rectangle. -/
def Layout.pc (l : Layout) : Nat := rectX1 l.rect - rectX0 l.rect + 1
def Layout.pr (l : Layout) : Nat := rectY1 l.rect - rectY0 l.rect + 1
/-- owner(i, j): column and row of the node. -/
def Layout.owner (l : Layout) (i j : Nat) : Nat × Nat :=
  (rectX0 l.rect + (j / l.bc) % l.pc, rectY0 l.rect + (i / l.br) % l.pr)
/-- lrow(i) and lcol(j). -/
def Layout.lrow (l : Layout) (i : Nat) : Nat := (i / l.br) / l.pr * l.br + i % l.br
def Layout.lcol (l : Layout) (j : Nat) : Nat := (j / l.bc) / l.pc * l.bc + j % l.bc
/-- addr(i, j). -/
def Layout.addr (l : Layout) (e i j : Nat) : Nat := l.base + l.lrow i * l.lds + l.lcol j * e

/-- Largest value of a function below a bound. -/
def maxBelow (n : Nat) (f : Nat → Nat) : Nat := (List.range n).foldl (fun a i => max a (f i)) 0

/-- Does a layout of R × C elements of `e` bytes stay below the Bench? -/
def Layout.fits (l : Layout) (e r c : Nat) : Bool :=
  l.base + maxBelow r l.lrow * l.lds + maxBelow c l.lcol * e + e - 1 < benchBase

/-- Does a rectangle lie within the node's die? -/
def State.inDie (s : State) (r : Nat) : Bool := s.rectOk r

/-! ### FORMAT (R390) -/

/-- Body checks of each type (R398, R400, R401, R402, R404). DEDUCED (assumption 41). -/
def State.bodyBad (s : State) (d : List Byte) : Bool :=
  let lm (b : Nat) : Bool := s.isLm (BitVec.ofNat 64 (field d b 8))
  match dType d with
  | 2 =>
    let len := field d 32 4
    len = 0 || len > 2 ^ 24 || !(lm 16 || lm 24)
  | 3 =>
    let r := field d 16 4
    let c := field d 20 4
    let e := 2 ^ (field d 24 1 % 4)
    let src := layoutAt d 32
    let dst := layoutAt d 48
    r = 0 || r > 2 ^ 24 || c = 0 || c > 2 ^ 24 || !s.inDie src.rect || !s.inDie dst.rect || !src.fits e r c || !dst.fits e r c
  | 4 =>
    let len := field d 32 4
    let r := field d 36 4
    let dl := field d 48 8
    let n := field d 40 2
    len = 0 || len > 2 ^ 20 || !lm 16 || dl % 8 ≠ 0 || (dl ≠ 0 && !lm 48) ||
      (if bit r 20 then n = 0 || n > 1024 else bits (field d 24 8) 50 12 = s.g F.die && !s.inDie (bits r 0 20))
  | 5 =>
    let root := bit (field d 20 1) 2
    let ex := field d 22 2
    let len := field d 32 4
    field d 20 1 % 4 = 3 || len < 4 || len > 256 || len % 4 ≠ 0 || !lm 24 || (root && (ex = 0 || ex > 2047 || !lm 40))
  | 6 =>
    let root := bit (field d 20 1) 0
    let ex := field d 22 2
    let a := field d 24 8
    (root && (ex = 0 || ex > 2047)) || a % 8 ≠ 0 || a + 8 > benchBase
  | _ => false

/-- Does a descriptor fail with FORMAT (R390)? DEDUCED (assumption 41). -/
def State.formatBad (s : State) (d : List Byte) : Bool :=
  dVer d ≠ s.g F.descSel || dType d > 7 || (!dV2 d && (dType d = 3 || dType d = 5 || dType d = 7))
    || dWexp d > 36 || (dCrec d).toNat % 16 ≠ 0 || bits (field d 2 2) 6 10 ≠ 0
    || (dV2 d && bits (field d 4 4) 21 11 ≠ 0) || s.bodyBad d

/-! ### Completion (R405 to R408) -/

/-- The 16 bytes of a completion record (R405). -/
def recordBytes (phase mbfail dovf : Bool) (status detail : Nat) (index ring type extra energy dur : Nat) : List Byte :=
  [BitVec.ofNat 8 (b2n phase + 2 * b2n mbfail + 4 * b2n dovf), BitVec.ofNat 8 status] ++ toLe 2 index
    ++ [BitVec.ofNat 8 (ring + 16 * type), BitVec.ofNat 8 detail] ++ toLe 2 (min extra 65535)
    ++ toLe 4 (min energy (2 ^ 32 - 1)) ++ toLe 4 (min dur (2 ^ 32 - 1))

/-- Write a completion record: one DMA transfer locally, one sink write elsewhere; a refused local write makes a
contained record (R407 step 2, R497). -/
def State.writeRecord (s : State) (n : Nat) (crec : Word) (d : List Byte) (index : Nat) : State :=
  let c := s.ringCtx n
  let bad (s : State) : State :=
    s.record { source := 0x07, cls := 2, ctx := some c, info := n + 2 ^ 16 * index, addr := crec.toNat }
  match s.place crec with
  | .node a => s.inject { Packet.mk' 3 1 a 1 0 d with sctx := c = .c1 }
  | .ext a => s.inject { Packet.mk' 3 1 a 1 0 d with sctx := c = .c1 }
  | .lm off =>
    if off + 16 ≤ benchBase && s.rangeOk c 1 off 16 then
      match s.lmWrite reqDma (some c) off d with
      | (none, s) => s
      | (some _, s) => bad s
    else bad s
  | _ => bad s

/-- Complete the descriptor of ring `n` (R407): judge the post, write the record, post, push, advance HEAD. -/
def State.complete (s : State) (n : Nat) (d : List Byte) (index : Nat) (e : DescEnd) (energy dur : Nat) : State :=
  let c := s.ringCtx n
  let slot := dMslot d
  let own := s.mboxOwned slot c
  let busy := s.mboxBusy slot
  let post := dMbx d && own && !busy
  let s := if dMbx d && own && busy then s.sat F.mboxBusy 1 else s
  let phase := if dV2 d then dCphase d else (s.ring n).phase
  let units := energy / 256
  let rec16 := recordBytes phase (dMbx d && !post) e.dovf e.status.toNat e.detail.toNat index n (dType d) e.extra units dur
  let s := if dCrec d = 0 then s else s.writeRecord n (dCrec d) rec16 index
  let v : Word := if dType d = 1 then BitVec.ofNat 64 (s.g (F.kResult c.num)) else BitVec.ofNat 64 (field rec16 0 8)
  let s := if post then s.mboxSet slot v else s
  let s := if dCq d then
      s.cqPush c (BitVec.ofNat 64 (index + 2 ^ 16 * n + 2 ^ 20 * dType d + 2 ^ 24 * e.status.toNat + 2 ^ 32 * min dur (2 ^ 32 - 1)))
    else s
  let h := (s.g (F.rHead n) + 1) % s.ringSize n
  let s := s.put (F.rHead n) h
  let s := (s.put (F.rLast n) e.status.toNat).perf 0x41 1 none
  let s := s.sample 0x02 (fun f => bit f n) (min dur (2 ^ 32 - 1))
  let r := s.ring n
  s.setRing n { r with phase := if h = 0 then !r.phase else r.phase }

/-- Free ring `n` of its descriptor in execution: BUSY falls, its requests and its reservation end. -/
def State.release (s : State) (n : Nat) : State :=
  let r := s.ring n
  let s := s.put (F.rBusy n) 0
  let s := s.put F.resv (s.g F.resv - r.resv)
  let s := { s with qe := { s.qe with outst := s.qe.outst.filter fun e => e.2 ≠ Owner.ring n } }
  s.setRing n { r with exec := none, resv := 0 }

/-- End the descriptor in execution of ring `n` and complete it. DEDUCED (assumption 41). -/
def State.finish (s : State) (n : Nat) (e : DescEnd) : State :=
  match (s.ring n).exec with
  | none => s
  | some x => (s.release n).complete n x.desc x.index.toNat e x.energy x.ticks

/-- An engine's end with a status. -/
def mkEnd (status detail extra : Nat) : DescEnd := ⟨BitVec.ofNat 8 status, BitVec.ofNat 8 detail, extra, false⟩

/-! ### Fetch (R391, R392) -/

/-- May ring `n` fetch its head: EN, not empty, nothing in execution, held or being fetched? -/
def State.canFetch (s : State) (n : Nat) : Bool :=
  s.is (F.rEn n) && s.g (F.rHead n) ≠ s.g (F.rTail n) && (s.ring n).exec.isNone && (s.ring n).head.isNone
    && (s.ring n).fetching.isNone && !s.is (F.rHeld n)

/-- A failed fetch: EN cleared, FERR set, a contained record (R391). -/
def State.fetchFailed (s : State) (n : Nat) : State :=
  let info := n + 2 ^ 16 * s.g (F.rHead n)
  let s := (s.put (F.rEn n) 0).put (F.rFerr n) 1
  s.record { source := 0x05, cls := 2, ctx := some (s.ringCtx n), info := info, addr := (s.ringBase n).toNat }

/-- A head has been fetched: FORMAT is recorded at once, any other is held (R390, R392). -/
def State.fetched (s : State) (n : Nat) (d : List Byte) : State :=
  if s.formatBad d then s.complete n d (s.g (F.rHead n)) (mkEnd 0x01 0 0) 0 0
  else (s.put (F.rHeld n) 1).setRing n { s.ring n with head := some d, wait := 0 }

/-- Fetch the head of ring `n`. -/
def State.fetchHead (s : State) (n : Nat) : State :=
  let c := s.ringCtx n
  let a := s.ringBase n + BitVec.ofNat 64 (64 * s.g (F.rHead n))
  match s.place a with
  | .lm off =>
    if off + 64 ≤ benchBase && s.rangeOk c 1 off 64 then
      match s.lmRead reqDma (some c) off 64 with
      | (.ok d, s) => s.fetched n d
      | (.error _, s) => s.fetchFailed n
    else s.fetchFailed n
  | .ext a =>
    let t := s.request (.fetch n) 1 0 a (BitVec.ofNat 64 64) c []
    t.2.setRing n { t.2.ring n with fetching := some t.1 }
  | _ => s.fetchFailed n

/-! ### Engines (R395 to R404) -/

/-- Update the engine state of ring `n`. -/
def State.setEng (s : State) (n : Nat) (g : Engine) : State :=
  let r := s.ring n
  match r.exec with
  | none => s
  | some x => s.setRing n { r with exec := some { x with eng := g } }

/-- Ring `n`'s descriptor has ended; DESCRIPTOR_COMPLETE completes it. -/
def State.setEnd (s : State) (n : Nat) (e : DescEnd) : State :=
  let r := s.ring n
  match r.exec with
  | none => s
  | some x => s.setRing n { r with exec := some { x with ended := some e } }

/-- Rows finished: issued whole, with no request outstanding (R398). -/
def Engine.rowsDone (g : Engine) : Nat :=
  ((List.range g.row).filter fun r => !(g.outst.any fun q => q.lo ≤ r && r ≤ q.hi)).length

/-- A DMA transfer of `n` bytes at `off` on behalf of context `c` at S is granted (R196). -/
def State.dmaOk (s : State) (c : CtxId) (off n : Nat) : Bool := off + n ≤ benchBase && s.rangeOk c 1 off n

/-- DMA reads of ring `n`'s engine, one per block, up to the first that is refused or fails. -/
def State.dmaReads (n : Nat) (c : CtxId) : List (Nat × Nat) → State → Except Nat (List Byte) × State
  | [], s => (.ok [], s)
  | b :: r, s =>
    if s.dmaOk c b.1 b.2 then
      match (s.tally (ringXfers n) 1).lmRead reqDma (some c) b.1 b.2 with
      | (.error _, s) => (.error 3, s)
      | (.ok d, s) =>
        match State.dmaReads n c r s with
        | (.error e, s) => (.error e, s)
        | (.ok d', s) => (.ok (d ++ d'), s)
    else (.error 2, s)

/-- A local access of ring `n`'s engine on behalf of context `c` at S (R196): the bytes, or ACCESS (2) or DATA (3). -/
def State.dmaRead (s : State) (n : Nat) (c : CtxId) (off len : Nat) : Except Nat (List Byte) × State :=
  State.dmaReads n c (blocks off len) s

/-- DMA writes of ring `n`'s engine, one per block; those before the first that is refused or fails stay. -/
def State.dmaWrites (n : Nat) (c : CtxId) (off : Nat) (d : List Byte) : List (Nat × Nat) → State → Option Nat × State
  | [], s => (none, s)
  | b :: r, s =>
    if s.dmaOk c b.1 b.2 then
      match (s.tally (ringXfers n) 1).lmWrite reqDma (some c) b.1 (slice d (b.1 - off) b.2) with
      | (some _, s) => (some 3, s)
      | (none, s) => State.dmaWrites n c off d r s
    else (some 2, s)

/-- A local write of ring `n`'s engine. -/
def State.dmaWrite (s : State) (n : Nat) (c : CtxId) (off : Nat) (d : List Byte) : Option Nat × State :=
  State.dmaWrites n c off d (blocks off d.length) s

/-- Where an engine's transfer goes: local memory by its offset, a node or external space by its address; none where it is
refused, control space and the Bench of the node itself among it (R31, R196, R497). -/
def State.dmaPlace (s : State) (a : Nat) : Option (Nat ⊕ Word) :=
  match s.place (BitVec.ofNat 64 a) with
  | .lm off => some (.inl off)
  | .node b => some (.inr b)
  | .ext b => some (.inr b)
  | _ => none

/-- One piece of a DMA: read, write or copy up to 256 bytes of the current row (R398). `none`: nothing could be
issued. -/
def State.dmaStep (s : State) (n : Nat) (x : Exec) : Option State :=
  let d := x.desc
  let g := x.eng
  let c := s.ringCtx n
  let len := field d 32 4
  let rows := field d 36 2 + 1
  let src := field d 16 8
  let dst := field d 24 8
  let disp (o : Nat) : Int := (g.row : Int) * signed 64 (field d o 8) + (g.pos : Int)
  let sa := unsigned 64 ((src : Int) + disp 40)
  let da := unsigned 64 ((dst : Int) + disp 48)
  let sp := s.dmaPlace sa
  let dp := s.dmaPlace da
  let far (p : Option (Nat ⊕ Word)) : Bool := match p with
    | some (.inr _) => true
    | _ => false
  if rows ≤ g.row ∨ g.outst.length ≥ 32 then none
  else
    let left := min 256 (len - g.pos)
    let m := if far sp then min left (256 - sa % 256) else if far dp then min left (256 - da % 256) else left
    let g' := if g.pos + m ≥ len then { g with row := g.row + 1, pos := 0 } else { g with pos := g.pos + m }
    let bad (s : State) (st : Nat) : Option State := some (s.setEnd n (mkEnd st 0 g.rowsDone))
    match sp, dp with
    | some (.inl so), some (.inl eo) =>
      match s.dmaRead n c so m with
      | (.error st, s) => bad s st
      | (.ok b, s) =>
        match s.dmaWrite n c eo b with
        | (some st, s) => bad s st
        | (none, s) => some (s.setEng n g')
    | some (.inl so), some (.inr a) =>
      match s.dmaRead n c so m with
      | (.error st, s) => bad s st
      | (.ok b, s) =>
        let t := s.request (.ring n) 3 3 a 0 c b
        some (t.2.setEng n { g' with outst := g'.outst ++ [⟨t.1, true, 0, m, g.row, g.row⟩] })
    | some (.inr a), some (.inl eo) =>
      let t := s.request (.ring n) 1 0 a (BitVec.ofNat 64 (m + 512)) c []
      some (t.2.setEng n { g' with outst := g'.outst ++ [⟨t.1, false, eo, m, g.row, g.row⟩] })
    | _, _ => bad s 2

/-- Elements a node owns in its source layout, as index lists of rows and columns. -/
def ownedRows (l : Layout) (r y : Nat) : List Nat := (List.range r).filter fun i => (l.owner i 0).2 = y
def ownedCols (l : Layout) (c x : Nat) : List Nat := (List.range c).filter fun j => (l.owner 0 j).1 = x

/-- How many elements from the `k`-th join one run (R404); the source layout does not end a run (R494). DEDUCED (assumption 83). -/
def runLen (dst : Layout) (e : Nat) (at' : Nat → Nat × Nat) (total k : Nat) : Nat → Nat
  | 0 => 0
  | fuel + 1 =>
    let m := runLen dst e at' total k fuel
    if m < fuel then m
    else
      let p := at' (k + fuel)
      let p0 := at' k
      let a0 := dst.addr e p0.1 p0.2
      if k + fuel < total && dst.owner p.1 p.2 = dst.owner p0.1 p0.2 && dst.addr e p.1 p.2 = a0 + fuel * e
          && (fuel + 1) * e ≤ 256 && (a0 + (fuel + 1) * e - 1) / 256 = a0 / 256
      then fuel + 1 else fuel

/-- Consecutive bytes of one 256-byte block share a transfer (R182, R404). DEDUCED (assumption 83). -/
def joinBlock (b : Nat) (l : List (List Nat)) : List (List Nat) :=
  match l with
  | (a :: g) :: r => if a / 256 = b / 256 then (b :: a :: g) :: r else [b] :: (a :: g) :: r
  | _ => [b] :: l

/-- The transfers that read the elements of `e` bytes at `addrs`, each as the offsets of its bytes. -/
def runReads (e : Nat) (addrs : List Nat) : List (List Nat) :=
  (addrs.flatMap fun a => (List.range e).map fun i => a + i).foldr joinBlock []

/-- One local transfer of ring `n`'s engine that reads the bytes at some offsets of one block (R189, R190, R196): ACCESS (2) or DATA (3)
where it fails. -/
def State.readBytes (s : State) (n : Nat) (c : CtxId) (g : List Nat) : Except Nat (List Byte) × State :=
  if g.all fun b => s.dmaOk c b 1 then
    let s := (s.tally (ringXfers n) 1).lmGrant reqDma 1
    let ws := (g.map fun b => b / 8).eraseDups
    match s.eccFail ws with
    | some w => (.error 3, s.eccFailed reqDma (some c) w)
    | none => (.ok (g.map s.mem.byte), s.eccCorrect ws)
  else (.error 2, s)

/-- Read the source elements of a run, transfer by transfer. -/
def State.gather (s : State) (n : Nat) (c : CtxId) : List (List Nat) → Except Nat (List Byte) × State
  | [] => (.ok [], s)
  | g :: r =>
    match s.readBytes n c g with
    | (.error st, s) => (.error st, s)
    | (.ok b, s) =>
      match s.gather n c r with
      | (.error st, s) => (.error st, s)
      | (.ok b', s) => (.ok (b ++ b'), s)

/-- One run of a RESHARD (R404). -/
def State.reshardStep (s : State) (n : Nat) (x : Exec) : Option State :=
  let d := x.desc
  let g := x.eng
  let c := s.ringCtx n
  let e := 2 ^ (field d 24 1 % 4)
  let src := layoutAt d 32
  let dst := layoutAt d 48
  let rows := ownedRows src (field d 16 4) (s.g F.coordY)
  let cols := ownedCols src (field d 20 4) (s.g F.coordX)
  let total := rows.length * cols.length
  if total ≤ g.pos ∨ g.outst.length ≥ 32 then none
  else
    let at' (k : Nat) : Nat × Nat := (rows.getD (k / cols.length) 0, cols.getD (k % cols.length) 0)
    let m := max 1 (runLen dst e at' total g.pos 256)
    let addrs := (List.range m).map fun k => src.addr e (at' (g.pos + k)).1 (at' (g.pos + k)).2
    let p0 := at' g.pos
    let dest := dst.owner p0.1 p0.2
    let da := dst.addr e p0.1 p0.2
    let g' := { g with pos := g.pos + m, row := (g.pos + m) / cols.length }
    match s.gather n c (runReads e addrs) with
    | (.error st, s) => some (s.setEnd n (mkEnd st 0 g.rowsDone))
    | (.ok b, s) =>
      if dest = (s.g F.coordX, s.g F.coordY) then
        match s.dmaWrite n c da b with
        | (some st, s) => some (s.setEnd n (mkEnd st 0 g.rowsDone))
        | (none, s) => some (s.setEng n g')
      else
        let a := nodeAddr (BitVec.ofNat 22 (s.g F.die * 1024 + dest.2 * 32 + dest.1)) da
        let t := s.request (.ring n) 3 3 a 0 c b
        some (t.2.setEng n { g' with outst := g'.outst ++
          [⟨t.1, true, 0, b.length, g.pos / cols.length, (g.pos + m - 1) / cols.length⟩] })

/-- Nodes of a multicast (R345). -/
def mcNeed (d : List Byte) : Nat :=
  let r := field d 36 4
  if bit r 20 then field d 40 2 else rectCount r

/-- Send one MC_WRITE and remember the piece (R400). -/
def State.sendPiece (s : State) (n : Nat) (g : Engine) (dst : Word) (aux piece need : Nat) (b : List Byte) : State :=
  let t := s.request (.ring n) 0x0B 3 dst (BitVec.ofNat 64 aux) (s.ringCtx n) b
  t.2.setEng n { g with pos := g.pos + 1, pieces := g.pieces ++ [⟨t.1, piece, 0, need⟩] }

/-- One piece of a MULTICAST (R400). -/
def State.mcStep (s : State) (n : Nat) (x : Exec) : Option State :=
  let d := x.desc
  let g := x.eng
  let len := field d 32 4
  if len ≤ 256 * g.pos ∨ g.pieces.length ≥ 32 then none
  else
    let m := min 256 (len - 256 * g.pos)
    let so := (s.lmOff (BitVec.ofNat 64 (field d 16 8))).getD benchBase
    match s.dmaRead n (s.ringCtx n) (so + 256 * g.pos) m with
    | (.error st, s) => some (s.setEnd n { mkEnd st g.drops g.missed with dovf := g.dovf })
    | (.ok b, s) =>
      some (s.sendPiece n g (BitVec.ofNat 64 (field d 24 8) + BitVec.ofNat 64 (256 * g.pos)) (field d 36 4 % 2 ^ 21) g.pos (mcNeed d) b)

/-- Contribute to a Ply (R401, R402). -/
def State.sendPly (s : State) (n : Nat) (g : Engine) (cid inst dt : Nat) (root : Bool) (b : List Byte) : State :=
  let aux := cid % 4096 + 2 ^ 12 * (inst % 65536) + 2 ^ 28 * dt + 2 ^ 30
  let s := s.setEng n { g with started := true, waiting := root }
  s.injectOf n { Packet.mk' 0x0D 3 0 (BitVec.ofNat 64 aux) 0 b with sctx := s.ringCtx n = .c1 }

/-- The release word of a BARRIER: whether it matches INST (R402). -/
def State.checkRelease (s : State) (n : Nat) : State :=
  match (s.ring n).exec with
  | none => s
  | some x =>
    let d := x.desc
    if x.ended.isNone && dType d = 6 && !bit (field d 20 1) 0 && x.eng.started then
      match s.dmaRead n (s.ringCtx n) (field d 24 8) 8 with
      | (.error st, s) => s.setEnd n (mkEnd st 0 0)
      | (.ok b, s) =>
        if field b 0 2 = field d 18 2 then s.setEnd n (mkEnd (if bit (field b 0 8) 63 then 0x07 else 0) 0 0) else s
    else s

/-- An inbound WRITE or MC_WRITE of `len` bytes at an offset has been performed: barriers whose release word it covers look
again (R402). -/
def State.inboundWrote (s : State) (off len : Nat) : State :=
  forN 16 (fun n s =>
    match (s.ring n).exec with
    | none => s
    | some x =>
      let a := field x.desc 24 8
      if dType x.desc = 6 && off ≤ a && a + 8 ≤ off + len then s.checkRelease n else s) s

/-- Issue pieces until nothing more can be issued or the descriptor has ended. -/
def State.runPieces (n : Nat) (step : State → Nat → Exec → Option State) : Nat → State → State
  | 0, s => s
  | fuel + 1, s =>
    match (s.ring n).exec with
    | none => s
    | some x =>
      if x.ended.isSome then s
      else
        match step s n x with
        | none => s
        | some s' => State.runPieces n step fuel s'

/-- After pieces were issued or answers came: has the descriptor ended (R398, R400, R404)? -/
def State.judge (s : State) (n : Nat) : State :=
  match (s.ring n).exec with
  | none => s
  | some x =>
    let d := x.desc
    let g := x.eng
    if x.ended.isSome || !g.started then s
    else
      match dType d with
      | 2 => if field d 36 2 + 1 ≤ g.row ∧ g.outst = [] then s.setEnd n (mkEnd 0 0 g.rowsDone) else s
      | 3 =>
        let src := layoutAt d 32
        let total := (ownedRows src (field d 16 4) (s.g F.coordY)).length * (ownedCols src (field d 20 4) (s.g F.coordX)).length
        if total ≤ g.pos ∧ g.outst = [] then s.setEnd n (mkEnd 0 0 g.rowsDone) else s
      | 4 =>
        if field d 32 4 ≤ 256 * g.pos ∧ g.pieces = [] then
          s.setEnd n { mkEnd (if g.missed = 0 then 0 else 0x07) g.drops g.missed with dovf := g.dovf }
        else s
      | 6 =>
        match g.shortfall with
        | some k =>
          if g.pieces = [] then
            let partial' := k + g.missed > 0 || g.dovf
            s.setEnd n (mkEnd (if partial' then 0x07 else 0) 0 (k + g.missed))
          else s
        | none => s
      | _ => s

/-- Go on with the engine of ring `n`. -/
def State.runEngine (s : State) (n : Nat) : State :=
  match (s.ring n).exec with
  | none => s
  | some x =>
    let d := x.desc
    let s :=
      match dType d with
      | 2 => State.runPieces n State.dmaStep ((field d 36 2 + 1) * (field d 32 4 / 16 + 2)) s
      | 3 => State.runPieces n State.reshardStep (field d 16 4 * field d 20 4 + 1) s
      | 4 => State.runPieces n State.mcStep (field d 32 4 / 256 + 2) s
      | _ => s
    s.judge n

/-- Mark the engine of ring `n` started. -/
def State.startEng (s : State) (n : Nat) : State :=
  match (s.ring n).exec with
  | none => s
  | some x => s.setEng n { x.eng with started := true }

/-- The ring that awaits the root result of (CID, INST) (R401, R402). -/
def State.rootRing (s : State) (p : Packet) : Option Nat :=
  (List.range 16).find? fun n =>
    match (s.ring n).exec with
    | none => false
    | some x => x.eng.waiting && x.ended.isNone && field x.desc 16 2 % 4096 = plyCidOf p && field x.desc 18 2 = plyInstOf p

/-- A root result is written to RES by the ROUTER requester, as a write under the page's REMOTE (R185, R195): ACCESS (2) or
DATA (3) where it is not. -/
def State.rootWrite (s : State) (p : Packet) (off : Nat) : Option Nat × State :=
  if off + p.payload.length ≤ benchBase && s.remoteRangeOk off p.payload.length 2 p.host then
    match s.lmWrite reqRouter none off p.payload with
    | (none, s) => (none, s)
    | (some _, s) => (some 3, s)
  else (some 2, s)

/-- A root result is delivered to the queue engine (R401, R402). -/
def State.rootResult (s : State) (p : Packet) : State :=
  match s.rootRing p with
  | none => s.sat F.plyOrph 1
  | some n =>
    match (s.ring n).exec with
    | none => s
    | some x =>
      let d := x.desc
      let ex := field d 22 2
      let short := ex - plyCntOf p
      let s := s.setEng n { x.eng with waiting := false }
      if dType d = 5 then
        match s.rootWrite p ((s.lmOff (BitVec.ofNat 64 (field d 40 8))).getD benchBase) with
        | (some st, s) => s.setEnd n (mkEnd st 0 0)
        | (none, s) =>
          s.setEnd n (if plySatOf p then mkEnd 0x08 0 short
            else if plyPartialOf p ∨ plyCntOf p < ex then mkEnd 0x07 0 short else mkEnd 0 0 0)
      else
        let part := plyPartialOf p || decide (plyCntOf p < ex)
        let r := bits (field d 32 4) 0 20
        let word := toLe 8 (field d 18 2 + 2 ^ 63 * b2n part)
        let g := { x.eng with waiting := false, shortfall := some short, dovf := part }
        s.sendPiece n g (BitVec.ofNat 64 (s.g F.die * 2 ^ 50 + field d 24 8)) r 0 (rectCount r) word

/-- Start the engine of the descriptor in execution of ring `n`, by its type. -/
def State.startDesc (s : State) (n : Nat) (x : Exec) : State :=
  let d := x.desc
  let c := s.ringCtx n
  match dType d with
  | 0 => s.setEnd n (mkEnd 0 0 0)
  | 1 =>
    let s := s.startEng n
    let s := forN 8 (fun w s => s.put (F.kDesc c.num w) (field d (8 * w) 8)) s
    let s := ((s.put (F.kFull c.num) 1).put (F.kTaken c.num) 0).put (F.kExpired c.num) 0
    (s.put (F.kRing c.num) n).put (F.kIndex c.num) x.index.toNat
  | 3 =>
    let r := (layoutAt d 32).rect
    let inside := rectX0 r ≤ s.g F.coordX && s.g F.coordX ≤ rectX1 r && rectY0 r ≤ s.g F.coordY && s.g F.coordY ≤ rectY1 r
    if inside then (s.startEng n).runEngine n else s.setEnd n (mkEnd 0 0 0)
  | 5 =>
    let root := bit (field d 20 1) 2
    match s.dmaRead n c ((s.lmOff (BitVec.ofNat 64 (field d 24 8))).getD benchBase) (field d 32 4) with
    | (.error st, s) => s.setEnd n (mkEnd st 0 0)
    | (.ok b, s) =>
      let s := s.sendPly n x.eng (field d 16 2) (field d 18 2) (field d 20 1 % 4) root b
      if root then s else s.setEnd n (mkEnd 0 0 0)
  | 6 =>
    let root := bit (field d 20 1) 0
    let s := s.sendPly n x.eng (field d 16 2) (field d 18 2) 2 root (toLe 4 1)
    if root then s else s.checkRelease n
  | 7 =>
    let s := (s.tally (ringFlits n) 1).injectSkein (field d 16 2) (field d 22 2 % 4096) (field d 18 4 % 2 ^ 21)
    s.setEnd n (mkEnd 0 0 0)
  | _ => (s.startEng n).runEngine n

/-- A fresh engine. -/
def Engine.fresh : Engine :=
  { started := false, row := 0, pos := 0, outst := [], pieces := [], drops := 0, dovf := false, missed := 0,
    waiting := false, shortfall := none }

/-- The answer of a node to a request of ring `n`: READ_DATA, WRITE_ACK or FENCED (R398, R400, R404). -/
def State.ringAnswer (s : State) (n : Nat) (p : Packet) : State :=
  match (s.ring n).exec with
  | none => s
  | some x =>
    let g := x.eng
    match g.pieces.find? fun q => q.tag = p.tag with
    | some q =>
      let ok := p.ty = 4 && p.status = 0
      let all := p.ty = 4 && p.status = stMalformed
      let got := if all then q.need else q.got + 1
      let miss := if all then q.need - q.got else if ok then 0 else 1
      let done := got ≥ q.need
      let s := if done then s.settled p.tag else s
      let g := { g with missed := g.missed + miss,
                        pieces := if done then g.pieces.filter fun k => k.tag ≠ p.tag
                                  else g.pieces.map fun k => if k.tag = p.tag then { k with got := got } else k }
      (s.setEng n g).runEngine n
    | none =>
      match g.outst.find? fun q => q.tag = p.tag with
      | none => s
      | some q =>
        let s := s.settled p.tag
        let rows := g.rowsDone
        if x.ended.isSome then s
        else if p.ty = 9 then s.setEnd n (mkEnd 0x05 0 rows)
        else if p.status ≠ 0 ∨ (q.write ∧ p.ty ≠ 4) ∨ (!q.write ∧ p.ty ≠ 2) then s.setEnd n (mkEnd 0x04 p.status.toNat rows)
        else
          let g' := { g with outst := g.outst.filter fun k => k.tag ≠ p.tag }
          if q.write then (s.setEng n g').runEngine n
          else
            match s.dmaWrite n (s.ringCtx n) q.off (slice p.payload 0 q.len) with
            | (some st, s) => s.setEnd n (mkEnd st 0 rows)
            | (none, s) => (s.setEng n g').runEngine n

/-- An MC_DROP for a piece of ring `n`: its nodes are missed and the drop list gains an entry (R345, R400).
DESIGN CHOICE (assumption 22). -/
def State.ringDrop (s : State) (n : Nat) (p : Packet) : State :=
  match (s.ring n).exec with
  | none => s
  | some x =>
    let g := x.eng
    match g.pieces.find? fun q => q.tag = p.tag with
    | none => s
    | some q =>
      let cnt := bits p.aux.toNat 20 11
      let got := q.got + cnt
      let done := got ≥ q.need
      let s := if done then s.settled p.tag else s
      let pieces := if done then g.pieces.filter fun k => k.tag ≠ p.tag
                    else g.pieces.map fun k => if k.tag = p.tag then { k with got := got } else k
      let g := { g with missed := g.missed + cnt, pieces := pieces }
      if dType x.desc ≠ 4 ∨ x.ended.isSome then (s.setEng n g).runEngine n
      else
        let dl := field x.desc 48 8
        if dl = 0 ∨ g.drops ≥ 16 then (s.setEng n { g with dovf := true }).runEngine n
        else
          let e := p.aux.toNat % 2 ^ 31 + 2 ^ 32 * (256 * q.piece)
          match s.dmaWrite n (s.ringCtx n) ((s.lmOff (BitVec.ofNat 64 dl)).getD benchBase + 8 * g.drops) (toLe 8 e) with
          | (none, s) => (s.setEng n { g with drops := g.drops + 1 }).runEngine n
          | (some st, s) =>
            let s := if st = 2 then
                s.tick.record { source := Config.dropSource.toNat, cls := 2, ctx := some (s.ringCtx n),
                                info := (Config.freeWord s.fresh).toNat % 2 ^ 32, addr := dl + 8 * g.drops }
              else s
            (s.setEng n { g with dovf := true }).runEngine n

/-! ### Kernels (R396, R397) -/

/-- A write of QE_KDONE by its context (R397). DEDUCED (assumption 45). -/
def State.kdone (s : State) (c : CtxId) (status : Nat) : State :=
  let i := c.num
  if !s.is (F.kFull i) then s
  else
    let empty (s : State) : State :=
      let v := (Config.freeWord s.fresh).setWidth 32
      let s := { s.tick with core := (match c with
        | .c0 => { s.core with kenergy0 := v }
        | .c1 => { s.core with kenergy1 := v }) }
      (s.put (F.kFull i) 0).put (F.kExpired i) 0
    if s.is (F.kExpired i) then empty s
    else
      let st := if status = 0 ∨ status ≥ 0x80 then status else 0x80
      empty (s.finish (s.g (F.kRing i)) (mkEnd st 0 0))

end Sys2Proof.Machine
end

