-- ==== Sys2Proof/Machine/Link.lean ====
section
/-! DEFINITION. The edge adapter of a port strapped 01: link states, frames, acknowledgement and replay, credits,
lane and channel retirement, width change (R354 to R379). -/

namespace Sys2Proof.Machine

/-! ### States and masks (R368, R369) -/

/-- Does a port have an edge adapter? -/
def State.isLink (s : State) (p : Port) : Bool := s.portMode p = 1

/-- LNK_STAT.STATE of a port. -/
def State.linkSt (s : State) (p : Port) : Nat := s.g (F.lState p.num)

/-- Lanes in use. -/
def State.linkMask (s : State) (p : Port) : BitVec 4 := BitVec.ofNat 4 (s.g (F.lMask p.num))

/-- Healthy lanes. -/
def State.linkHealthy (s : State) (p : Port) : BitVec 4 := BitVec.ofNat 4 (s.g (F.lHealthy p.num))

/-- The lanes of a mask, ascending. -/
def lanesOf (m : BitVec 4) : List Nat := (List.range 4).filter fun l => m.getLsbD l

/-- The mask of a list of lanes. -/
def laneMask (l : List Nat) : BitVec 4 := l.foldl (fun m i => m ||| (1 <<< i)) 0

/-- narrow() (R369); 0 is no mask. -/
def narrow (m : BitVec 4) : BitVec 4 :=
  let l := lanesOf m
  if l.length = 4 then m else laneMask (l.take 2)

/-- The link is aligning: ALIGN, or the first part of RETRAIN. -/
def State.linkAligning (s : State) (p : Port) : Bool :=
  s.linkSt p = 3 || (s.linkSt p = 6 && (s.lnk p).matched < 16)

/-- The link exchanges CAP frames: CAP, or the second part of RETRAIN. -/
def State.linkCapping (s : State) (p : Port) : Bool :=
  s.linkSt p = 4 || (s.linkSt p = 6 && 16 ≤ (s.lnk p).matched)

/-- Set a bit of LNK_EVT: 0 UP, 1 DOWN, 2 RETIRE, 3 WIDTH, 4 FAIL (R378). -/
def State.linkEvent (s : State) (p : Port) (e : Nat) : State := s.put (F.lEvt p.num e) 1

/-- The lanes whose PHY_LSTAT bits are all 1 (R358). -/
def healthyOf (v : BitVec 16) : BitVec 4 := laneMask ((List.range 4).filter fun l => bits v.toNat (4 * l) 4 = 15)

/-- Healthy lanes, less those a retirement under v1 has marked unhealthy (R358, R374). -/
def LinkPort.healthy (x : LinkPort) : BitVec 4 := healthyOf x.lstat &&& ~~~x.sick

/-- The lanes alignment may use: healthy, not retired, and within the mask a RETRAIN is held to (R369, R373, R374). -/
def LinkPort.usable (x : LinkPort) : BitVec 4 := x.healthy &&& ~~~x.retired &&& (if x.limit = 0 then 0xF else x.limit)

/-- PHY_LSTAT or the marks of an adapter change: LNK_STAT.HEALTHY follows, and PHY_LANE_EN in ALIGN (R358, R368). -/
def State.linkHealth (s : State) (p : Port) (x : LinkPort) : State :=
  (s.put (F.lHealthy p.num) x.healthy.toNat).setLnk p
    (if s.linkSt p = 3 then { x with laneEn := x.healthy &&& ~~~x.retired } else x)

/-- Enter a state: INSVC follows it but in a detach, and the state timer restarts (R368, R375). -/
def State.linkEnter (s : State) (p : Port) (st : Nat) : State :=
  let s := (s.put (F.lState p.num) st).put (F.lInsvc p.num) (b2n ((st = 5 || st = 6) && !(s.lnk p).detaching))
  s.setLnk p { s.lnk p with timer := 0 }

/-- PHY held in reset, no lane enabled or in use; a PHY in reset shows no lane healthy. PRESUMED (assumption 47). -/
def State.linkDark (s : State) (p : Port) : State :=
  let s := (s.put (F.lMask p.num) 0).put (F.lHealthy p.num) 0
  s.setLnk p { s.lnk p with
    rstN := false, laneEn := 0, wreq := false, wack := false, wmask := 0, detaching := false, lstat := 0, okTicks := [],
    lostNow := 0, critNow := false, owing := 0, limit := 0, txd := [], txRest := [], txPos := 0,
    rxMask := 0, rxWords := [], rxPos := 0, rxRest := [], rxTry := [] }

/-- Enter RESET: RATE takes effect and retired lanes may be used again (R358, R373). -/
def State.linkUp (s : State) (p : Port) : State :=
  let s := (s.linkDark p).linkEnter p 1
  s.setLnk p { s.lnk p with rate := s.is (F.lRate p.num), retired := 0, sick := 0 }

/-- Enter DISABLED, and leave it at once when EN = 1 and the router is ready. -/
def State.linkDisabled (s : State) (p : Port) : State :=
  if s.is (F.lEn p.num) && s.up.ready then s.linkUp p else (s.linkDark p).linkEnter p 0

/-- Enter RETRAIN, held to the mask `limit` where it is not 0 (R370, R374, R377): replay buffer, SEQ, E and credits are kept. -/
def State.linkRetrain (s : State) (p : Port) (limit : BitVec 4) : State :=
  let s := (s.linkEnter p 6).sat (F.lRetrain p.num) 1
  s.setLnk p { s.lnk p with matched := 0, capGot := false, capAck := false, capSent := false, limit := limit,
                            wreq := false, wack := false, wmask := 0, crcRun := 0, rxTry := [] }

/-- Enter CAP from alignment on mask `t`: from WAIT_PHY everything starts from 0, through RETRAIN it is kept (R369). The word
streams of both directions start anew on `t` (R356, R369). PHY_LANE_EN stays as it is in RETRAIN (R368). -/
def State.linkCap (s : State) (p : Port) (t : BitVec 4) : State :=
  let fresh := s.linkSt p = 3
  let s := s.put (F.lMask p.num) t.toNat
  let x := { s.lnk p with
    laneEn := if fresh then t else (s.lnk p).laneEn, capGot := false, capAck := false, capSent := false, wmask := 0, limit := 0, txd := [], txRest := [], txPos := 0,
    rxMask := t, rxWords := [], rxPos := 0, rxRest := [], rxTry := [] }
  if fresh then
    (s.linkEnter p 4).setLnk p { x with
      timer := 0, nextSeq := 0, expect := 0, ackV := false, replay := [], again := [], repEnds := [], rxCred := [], freed := [],
      placed := [], freedHere := [], partial0 := [], nakOut := false, nakSend := false, crcRun := 0, repAge := 0,
      retrain := false, nullSent := true,
      packets := x.packets.map (fun k => { k with flits := toFlits k.pkt, started := false, last := none }),
      inbound := x.inbound.map fun e => (e.1, 0) }
  else s.setLnk p x

/-! ### Leaving service (R375) -/

/-- The entries of a channel's buffers the packets of an adapter still occupy. -/
def owedOf (l : List TxPacket) (v : Nat) : Nat := ((l.filter fun k => k.pkt.vc.toNat = v).map fun k => k.owed).foldl (· + ·) 0

/-- The adapter has freed buffer entries: the credits go back to the router (R46, R354). `old` is what it held before. -/
def State.linkFreed (s : State) (p : Port) (old : List TxPacket) : State :=
  let now := (s.lnk p).packets
  { s with rtr := { s.rtr with credits := (List.range 4).foldl (fun t v =>
      tput 0 t (4 * p.num + v) (tget 0 t (4 * p.num + v) + (owedOf old v - owedOf now v))) s.rtr.credits } }

/-- Step 3 and 4: every packet not wholly acknowledged goes back to the router with EXIT naming this node, and
partly received packets are discarded. The number of packets taken back. -/
def State.takeBack (s : State) (p : Port) : Nat × State :=
  let x := s.lnk p
  let node := BitVec.ofNat 10 (s.g F.node)
  let back := x.packets.map fun k => ({ k.pkt with exitN := node, exitP := BitVec.ofNat 2 p.num, exitV := true }, 0)
  let s := s.setLnk p { x with packets := [], replay := [], again := [], repEnds := [], partial0 := [], inbound := x.inbound ++ back }
  (back.length, (s.linkFreed p x.packets).sat (F.lReinj p.num) back.length)

/-- Steps 3 to 5 of a detach, ending in DISABLED when EN was cleared and in DETACHED otherwise. -/
def State.detachEnd (s : State) (p : Port) (disable : Bool) : State :=
  let served := s.linkSt p = 5 || s.linkSt p = 6
  let s := (s.put (F.lInsvc p.num) 0).takeBack p |>.2
  let s := if served then s.linkEvent p 1 else s
  if disable then s.linkDisabled p else (s.linkDark p).linkEnter p 7

/-- Enter RESET, or end a detach in DISABLED (R368, R375). -/
def State.linkReset (s : State) (p : Port) : State := if (s.lnk p).detaching then s.detachEnd p true else s.linkUp p

/-- Enter FAILED (R367), or end a detach in DISABLED. -/
def State.linkFailed (s : State) (p : Port) : State :=
  if (s.lnk p).detaching then s.detachEnd p true else ((s.linkDark p).linkEnter p 9).linkEvent p 4

/-- The record of a retired channel (R452). -/
def channelRec (p : Port) (n : Nat) : FaultRec :=
  { source := 0x0D, cls := 4, ctx := none, info := p.num + 2 ^ 16 * min n 65535, addr := 0 }

/-- Retire the channel (R372, R375); in a detach by EN = 0 the link ends in DISABLED. -/
def State.retireChannel (s : State) (p : Port) : State :=
  if (s.lnk p).detaching then
    let n := (s.lnk p).packets.length
    (s.detachEnd p true).record (channelRec p n)
  else
    let t := (s.put (F.lInsvc p.num) 0).takeBack p
    (((t.2.linkDark p).linkEnter p 8).linkEvent p 2).record (channelRec p t.1)

/-- A retired lane is recorded with the mask that follows it (R373, R452). -/
def State.laneRec (s : State) (p : Port) (hit m : BitVec 4) : State :=
  (lanesOf hit).foldl (fun s l =>
    s.record { source := 0x0C, cls := 4, ctx := none, info := p.num + 4 * l + 256 * m.toNat, addr := 0 }) s

/-- A lane criterion is met on lanes in use (R371, R374): in ACTIVE the mask narrows, in service under v2 and by RETRAIN
otherwise; while RETRAIN aligns, the alignment is held to the narrower mask; while capabilities are exchanged, the lanes are
retired on entry to ACTIVE. Without a lane left the channel is retired. DEDUCED (assumption 47). -/
def State.retireLanes (s : State) (p : Port) (lanes : BitVec 4) : State :=
  let x := s.lnk p
  let hit := lanes &&& s.linkMask p &&& ~~~x.retired
  if hit = 0 ∨ !(s.linkSt p = 5 || s.linkSt p = 6 || s.linkSt p = 4) then s
  else
    let now := if x.wreq || x.wack then x.wmask else if x.limit ≠ 0 then x.limit else s.linkMask p
    let m := narrow (now &&& ~~~hit &&& ~~~x.retired &&& ~~~x.owing)
    if m = 0 then s.retireChannel p
    else if s.linkCapping p then s.setLnk p { x with owing := x.owing ||| hit }
    else
      let s := s.laneRec p hit m
      let y := { s.lnk p with retired := x.retired ||| hit }
      if s.linkSt p = 6 then s.linkHealth p { y with sick := y.sick ||| hit, limit := m }
      else if x.hitless then s.setLnk p { y with wreq := true, wack := false, wackSent := false, wmask := m, wAge := 0, rxTry := [] }
      else (s.linkHealth p { y with sick := y.sick ||| hit, critNow := true }).linkRetrain p m

/-- Enter ACTIVE (R368, R370, R378), with the lanes in use enabled; lanes whose criterion was met before are retired now. -/
def State.linkActive (s : State) (p : Port) : State :=
  let x := s.lnk p
  let first := s.linkSt p = 4
  let s := if first then s.linkEvent p 0 else if x.oldMask = s.linkMask p then s else s.linkEvent p 3
  let s := s.linkEnter p 5
  let s := s.setLnk p { s.lnk p with
    oldMask := s.linkMask p, laneEn := s.linkMask p, crcRun := 0, owing := 0, retrain := !first, nullSent := first, again := if first then x.again else [] }
  s.retireLanes p x.owing

/-- The capability exchange is done when CAPACK = 1 was sent and received. -/
def State.linkCapDone (s : State) (p : Port) : State :=
  let x := s.lnk p
  if x.capGot && x.capAck && x.capSent then s.linkActive p else s

/-! ### Frames (R359 to R361) -/

/-- Payload bytes of a DATA or NULL frame. -/
def State.linkP (s : State) (p : Port) : Nat := if s.is (F.lPl128 p.num) then 128 else 256

/-- CRC-32 of a frame's header and payload (R359). -/
def frameCrc (l : List Byte) : Nat := (crc32 0xFFFFFFFF true 0xFFFFFFFF l).toNat

/-- A frame of a header word and a payload. -/
def mkFrame (hdr : Nat) (payload : List Byte) : List Byte :=
  let b := toLe 8 hdr ++ payload
  b ++ toLe 4 (frameCrc b)

/-- The header word of the next frame (R360, R362). -/
def State.frameHeader (s : State) (p : Port) (ftype seq : Nat) (slots : List Slot) : Nat :=
  let x := s.lnk p
  let v2 := s.g (F.lVer p.num) = 2
  ftype + 2 ^ 4 * seq + 2 ^ 16 * ((x.expect.toNat + 4095) % 4096) + 2 ^ 28 * b2n x.ackV + 2 ^ 29 * b2n x.nakSend
    + 2 ^ 30 * (2 ^ slots.length - 1)
    + 2 ^ 34 * ((List.range slots.length).foldl (fun a i => a + 4 ^ i * ((slots.map fun q => q.vc.toNat).getD i 0)) 0)
    + 2 ^ 42 * x.cvc.toNat + 2 ^ 44 * (tget 0 x.freedHere x.cvc.toNat % 4096)
    + (if v2 then 2 ^ 56 * b2n x.wreq + 2 ^ 57 * b2n x.wack + (if x.wreq || x.wack then 2 ^ 58 * x.wmask.toNat else 0) else 0)

/-- A 32-byte word of a byte list. -/
def wordAt (b : List Byte) (i : Nat) : BitVec 256 := BitVec.ofNat 256 (leNat ((b.drop (32 * i)).take 32))

/-- Bytes join the outgoing stream: whole words go to the lanes of mask `m` in turn, word w to the (w mod n)-th (R356); lanes
outside it carry nothing (R357). -/
def LinkPort.emit (x : LinkPort) (m : BitVec 4) (d : List Byte) : LinkPort :=
  let l := lanesOf m
  let b := x.txRest ++ d
  let k := b.length / 32
  let lane (i : Nat) : Nat := l.getD ((x.txPos + i) % l.length) 0
  { x with
    txd := (List.range k).foldl (fun t i => tput [] t (lane i) (tget [] t (lane i) ++ [wordAt b i])) x.txd,
    txRest := b.drop (32 * k), txPos := (x.txPos + k) % l.length }

/-- The stream is padded with 0 to the end of the PHY cycle (R377). -/
def LinkPort.pad (x : LinkPort) (m : BitVec 4) : LinkPort :=
  let n := (lanesOf m).length
  let x := if x.txRest = [] then x else x.emit m (List.replicate (32 - x.txRest.length) 0)
  if x.txPos = 0 then x else x.emit m (List.replicate (32 * (n - x.txPos)) 0)

/-- A frame goes out: NAKs are counted, CVC advances (R362), and its bytes join the stream (R356, R359). -/
def State.frameGoes (s : State) (p : Port) (ftype seq : Nat) (slots : List Slot) (payload : List Byte) : State :=
  let x := s.lnk p
  let f := mkFrame (s.frameHeader p ftype seq slots) payload
  let s := if x.nakSend then s.sat (F.lNak p.num) 1 else s
  s.setLnk p { LinkPort.emit { x with txd := [] } (s.linkMask p) f with
    frameOut := f, nakSend := false, cvc := x.cvc + 1, wackSent := x.wackSent || x.wack }

/-- The ALIGN word of a lane (R369). -/
def alignOf (lane : Nat) (mask : BitVec 4) : BitVec 256 :=
  BitVec.ofNat 256 (leNat [0x4C, 0x4E, 0x4B, 0x41, BitVec.ofNat 8 lane, BitVec.ofNat 8 mask.toNat])

/-- Every healthy lane sends an ALIGN word (R369). -/
def State.sendAlign (s : State) (p : Port) : State :=
  let x := s.lnk p
  s.setLnk p { x with txd := (lanesOf (x.healthy &&& ~~~x.retired)).map fun l => (l, [alignOf l x.usable]) }

/-- The payload that slots fill. -/
def slotBytes (n : Nat) (l : List Slot) : List Byte :=
  let b := l.flatMap fun q => flitBytes q.flit
  b ++ List.replicate (n - b.length) 0

/-- The sender's credit for a channel (R365). -/
def LinkPort.creditOf (x : LinkPort) (v : Nat) : Nat := tget 0 x.rxCred v + tget 0 x.freed v - tget 0 x.placed v

/-- May packet `k`, with the packets before it in `before`, place its next flit (R361, R365)? A packet goes on once started, and
else is the first of its buffer while no other of its channel is part placed. -/
def LinkPort.mayPlace (x : LinkPort) (before : List TxPacket) (k : TxPacket) : Bool :=
  let c := x.creditOf k.pkt.vc.toNat
  let mine (q : TxPacket) : Bool := q.pkt.vc = k.pkt.vc && !q.flits.isEmpty
  !k.flits.isEmpty &&
    (if k.started then 1 ≤ c
     else !(x.packets.any fun q => mine q && q.started) && !(before.any fun q => mine q && q.esc = k.esc)
       && (if k.pkt.xcls then flits k.pkt ≤ c else flits k.pkt + 5 ≤ c))

/-- Place one flit into frame `seq`, which frees its buffer entry: the slot, and the packets after it. -/
def LinkPort.place1 (x : LinkPort) (seq : BitVec 12) (before : List TxPacket) : List TxPacket → Option (Slot × List TxPacket)
  | [] => none
  | k :: r =>
    if x.mayPlace before k then
      match k.flits with
      | [] => none
      | f :: fs =>
        some (⟨k.pkt.vc, f⟩,
          before ++ { k with flits := fs, started := true, last := if fs.isEmpty then some seq else none, owed := k.owed - 1 } :: r)
    else LinkPort.place1 x seq (before ++ [k]) r

/-- The first packet of a channel in class 1 moves into the adapter's escape buffer (R327, R354). -/
def escFirst (v : Nat) : List TxPacket → List TxPacket
  | [] => []
  | k :: r => if k.pkt.vc.toNat = v && k.pkt.xcls && k.owed ≠ 0 then { k with owed := 0, esc := true } :: r else k :: escFirst v r

/-- Every free escape buffer takes what waits for it. -/
def LinkPort.escFill (x : LinkPort) : LinkPort :=
  { x with packets := (List.range 4).foldl (fun l v =>
      if l.any fun k => k.pkt.vc.toNat = v && k.esc && !k.flits.isEmpty then l else escFirst v l) x.packets }

/-- Fill up to `n` slots. -/
def LinkPort.fillSlots (seq : BitVec 12) : Nat → LinkPort → List Slot × LinkPort
  | 0, x => ([], x)
  | n + 1, x =>
    match x.place1 seq [] x.packets with
    | none => ([], x)
    | some (q, ps) =>
      let r := LinkPort.fillSlots seq n { x with
        packets := ps, placed := tput 0 x.placed q.vc.toNat (tget 0 x.placed q.vc.toNat + 1) }
      (q :: r.1, r.2)

/-- Send a frame of the replay buffer again (R364): its flits keep the mesh domain busy (R432). -/
def State.resend (s : State) (p : Port) (f : TxFrame) : State :=
  let s := (s.meshBusy.frameGoes p 1 f.seq.toNat f.slots (slotBytes (s.linkP p) f.slots)).sat (F.lTxData p.num) 1
  let x := s.lnk p
  s.setLnk p { x with replay := x.replay.map fun k => if k.seq = f.seq then { k with sends := k.sends + 1 } else k }

/-- Retire the channel when the oldest unacknowledged frame has been sent REPMAX + 1 times (R372). -/
def State.checkSends (s : State) (p : Port) : State :=
  match (s.lnk p).replay.head? with
  | some f => if s.g (F.lRepMax p.num) + 1 ≤ f.sends then s.retireChannel p else s
  | none => s

/-- A NULL frame. -/
def State.sendNull (s : State) (p : Port) : State :=
  let s := s.frameGoes p 0 0 [] (List.replicate (s.linkP p) 0)
  s.setLnk p { s.lnk p with nullSent := true }

/-- A new DATA frame, or a NULL frame when no flit may be sent (R362). The buffer entries it frees are credited. -/
def State.sendNew (s : State) (p : Port) : State :=
  let x := s.lnk p
  if 64 ≤ x.replay.length then s.sendNull p
  else
    let r := LinkPort.fillSlots x.nextSeq (s.linkP p / 64) x
    if r.1.isEmpty then s.sendNull p
    else
      let f : TxFrame := { seq := x.nextSeq, slots := r.1, sends := 1, age := 0 }
      let s := ((s.setLnk p r.2.escFill).linkFreed p x.packets).meshBusy
      let s := s.frameGoes p 1 x.nextSeq.toNat r.1 (slotBytes (s.linkP p) r.1)
      let s := s.sat (F.lTxData p.num) 1
      let y := s.lnk p
      (s.setLnk p { y with nextSeq := x.nextSeq + 1, replay := y.replay ++ [f],
                           repAge := if x.replay.isEmpty then 0 else y.repAge }).checkSends p

/-- The payload of a CAP frame (R366). -/
def State.capPayload (s : State) (p : Port) : List Byte :=
  let x := s.lnk p
  let die := if s.is F.dieValid then s.g F.die else 0xFFFF
  let v1 := s.g (F.lVer p.num) = 1 && (x.capGot || s.linkSt p = 6)
  [3, BitVec.ofNat 8 (s.g (F.lMask p.num)), 1, BitVec.ofNat 8 (b2n x.rate)] ++ toLe 4 (b2n !v1) ++ [32, 32, 32, 32] ++ toLe 2 die ++ toLe 2 (s.g F.node)
    ++ [BitVec.ofNat 8 p.num, BitVec.ofNat 8 (b2n x.capGot)] ++ List.replicate 238 0

/-- A detach by EN = 0: three DETACH frames once every frame is acknowledged or RETTO has passed; after the third the next frame's
turn ends it. -/
def State.sendDetach (s : State) (p : Port) : State :=
  let n := (s.lnk p).detSent
  if 3 ≤ n then s.detachEnd p true
  else
    let s := s.frameGoes p 3 0 [] (List.replicate (s.linkP p) 0)
    s.setLnk p { s.lnk p with detSent := n + 1 }

/-- The next frame of a link, or its ALIGN words (R362, R364, R366, R368, R370, R375). -/
def State.frameSend (s : State) (p : Port) : State :=
  let x := s.lnk p
  if s.linkAligning p then s.sendAlign p
  else if s.linkCapping p then
    let s := s.frameGoes p 2 0 [] (s.capPayload p)
    let s := s.setLnk p { s.lnk p with capSent := x.capSent || x.capGot }
    s.linkCapDone p
  else if s.linkSt p ≠ 5 then s
  else if x.retrain || !x.nullSent then s.sendNull p
  else
    match x.again.find? fun q => x.replay.any fun f => f.seq = q with
    | some q =>
      let rest := (x.again.dropWhile fun k => k ≠ q).drop 1
      match x.replay.find? fun f => f.seq = q with
      | some f => ((s.setLnk p { x with again := rest }).resend p f).checkSends p
      | none => s
    | none =>
      let s := s.setLnk p { x with again := [] }
      if x.detaching then
        if x.replay.isEmpty || s.g (F.lRetTo p.num) ≤ x.detAge then s.sendDetach p else s.sendNull p
      else s.sendNew p

/-! ### Receiving (R361, R363 to R367, R370, R377) -/

/-- Ask for a NAK (R363). -/
def LinkPort.wantNak (x : LinkPort) : LinkPort :=
  if x.nakOut then x else { x with nakSend := true, nakOut := true, nakAge := 0 }

/-- A cumulative acknowledgement (R364). -/
def LinkPort.ackTo (x : LinkPort) (seq : BitVec 12) : LinkPort :=
  if x.replay.any fun f => f.seq = seq then
    let keep := (x.replay.dropWhile fun f => f.seq ≠ seq).drop 1
    let gone := (x.replay.takeWhile fun f => f.seq ≠ seq).map (fun f => f.seq) ++ [seq]
    { x with replay := keep, repAge := 0, repEnds := x.repEnds.filter fun q => !gone.contains q,
             packets := x.packets.filter fun k => match k.last with
               | some q => !(gone.contains q)
               | none => true }
  else x

/-- Start a replay of every unacknowledged frame. -/
def LinkPort.replayAll (x : LinkPort) : LinkPort :=
  let l := x.replay.map fun f => f.seq
  { x with again := l, repAge := 0, repEnds := x.repEnds ++ l.getLast?.toList }

/-- The freed count of a channel, with wraps counted (R365). -/
def LinkPort.freedTo (x : LinkPort) (v ccnt : Nat) : LinkPort :=
  let f := tget 0 x.freed v
  { x with freed := tput 0 x.freed v (f + (ccnt + 4096 - f % 4096) % 4096) }

/-- A width change ends (R377, R378). -/
def State.widthDone (s : State) (p : Port) : State :=
  (s.setLnk p { s.lnk p with wreq := false, wack := false, wackSent := false, wmask := 0, oldMask := s.linkMask p, rxTry := [] }).linkEvent p 3

/-- The transmitter pads its stream and goes over to a mask (R377). -/
def State.useMask (s : State) (p : Port) (m : BitVec 4) : State :=
  if s.linkMask p = m then s
  else
    let x := (s.lnk p).pad (s.linkMask p)
    (s.put (F.lMask p.num) m.toNat).setLnk p { x with laneEn := m, txRest := [], txPos := 0 }

/-- A good frame with WREQ = 1 (R377): with a request of its own for another mask the two converge, else the side switches and
acknowledges. -/
def State.widthAsked (s : State) (p : Port) (m : BitVec 4) : State :=
  let x := s.lnk p
  if x.wreq && m ≠ x.wmask then
    let k := narrow (x.wmask &&& m)
    if k = 0 then s.linkReset p else s.setLnk p { x with wmask := k, wack := false, wackSent := false, rxTry := [] }
  else if x.wack && m = x.wmask then s
  else
    let s := s.useMask p m
    s.setLnk p { s.lnk p with wack := true, wackSent := false, wmask := m }

/-- The width-change fields of a good frame (R377): an acknowledgement of the mask asked for makes the side switch and ask no more;
one that owes an acknowledgement itself has finished once it has sent it. -/
def State.widthFields (s : State) (p : Port) (wreq wack : Bool) (m : BitVec 4) : State :=
  if s.g (F.lVer p.num) ≠ 2 ∨ !(s.lnk p).hitless then s
  else
    let s := if wreq then s.widthAsked p m else s
    let y := s.lnk p
    if wack && m = y.wmask && (y.wreq || y.wackSent) then
      let s := s.useMask p m
      if y.wack && !y.wackSent then s.setLnk p { s.lnk p with wreq := false } else s.widthDone p
    else if y.wackSent && y.rxMask = y.wmask then
      (if y.wreq then s.setLnk p { y with wack := false, wackSent := false } else s.widthDone p)
    else s

/-- A header's acknowledgement, which may end replays, and its credit field (R360, R362, R364, R365, R482). -/
def State.frameCredit (s : State) (p : Port) (h : Nat) : State :=
  let x := s.lnk p
  let open0 := x.repEnds.length
  let x := if bit h 28 then x.ackTo (BitVec.ofNat 12 (bits h 16 12)) else x
  let s := forN (open0 - x.repEnds.length) (fun _ s => s.sampleTime 0x05 fun f => bit f p.num) s
  s.setLnk p (x.freedTo (bits h 42 2) (bits h 44 12))

/-- The same with its NAK and width fields, which a CAP frame does not use. -/
def State.frameFields (s : State) (p : Port) (h : Nat) : State :=
  let s := s.frameCredit p h
  let nak := bit h 29
  let s := if nak then (s.setLnk p (s.lnk p).replayAll).sat (F.lReplay p.num) 1 else s
  s.widthFields p (bit h 56) (bit h 57) (BitVec.ofNat 4 (bits h 58 4))

/-- What the entry adapter changes on a packet: HOST, SHOST, EXITV, WPV and HOPS are cleared (R331, R337). -/
def entryClear (p : Packet) : Packet :=
  { p with host := false, shost := false, exitV := false, wpv := false, hops := 0 }

/-- One flit of an accepted frame; a packet now whole waits to enter the router (R355). -/
def State.acceptFlit (p : Port) (s : State) (q : Slot) : State :=
  let s := s.meshBusy
  let x := s.lnk p
  let v := q.vc.toNat
  let l := tget [] x.partial0 v ++ [q.flit]
  if l.length ≥ (match l.head? with | some h => flitCount h | none => 1) then
    s.setLnk p { x with partial0 := tput [] x.partial0 v [], inbound := x.inbound ++ [(entryClear (ofFlits q.vc l), l.length)] }
  else s.setLnk p { x with partial0 := tput [] x.partial0 v l }

/-- The slots of a DATA frame. -/
def slotsOf (h : Nat) (payload : List Byte) : List Slot :=
  ((List.range (payload.length / 64)).filter fun i => bit h (30 + i)).map fun i =>
    ⟨BitVec.ofNat 2 (bits h (34 + 2 * i) 2), flitOf (slice payload (64 * i) 64)⟩

/-- A good DATA frame (R363). -/
def State.dataGood (s : State) (p : Port) (h : Nat) (payload : List Byte) : State :=
  let x := s.lnk p
  let seq := BitVec.ofNat 12 (bits h 4 12)
  if seq = x.expect then
    let s := (s.setLnk p { x with expect := x.expect + 1, nakOut := false, ackV := true }).sat (F.lRxData p.num) 1
    (slotsOf h payload).foldl (State.acceptFlit p) s
  else if (x.expect - seq).toNat ≤ 64 then s
  else s.setLnk p x.wantNak

/-- A frame whose CRC fails, or of a reserved type (R360, R363, R372); eight in a row in ACTIVE lose frame sync (R370).
DEDUCED (assumption 47). -/
def State.frameBad (s : State) (p : Port) : State :=
  let s := s.sat (F.lCrcErr p.num) 1
  let active := s.linkSt p = 5
  let x := if active then (s.lnk p).wantNak else s.lnk p
  let x := { x with crcRun := if active then x.crcRun + 1 else 0, crcWin := x.crcWin + 1 }
  let s := s.setLnk p x
  if s.g (F.lCrcTh p.num) ≤ x.crcWin then s.retireChannel p
  else if active && 8 ≤ x.crcRun then s.linkRetrain p 0
  else s

/-- A good CAP frame while capabilities are exchanged (R366, R367). -/
def State.capGood (s : State) (p : Port) (b : List Byte) : State :=
  let i := p.num
  let x := s.lnk p
  let vers := field b 0 1 % 4
  let cred (v : Nat) := field b (8 + v) 1
  if vers = 0 ∨ field b 3 1 ≠ b2n x.rate ∨ (List.range 4).any (fun v => cred v = 0) then s.linkFailed p
  else
    let ver := if vers ≥ 2 then 2 else 1
    let s := (s.put (F.lVer i) ver).put (F.lPl128 i) (b2n (field b 2 1 = 0))
    let die := field b 12 2
    let s := (s.put (F.lPeerDie i) (die % 4096)).put (F.lPeerValid i) (b2n (die ≠ 0xFFFF))
    let s := (s.put (F.lPeerNode i) (field b 14 2 % 1024)).put (F.lPeerPort i) (field b 16 1 % 4)
    let x := s.lnk p
    (s.setLnk p { x with capGot := true, capAck := x.capAck || field b 17 1 = 1,
                         hitless := ver = 2 && bit (field b 4 4) 0,
                         rxCred := [(0, cred 0), (1, cred 1), (2, cred 2), (3, cred 3)] }).linkCapDone p

/-- A good frame of an ACTIVE link. -/
def State.frameGood (s : State) (p : Port) (h : Nat) (payload : List Byte) : State :=
  let s := if h % 16 = 2 then s.frameCredit p h else s.frameFields p h
  match h % 16 with
  | 0 =>
    let x := s.lnk p
    if x.retrain then s.setLnk p { x.replayAll with retrain := false } else s
  | 1 => s.dataGood p h payload
  | 3 => s.detachEnd p (s.lnk p).detaching
  | _ => s

/-- The words on the lanes in turn, from the lane of position `pos` on, while the lane has one: the bytes, the words left and the
next position (R356). -/
def pullWords (l : List Nat) : Nat → Tab (List (BitVec 256)) → Nat → List Byte × Tab (List (BitVec 256)) × Nat
  | 0, q, pos => ([], q, pos)
  | n + 1, q, pos =>
    let lane := l.getD pos 0
    match tget [] q lane with
    | [] => ([], q, pos)
    | w :: r =>
      let t := pullWords l n (tput [] q lane r) ((pos + 1) % l.length)
      (toLe 32 w.toNat ++ t.1, t.2)

/-- What the lanes of a mask bring over some PHY cycles joins the received stream; a lane whose PHY_RXV is low brings nothing
(R356, R357). -/
def LinkPort.receive (x : LinkPort) (m : BitVec 4) (rx : List (List LaneWord)) : LinkPort :=
  let l := lanesOf m
  let q := l.foldl (fun t i => tput [] t i (tget [] t i ++ rx.filterMap fun c => c.getD i none)) x.rxWords
  let r := pullWords l ((q.map fun e => e.2.length).foldl (· + ·) 0) q x.rxPos
  { x with rxRest := x.rxRest ++ r.1, rxWords := r.2.1, rxPos := r.2.2 }

/-- The bytes of the frame the received stream begins with: 268 for a CAP frame and before a version is chosen (R359, R366). -/
def State.frameLen (s : State) (p : Port) (x : LinkPort) : Nat :=
  if (x.rxRest.headD 0).toNat % 16 = 2 ∨ !(s.linkSt p = 5 || x.capGot) then 268 else 12 + s.linkP p

/-- The first frame of the received stream, and the adapter with it taken off; none where it is not whole. -/
def State.rxTake (s : State) (p : Port) (x : LinkPort) : Option (List Byte × LinkPort) :=
  let n := s.frameLen p x
  if x.rxRest.length < n then none else some (x.rxRest.take n, { x with rxRest := x.rxRest.drop n })

/-- A frame's CRC passes and its type is not reserved (R359, R360). -/
def frameOk (f : List Byte) : Bool :=
  field f (f.length - 4) 4 = frameCrc (f.take (f.length - 4)) && field f 0 1 % 16 ≤ 3

/-- A good frame is acted on. -/
def State.rxGood (s : State) (p : Port) (f : List Byte) : State :=
  let body := f.take (f.length - 4)
  let h := field body 0 8
  let s := s.setLnk p { s.lnk p with crcRun := 0 }
  if s.linkSt p = 5 then s.frameGood p h (body.drop 8)
  else if h % 16 = 2 && s.linkCapping p then (s.frameCredit p h).capGood p (body.drop 8)
  else s

/-- An adapter that receives by a stream at the new mask. -/
def LinkPort.via (x : LinkPort) (t : RxStream) : LinkPort :=
  { x with rxMask := x.wmask, rxWords := t.words, rxPos := t.pos, rxRest := t.rest }

/-- The stream an adapter receives by. -/
def LinkPort.stream (x : LinkPort) : RxStream := { words := x.rxWords, pos := x.rxPos, rest := x.rxRest }

/-- The streams that may begin at the new mask, with the words just received; one of them may begin with those. -/
def LinkPort.tries (x : LinkPort) (rx : List (List LaneWord)) : List RxStream :=
  if (x.wreq || x.wack) && x.wmask ≠ x.rxMask then
    (x.rxTry ++ [RxStream.mk [] 0 []]).map fun t => (LinkPort.receive (x.via t) x.wmask rx).stream
  else []

/-- The first stream whose frame is good at the new mask: the frame, and the adapter that goes on by it. -/
def State.rxAnew (s : State) (p : Port) (x : LinkPort) (l : List RxStream) : Option (List Byte × LinkPort) :=
  l.findSome? fun t =>
    match s.rxTake p (x.via t) with
    | some (f, y) => if frameOk f then some (f, { y with rxTry := [] }) else none
    | none => none

/-- A frame that fails at the new mask ends where the stream's next one begins. -/
def State.rxOn (s : State) (p : Port) (x : LinkPort) (t : RxStream) : RxStream :=
  match s.rxTake p (x.via t) with
  | some (_, y) => y.stream
  | none => t

/-- The lanes bring words of a frame. While a width change is pending or acknowledged the frame is tried under the old mask and
under the new one, whose first good frame ends the old mask for reception (R377). DEDUCED (assumption 84). -/
def State.rxFrame (s : State) (p : Port) (rx : List (List LaneWord)) : State :=
  let x := s.lnk p
  if !(s.isLink p && (s.linkSt p = 5 || s.linkCapping p || (s.linkSt p = 6 && x.critNow))) then s
  else
    let old := x.receive x.rxMask rx
    let l := x.tries rx
    let kept := l.map (s.rxOn p x)
    match s.rxTake p old, s.rxAnew p x l with
    | some (f, y), new =>
      if frameOk f then (s.setLnk p ({ y with rxTry := [] } : LinkPort)).rxGood p f
      else
        match new with
        | some (f', y') => (s.setLnk p y').rxGood p f'
        | none => (s.setLnk p ({ y with rxTry := kept } : LinkPort)).frameBad p
    | none, some (f', y') => (s.setLnk p y').rxGood p f'
    | none, none => s.setLnk p { old with rxTry := kept }

/-! ### Alignment, timers and PHY events -/

/-- A lane brings its ALIGN word: byte 5 (R369). -/
def alignGot (rx : List LaneWord) (l : Nat) : Option (BitVec 4) :=
  match rx.getD l none with
  | none => none
  | some w =>
    let m := BitVec.ofNat 4 (bits w.toNat 40 4)
    if w = alignOf l m then some m else none

/-- The words one PHY cycle brings on the lanes. They match when every healthy lane brings its ALIGN word; the sixteenth match in
a row ends alignment (R369). -/
def State.alignWord (s : State) (p : Port) (rx : List LaneWord) : State :=
  if !(s.isLink p && s.linkAligning p) || rx.all (fun w => w.isNone) then s
  else
    let x := s.lnk p
    let ls := lanesOf (x.healthy &&& ~~~x.retired)
    match ls.head?.bind (alignGot rx) with
    | none => s.setLnk p { x with matched := 0 }
    | some theirs =>
      if ls.any fun l => (alignGot rx l).isNone then s.setLnk p { x with matched := 0 }
      else
        let s := s.setLnk p { x with matched := x.matched + 1, theirs := theirs }
        if x.matched + 1 < 16 then s
        else
          let t := narrow (x.usable &&& theirs)
          if t = 0 then s.linkReset p else s.linkCap p t

/-- PHY_LSTAT as the lanes show it (R51, R358). -/
def State.lanesShow (s : State) (p : Port) (v : BitVec 16) : State :=
  let x := s.lnk p
  s.linkHealth p { x with lstat := v, okTicks := x.okTicks.filter fun e => (healthyOf v).getLsbD e.1 }

/-- Bits of PHY_LSTAT fall (R371, R372, R375): with every lane in use in one AON tick the channel is retired, over several the
link detaches, else the lanes are retired. DEDUCED (assumption 47). -/
def State.laneLoss (s : State) (p : Port) (v : BitVec 16) : State :=
  if !s.isLink p then s
  else
    let x := s.lnk p
    let v := x.lstat &&& v
    let use := s.linkMask p
    let hit := healthyOf x.lstat &&& ~~~healthyOf v &&& use
    let s := s.lanesShow p v
    let s := s.setLnk p { s.lnk p with lostNow := x.lostNow ||| hit }
    if hit = 0 then s
    else if use &&& ~~~(x.lostNow ||| hit) = 0 then s.retireChannel p
    else if s.linkHealthy p &&& use = 0 then s.detachEnd p (s.lnk p).detaching
    else s.retireLanes p hit

/-- An uncorrectable codeword on a lane (R371). -/
def State.fecUnc (s : State) (p : Port) (l : BitVec 2) : State :=
  if !(s.isLink p && (s.lnk p).rstN) then s
  else
    let i := l.toNat
    let x := s.lnk p
    let n := tget 0 x.uncWin i + 1
    let s := (s.sat (F.lFecUnc p.num i) 1).setLnk p { x with uncWin := tput 0 x.uncWin i n }
    if s.g (F.lUncTh p.num) ≤ n then s.retireLanes p (1 <<< i) else s

/-- Corrected symbols on a lane (R371). -/
def State.fecCor (s : State) (p : Port) (l : BitVec 2) (count : Nat) : State :=
  if !(s.isLink p && (s.lnk p).rstN) then s
  else
    let i := l.toNat
    let x := s.lnk p
    let n := tget 0 x.corWin i + count
    let s := (s.sat (F.lFecCor p.num i) count).setLnk p { x with corWin := tput 0 x.corWin i n }
    if s.g (F.lCorTh p.num) ≤ n then s.retireLanes p (1 <<< i) else s

/-- An error window ends: lane criteria first, then the channel's (R371, R372). DEDUCED (assumption 47). -/
def State.windowEnd (s : State) (p : Port) : State :=
  let x := s.lnk p
  if !(s.isLink p && 1024 * max 1 (s.g (F.lWin p.num)) ≤ x.winTicks) then s
  else
    let bad := laneMask ((List.range 4).filter fun i =>
      (0 < tget 0 x.uncWin i && s.g (F.lUncTh p.num) ≤ tget 0 x.uncWin i)
        || (0 < tget 0 x.corWin i && s.g (F.lCorTh p.num) ≤ tget 0 x.corWin i))
    let chan := (s.linkSt p = 5 || s.linkSt p = 6 || s.linkSt p = 4) && 0 < x.crcWin && s.g (F.lCrcTh p.num) ≤ x.crcWin
    let s := s.setLnk p { x with winTicks := 0, crcWin := 0, uncWin := [], corWin := [] }
    if chan then s.retireChannel p else s.retireLanes p bad

/-- LNK_CTL is written: EN, RATE, REARM and RETIRE (R358, R368, R371, R375). -/
def State.lnkCtl (s : State) (p : Port) (v : Nat) : State :=
  let i := p.num
  let s := (s.put (F.lEn i) (b2n (bit v 0))).put (F.lRate i) (b2n (bit v 1))
  let s := s.retireLanes p (BitVec.ofNat 4 (bits v 4 4))
  let was := s.linkSt p
  if !bit v 0 then
    if was = 0 then s
    else if was = 5 ∨ was = 6 then
      if (s.lnk p).detaching then s
      else (s.put (F.lInsvc i) 0).setLnk p { s.lnk p with detaching := true, detSent := 0, detAge := 0 }
    else s.detachEnd p true
  else if was = 0 then s.linkDisabled p
  else if bit v 2 ∧ (was = 8 ∨ was = 9) then s.linkUp p
  else s

/-- One AON tick of an adapter's timers. -/
def State.linkTick (s : State) (p : Port) : State :=
  if !s.isLink p then s
  else
    let x := s.lnk p
    s.setLnk p { x with
      timer := x.timer + 1, nakAge := if x.nakOut then x.nakAge + 1 else 0,
      repAge := if x.replay.isEmpty then 0 else x.repAge + 1,
      replay := x.replay.map (fun f => { f with age := f.age + 1 }),
      winTicks := x.winTicks + 1, wAge := if x.wreq then x.wAge + 1 else 0,
      detAge := if x.detaching then x.detAge + 1 else 0, lostNow := 0, critNow := false,
      okTicks := (lanesOf (healthyOf x.lstat)).map fun l => (l, min 25 (tget 0 x.okTicks l + 1)) }

/-- The links of an enabled port leave DISABLED when the router becomes ready (R70, R368). -/
def State.linksReady (s : State) : State :=
  [Port.n, .e, .s, .w].foldl (fun s p => if s.isLink p && s.linkSt p = 0 && s.is (F.lEn p.num) then s.linkUp p else s) s

end Sys2Proof.Machine
end

