-- ==== Sys2Proof/Machine/Registers.lean ====
section
/-! DEFINITION. Access to control space: requesters, refusals, reads with their effects, writes with theirs, and the
remote requests that cover several registers (R14 to R19, R31, R322, R496 to R507). -/

namespace Sys2Proof.Machine

/-- Who makes a control-space access (R496). -/
inductive Acc where
  | loc (c : CtxId) (pl : Nat)
  | host
  | node
  | test
  deriving DecidableEq, Repr

/-- A local access at S or M. -/
def Acc.localS : Acc → Bool
  | .loc _ pl => 1 ≤ pl
  | _ => false

/-- A local access at M. -/
def Acc.localM : Acc → Bool
  | .loc _ pl => pl = 2
  | _ => false

/-- A local access of context `c` at S or M. -/
def Acc.own (a : Acc) (c : Nat) : Bool :=
  match a with
  | .loc d pl => d.num = c && 1 ≤ pl
  | _ => false

/-- The context a QE_ offset belongs to, with the offset inside its block, for the registers of R397. -/
def kernelReg (off : Nat) : Option Nat :=
  if 0x20200 ≤ off ∧ off < 0x20400 then
    let q := (off - 0x20200) % 0x100
    if q = 0x40 ∨ q = 0x48 ∨ q = 0x50 ∨ (0x80 ≤ q ∧ q < 0xC0) then some ((off - 0x20200) / 0x100) else none
  else none

/-- QE_CQPOP's context. -/
def cqPopReg (off : Nat) : Option CtxId :=
  if off = 0x20218 then some .c0 else if off = 0x20318 then some .c1 else none

/-- The LNK_ port an offset belongs to. -/
def linkOf (off : Nat) : Option Port :=
  if 0x40100 ≤ off ∧ off < 0x40500 then some (Port.named ((off - 0x40100) / 0x100)) else none

/-- The ring and the register offset within it. -/
def ringReg (off : Nat) : Option (Nat × Nat) :=
  if 0x20800 ≤ off ∧ off < 0x20A00 then some ((off - 0x20800) / 0x20, (off - 0x20800) % 0x20) else none

/-! ### Permission (R397, R409, R411, R434, R467, R487, R498, R499) -/

/-- May a requester read the register at an offset? DESIGN CHOICE (assumption 13). -/
def State.mayRead (_s : State) (a : Acc) (off : Nat) : Bool :=
  if a = .test ∨ (regInfo off).isNone ∨ off / 0x10000 = 0 ∨ (cqPopReg off).isSome then true
  else if (kernelReg off).isSome then (match a with | .loc _ _ => true | _ => false)
  else if off / 0x10000 = 9 then a.localM || a = .host
  else a.localS || a = .host

/-- Registers S of context `c` writes besides those of R498. -/
def State.sWrites (s : State) (c : CtxId) (off : Nat) : Bool :=
  (c = .c0 && (off = 0x10120 || off = 0x10128)) || (c = .c1 && (off = 0x10130 || off = 0x10138))
    || (match ringReg off with | some (n, q) => q = 0x10 && s.ringCtx n = c | none => false)
    || off = 0x20018 || off = F.qc c.num 0 || off = F.qc c.num 8 || off = F.qc c.num 0x10
    || (s.is F.obsScfg && ((0x80200 ≤ off && off < 0x81400) || off = 0x80048 || off = 0x80008))

/-- SEC_ registers only M on the node writes (R499). -/
def secLocal (off : Nat) : Bool :=
  off = 0x90000 || off = 0x90010 || off = 0x90018 || off = 0x90020 || (0x90040 ≤ off && off < 0x900B0)

/-- May a requester write the register at an offset? DESIGN CHOICE (assumption 13). -/
def State.mayWrite (s : State) (a : Acc) (off : Nat) : Bool :=
  if (regInfo off).isNone then true
  else if off = 0x58 ∨ off = 0x60 ∨ off = 0x68 then (a = .host || a = .test) && s.g F.stage = 2
  else if a = .test then true
  else if (kernelReg off).isSome then (match a with | .loc _ _ => true | _ => false)
  else if off / 0x10000 = 5 ∨ secLocal off then a.localM
  else a.localM || a = .host || (match a with | .loc c pl => pl = 1 && s.sWrites c off | _ => false)

/-! ### Reading -/

/-- The image named by ID_BOOT_ meets R83. -/
def bootOk (base len : Nat) : Bool := len ≠ 0 && len % 128 = 0 && base * 0x4000 + len ≤ benchBase

/-- B(CORE) (R188). DEDUCED (assumption 59). -/
def State.arbBound (s : State) : Nat :=
  2 * (s.g (F.arbW 1) + s.g (F.arbW 2) + s.g (F.arbW 3) + s.g (F.arbW 4) + s.g (F.arbW 5)) + 12

/-- The head of FLT_RX; of an empty queue, the last report removed (R415, R456). DEDUCED (assumption 44). -/
def State.rxHead (s : State) : List Byte := s.fltRx.headD s.fltRxLast

/-- What a register shows, before it is judged who may read it: fields the node computes, WO fields as 0. -/
def State.shown (s : State) (off : Nat) : Nat :=
  match regInfo off with
  | none => 0
  | some i =>
    let v := (s.reg off).toNat &&& (m64 ^^^ i.wo)
    match linkOf off with
    | some p => if s.isLink p then v else 0
    | none =>
      if 0x38000 ≤ off ∧ off < 0x40000 then (if s.hasDrt then v else 0)
      else if off = 0x20000 then v + s.qe.db.length
      else if off = 0x20048 then s.engBusy
      else if off = F.qc 0 8 then v + s.imqCount .c0
      else if off = F.qc 1 8 then v + s.imqCount .c1
      else if off = F.qc 0 0x10 then v + (s.cq .c0).length
      else if off = F.qc 1 0x10 then v + (s.cq .c1).length
      else if off = 0x50008 then s.arbBound % 256
      else if off = 0x50020 then s.held .c0 + 2 ^ 16 * s.held .c1
      else if off = 0xA0000 then v + 2 ^ 8 * s.faultCount
      else if 0xA0040 ≤ off ∧ off ≤ 0xA0058 then field s.rxHead (off - 0xA0040) 8
      else if off = 0xA0068 then s.fltRx.length
      else v

/-- What hardware has added to a register's RC fields in this AON tick: a read neither returns nor clears it (R18).
DEDUCED (assumption 76). -/
def State.addedNow (s : State) (off : Nat) : Nat := tget 0 s.up.aonAdd off

/-- What a requester that may read it reads, and the effects of the read: RC fields clear, QE_CQPOP gives its head.
DEDUCED (assumption 14). -/
def State.readReg (s : State) (a : Acc) (off : Nat) : Word × State :=
  match cqPopReg off with
  | some c => if a.own c.num then s.cqPop c else (0, s)
  | none =>
    match kernelReg off with
    | some c => if a = .test || a.own c then (BitVec.ofNat 64 (s.shown off), s) else (0, s)
    | none =>
      let v := s.shown off
      match regInfo off with
      | some i =>
        if i.rc = 0 || a = .test || (match linkOf off with | some p => !s.isLink p | none => false) then (BitVec.ofNat 64 v, s)
        else (BitVec.ofNat 64 (v - s.addedNow off), s.setReg off (BitVec.ofNat 64 (((s.reg off).toNat &&& (m64 ^^^ i.rc)) + s.addedNow off)))
      | none => (0, s)

/-! ### Writing -/

/-- Bits of RWL fields that a set LOCK freezes (R505). -/
def State.lockedBits (s : State) (off rwl : Nat) : Nat :=
  if (off = 0x100B0 && s.is F.spnLock) || (off = 0x80000 && s.is F.obsLock)
      || ((off = 0x90018 || off = 0x90120) && s.is F.secLock) then rwl else 0

/-- The performance events R486 defines. -/
def pcCodes : List Nat :=
  [0, 0x01, 0x02, 0x03, 0x04, 0x05, 0x10, 0x11, 0x12, 0x13, 0x14, 0x15, 0x20, 0x21, 0x22, 0x23, 0x24, 0x25,
   0x26, 0x28, 0x30, 0x31, 0x32, 0x38, 0x39, 0x3A, 0x3B, 0x3C, 0x3D, 0x40, 0x41, 0x42, 0x43, 0x44]

/-- The monitor sources R482 defines; 0 is the reset value. -/
def monSrcs : List Nat := [0x01, 0x02, 0x03, 0x04, 0x05, 0x10, 0x11, 0x12, 0x13]

/-- Fields of enumerated types at an offset that a reserved encoding leaves unchanged (R15): low bit, width, legal. -/
def enumFields (off : Nat) : List (Nat × Nat × (Nat → Bool)) :=
  if off = 0x20 then [(0, 4, fun v => v = 1 || v = 2)]
  else if off = 0x10008 then [(16, 2, fun v => v = 1 || v = 2)]
  else if off = F.qc 0 0 ∨ off = F.qc 1 0 then [(16, 8, fun v => 1 ≤ v && v ≤ 128)]
  else if 0x31000 ≤ off ∧ off < 0x31200 ∧ off % 16 = 0 then [(17, 3, fun v => v ≤ 4), (20, 2, fun v => v ≤ 2)]
  else if off = 0x50000 then (List.range 6).map fun i => (4 * i, 4, fun v => v ≠ 0)
  else if off = 0x80000 then [(18, 2, fun v => v ≤ 2)]
  else if 0x80200 ≤ off ∧ off < 0x80400 ∧ off % 0x20 = 0 then [(0, 8, fun v => pcCodes.contains v), (8, 2, fun v => v ≤ 2)]
  else if 0x80400 ≤ off ∧ off < 0x81400 ∧ off % 0x200 = 0 then [(5, 6, fun v => v ≤ 40), (16, 8, fun v => monSrcs.contains v)]
  else if 0x20800 ≤ off ∧ off < 0x20A00 ∧ off % 0x20 = 8 then [(4, 4, fun v => v = 0 || 4 ≤ v)]
  else []

/-- Put the old value back into every enumerated field that would take a reserved encoding. -/
def keepEnums (off old new : Nat) : Nat :=
  (enumFields off).foldl (fun v e => if e.2.2 (bits v e.1 e.2.1) then v else setBits v e.1 e.2.1 (bits old e.1 e.2.1)) new

/-- The W1C bits a write clears: none that hardware set in this AON tick (R16, R18). DEDUCED (assumption 76). -/
def State.cleared (s : State) (off : Nat) (i : RegInfo) (v : Nat) : Nat := v &&& i.w1c &&& (m64 ^^^ tget 0 s.up.aonSet off)

/-- The stored value after a write of `v`, by the types of the fields (R16). -/
def State.merged (s : State) (off : Nat) (i : RegInfo) (v : Nat) : Nat :=
  let old := (s.reg off).toNat
  let m := (i.rw ||| i.wo) &&& (m64 ^^^ s.lockedBits off i.rwl)
  let x := (old &&& (m64 ^^^ m)) ||| (v &&& m)
  keepEnums off old ((x &&& (m64 ^^^ s.cleared off i v)) ||| (v &&& i.w1s))

/-- A plain write of a register. -/
def State.plainWrite (s : State) (off : Nat) (v : Nat) : State :=
  match regInfo off with
  | some i => s.setReg off (BitVec.ofNat 64 (s.merged off i v))
  | none => s

/-- A measurement register as 48 bytes. -/
def State.measBytes (s : State) (i : Nat) : List Byte := (List.range 6).flatMap fun j => toLe 8 (s.g (F.meas i j))

/-- Extend a measurement register with 48 bytes (R85, R178). DEDUCED (assumption 55). -/
def State.extend (s : State) (i : Nat) (d : List Byte) : State :=
  let h := sha384 (s.measBytes i ++ d)
  forN 6 (fun j s => s.put (F.meas i j) (field h (8 * j) 8)) s

/-- Request a node-domain reset (R468); none while STAGE is FUSE (R90). -/
def State.requestReset (s : State) : State :=
  if s.g F.stage = 0 then s else { s with up := { s.up with phase := .requested } }

/-- Set a monitor's figures to their cleared values (R485). -/
def State.monClear (s : State) (i : Nat) : State :=
  let s := forN 16 (fun k s => s.setReg (F.mo i (0x100 + 8 * k)) 0) s
  let s := (s.put (F.monCount i) 0).put (F.monSum i) 0
  (s.put (F.monMin i) 0x7FFFFFFFFFFFFFFF).put (F.monMax i) 0x8000000000000000

/-- The mesh domain leaves its idle clock where a monitor or counter keeps it at 2.2 GHz (R483). -/
def State.meshKeeps (s : State) : State := if s.meshKept then s.meshBusy else s

/-- Zero key slot `c` (R177). -/
def State.keyClear (s : State) (c : Nat) : State :=
  (forN 4 (fun j s => s.put (F.key c j) 0) s).put (F.keyValid c) 0

/-- Zero the fence key (R467). -/
def State.fcClear (s : State) : State := (forN 4 (fun j s => s.put (F.fcKey j) 0) s).put F.fcKeyValid 0

/-- A write of QE_RINGn_CFG (R384): EN 0 to 1 sets the pointers to 0; while EN = 1 only EN, CLASS and SHARE change. -/
def State.ringCfg (s : State) (n v : Nat) : State :=
  let off := F.qr n 8
  let was := s.is (F.rEn n)
  let old := (s.reg off).toNat
  let share0 := s.g (F.rShare n) = 0
  let s := if was then s.plainWrite off (setBits (setBits (setBits v 1 1 (bits old 1 1)) 4 4 (bits old 4 4)) 8 2 (bits old 8 2))
           else s.plainWrite off v
  let s := if share0 ∧ s.g (F.rShare n) ≠ 0 then
      let full : Nat := max 1 (s.g F.cap) * 256 * s.g (F.rShare n) / 256
      (s.setRing n { s.ring n with level := full }).put (F.ringLevel n) full
    else if s.g (F.rShare n) = 0 then (s.setRing n { s.ring n with level := 0 }).put (F.ringLevel n) 0
    else s
  if !was && s.is (F.rEn n) then
    let s := (s.put (F.rHead n) 0).put (F.rTail n) 0
    s.setRing n { s.ring n with phase := true }
  else s

/-- A write of QE_RINGn_PTR.TAIL (R387). DEDUCED (assumption 44). -/
def State.ringTail (s : State) (n v : Nat) : State :=
  let t := bits v 16 16
  if t < s.ringSize n then s.applyTail n t else s

/-- A write of QE_MBOX_ACK (R409): S clears only the slots of its own context. DEDUCED (assumption 44). -/
def State.mboxAck (s : State) (a : Acc) (v : Nat) : State :=
  let m := (List.range 8).foldl (fun m i =>
    if bit v i && (match a with | .loc c pl => pl = 2 || s.mboxOwned i c | _ => true) then setBits m i 1 0 else m) (s.g F.mboxReady)
  s.put F.mboxReady m

/-- A write of SPN_PSCMD (R430). -/
def State.psCommand (s : State) (v : Nat) : State :=
  let c := v % 8
  if c = 0 ∨ c = 3 ∨ c = 4 then (s.put F.psCmd c).put F.psPend (b2n (c ≠ 0)) else s

/-- A write of RTR_PORTFAIL: a drained port whose bit clears waits for its gap (R459). -/
def State.portFailWrite (s : State) (v : Nat) : State :=
  let s' := s.plainWrite 0x30038 v
  let gone := s.rtr.draining &&& ~~~(BitVec.ofNat 4 v)
  { s' with rtr := { s'.rtr with drainEnd := s.rtr.drainEnd ||| gone } }

/-- GO of ID_BOOT_GO, judged already (R85). -/
def State.bootGo (s : State) : State := s.put F.stage 3

/-- Would the write of `v` at an offset be refused by the register's own rule, on the values the same request
writes (R83, R502)? -/
def State.ownRefuses (s : State) (off v : Nat) (ws : List (Nat × Nat)) : Bool :=
  let val (o : Nat) (f : Fld) : Nat :=
    match ws.find? fun e => e.1 = o with
    | some e => bits e.2 f.lo f.w
    | none => s.g f
  off = 0x68 && bit v 0 && !bootOk (val 0x58 F.bootBase) (val 0x60 F.bootLen)

/-- Write a register as a requester that may. DEDUCED (assumption 14). DEDUCED (assumption 55). -/
def State.writeReg (s : State) (a : Acc) (off : Nat) (w : Word) : State :=
  let v := w.toNat
  if (regInfo off).isNone then s
  else
    match kernelReg off with
    | some c =>
      if a = .test || a.own c then
        (if off = F.qc c 0x50 then s.kdone (CtxId.named c) (v % 256) else s.plainWrite off v) else s
    | none =>
      match ringReg off with
      | some (n, q) =>
        if q = 0 then (if s.is (F.rEn n) then s else s.plainWrite off v)
        else if q = 8 then s.ringCfg n v
        else if q = 0x10 then s.ringTail n v
        else s.plainWrite off v
      | none =>
        match linkOf off with
        | some p => if !s.isLink p then s else if off % 0x100 = 0 then s.lnkCtl p v else s.plainWrite off v
        | none =>
          if off = 0x20 then (if (List.range 16).any fun n => s.is (F.rEn n) then s else s.plainWrite off v)
          else if off = 0x68 then (if bit v 0 && s.g F.stage = 2 then s.bootGo else s)
          else if off = 0x10010 then s.psCommand v
          else if off = 0x10028 then (if bit v 0 && 3 ≤ s.power then { s with spn := { s.spn with wakeSrc := 6 } } else s)
          else if off = 0x10040 then
            let s := s.plainWrite off v
            { s with spn := { s.spn with epochE := 0, epochTicks := 0 } }
          else if off = 0x10100 ∨ off = 0x10110 ∨ off = 0x10120 ∨ off = 0x10130 then
            let i := (off - 0x10100) / 16
            let s := (s.plainWrite off v).put (F.cmpHit i) 0
            { s with spn := { s.spn with matched := BitVec.ofNat 4 (setBits s.spn.matched.toNat i 1 0) } }
          else if off = 0x20018 then s.mboxAck a v
          else if off = 0x30038 then s.portFailWrite v
          else if 0x38000 ≤ off ∧ off < 0x40000 then
            (if s.hasDrt then (s.plainWrite off v).tblWritten (tblEntry (off - 0x30000)) else s)
          else if 0x30000 ≤ off ∧ off < 0x31200 then (s.plainWrite off v).tblWritten (tblEntry (off - 0x30000))
          else if off = 0x80040 then (if bit v 16 then s.swTrigger (v % 65536) else s)
          else if 0x80400 ≤ off ∧ off < 0x81400 ∧ off % 0x200 = 0 then
            let s := (s.plainWrite off v).meshKeeps
            if bit v 1 then s.monClear ((off - 0x80400) / 0x200) else s
          else if 0x80200 ≤ off ∧ off < 0x80400 then (s.plainWrite off v).meshKeeps
          else if off = 0x90010 then
            let s := if bit v 0 then s.keyClear 0 else s
            if bit v 1 then s.keyClear 1 else s
          else if off = 0x90018 then
            let was := s.is F.dbgEn
            let s := s.plainWrite off v
            if !was && s.is F.dbgEn then s.extend 3 (sha384 (toLe 8 v)) else s
          else if off = 0x90020 then
            if bit v 8 && !s.is F.extBusy then
              { s.put F.extBusy 1 with up := { s.up with extIdx := BitVec.ofNat 2 v } } else s
          else if 0x90040 ≤ off ∧ off < 0x90080 then
            let c := (off - 0x90040) / 0x20
            if s.is (F.keyValid c) then s
            else
              let s := s.plainWrite off v
              if off % 0x20 = 0x18 then s.put (F.keyValid c) 1 else s
          else if 0x90080 ≤ off ∧ off < 0x900B0 then (if s.is F.extBusy then s else s.plainWrite off v)
          else if 0x90100 ≤ off ∧ off < 0x90120 then
            if s.is F.fcKeyValid then s
            else
              let s := s.plainWrite off v
              if off = 0x90118 then s.put F.fcKeyValid 1 else s
          else if off = 0x90128 then (if bit v 0 then s.fcClear else s)
          else if off = 0xA0028 then (if bit v 0 then s.requestReset else s)
          else if off = 0xA0060 then
            if !bit v 0 then s
            else
              match s.fltRx with
              | [] => s.hwSet F.rxUdr
              | e :: r => { s with fltRx := r, fltRxLast := e }
          else s.plainWrite off v

/-! ### Remote requests (R84, R340, R431, R463, R472, R500, R502) -/

/-- How a remote request to control space fares before the rules of R496 to R505. -/
inductive Serve where
  | ok
  | fenced
  | refused
  deriving DecidableEq, Repr

/-- Does a request of `n` bytes at an offset cover none but ID_BOOT_BASE, ID_BOOT_LEN and ID_BOOT_GO? -/
def bootRegs (off n : Nat) : Bool := 0x58 ≤ off && off + n ≤ 0x70

/-- Stage, fence and power rules for a request of `n` bytes to a control-space window. -/
def State.serveCtrl (s : State) (off n : Nat) (write : Bool) : Serve :=
  let b := off / 0x10000
  let st := s.g F.stage
  let lmLike := 5 ≤ b ∧ b ≤ 7
  if b = 10 ∨ (b = 0 ∧ !write) then .ok
  else if st = 0 ∨ st = 1 ∨ st = 8 then (if bootRegs off n then .refused else .fenced)
  else if (st = 2 ∨ st = 3) ∧ s.isFenced ∧ lmLike then .fenced
  else if st = 2 then (if bootRegs off n then .ok else .refused)
  else if st = 3 then .refused
  else if s.isFenced ∧ lmLike then .fenced
  else if 3 ≤ s.power ∧ lmLike then .refused
  else .ok

/-- The offsets of the registers a request covers. -/
def covered (off n : Nat) : List Nat := (List.range (n / 8)).map fun i => off + 8 * i

/-- Width and span of a remote request (R502): its STATUS, OK where it meets them. -/
def spanStatus (off n : Nat) : BitVec 8 :=
  if off % 8 ≠ 0 ∨ n % 8 ≠ 0 ∨ n = 0 then stAlign
  else if off / 0x10000 ≠ (off + n - 1) / 0x10000 ∨ n > 256 then stRefused
  else stOk

/-- Read several registers in ascending offset. -/
def State.readRegs (s : State) (a : Acc) : List Nat → List Byte × State
  | [] => ([], s)
  | o :: r =>
    let x := s.readReg a o
    let y := x.2.readRegs a r
    (toLe 8 x.1.toNat ++ y.1, y.2)

/-- A remote READ of control space: the bytes, or a STATUS. -/
def State.remoteRead (s : State) (host : Bool) (off n : Nat) : Except (BitVec 8) (List Byte) × State :=
  let a := if host then Acc.host else Acc.node
  if spanStatus off n ≠ stOk then (.error (spanStatus off n), s)
  else if (covered off n).all fun o => s.mayRead a o then
    let r := s.readRegs a (covered off n)
    (.ok r.1, r.2)
  else (.error stRefused, s)

/-- A remote WRITE of control space: its STATUS. -/
def State.remoteWrite (s : State) (host : Bool) (off : Nat) (d : List Byte) : BitVec 8 × State :=
  let a := if host then Acc.host else Acc.node
  let n := d.length
  let ws := (covered off n).map fun o => (o, field d (o - off) 8)
  if spanStatus off n ≠ stOk then (spanStatus off n, s)
  else if ws.all fun e => s.mayWrite a e.1 && !s.ownRefuses e.1 e.2 ws then
    (stOk, ws.foldl (fun s e => s.writeReg a e.1 (BitVec.ofNat 64 e.2)) s)
  else (stRefused, s)

/-! ### Answers -/

/-- A request of the node is answered with a STATUS: an error response, or for a DOORBELL, MSG or sink write the
count and record of a refusal (R322, R323). DEDUCED (assumption 53). -/
def State.refuse (s : State) (p : Packet) (st : BitVec 8) : State :=
  if p.ty = 6 ∨ p.ty = 7 ∨ isSink p then
    let s := if p.ty = 3 then s else s.sat F.refCnt 1
    if st = stData then s
    else s.record { source := 0x08, cls := 2, ctx := none, info := p.ty.toNat + 2 ^ 10 * p.src.toNat, addr := p.dst.toNat }
  else s.sendError p st

/-- The acknowledgement of a write, none for a sink write. -/
def State.ackWrite (s : State) (p : Packet) : State := if isSink p then s else s.sendAck p stOk

/-! ### Register commands -/

/-- The accessor of a register command: `core` is the issuing context at its level. -/
def State.accOf (s : State) : Requester → Acc
  | .core => .loc s.core.cur s.cx.pl.toNat
  | .host => .host
  | .node => .node

/-- Can the requester's access come to the node now: the core issues, or packets are routed to L? -/
def State.comes (s : State) (who : Requester) : Bool :=
  match who with
  | .core => s.canIssue
  | _ => s.is F.coordValid && s.is F.dieValid && s.up.ready

/-- The offset is that of a register's first byte in one of the block windows (R30, R124, R502). -/
def wholeReg (off : Nat) : Bool := off % 8 = 0 && off < 0xB0000

/-- Can it reach the register: the core issues, or the window is served to packets? -/
def State.reaches (s : State) (who : Requester) (off : Nat) (write : Bool) : Bool :=
  s.comes who && wholeReg off && (who = .core || s.serveCtrl off 8 write = .ok)

/-- A refused access of the core to a register raises ACCESS with the register's address, in the own form (R500), one that is no
multiple of 8 ALIGN (R124, R501). The instruction that made it is free. DESIGN CHOICE (assumption 13). -/
def State.coreRefused (s : State) (off : Nat) : State :=
  s.tick.raise (if off % 8 ≠ 0 then cAlign else cAccess) (BitVec.ofNat 64 (0x0100000000 + off)) s.cx.pc ((Config.freeWord s.fresh).setWidth 32)

/-- The STATUS of a request to an offset that no rule of stage, fence or power turns away: UNMAPPED outside the windows, ALIGN where
it is no multiple of 8 (R31, R323, R502), else REFUSED. -/
def regStatus (off : Nat) : BitVec 8 := if 0xB0000 ≤ off then stUnmapped else if off % 8 ≠ 0 then stAlign else stRefused

/-- An access that has no effect is turned away: ACCESS or ALIGN for the core, an error response or FENCED for a host or a node
(R84, R463, R500). DESIGN CHOICE (assumption 13). -/
def State.regRefused (s : State) (who : Requester) (off : Nat) (write : Bool) (req : Packet) : State :=
  if !s.comes who then s
  else if who = .core then s.coreRefused off
  else
    match s.serveCtrl off 8 write with
    | .fenced => s.sendFenced req
    | .refused => s.refuse req stRefused
    | .ok => s.refuse req (regStatus off)

/-- The WRITE that asks for a register command, and the READ that asks for an RC read. -/
def asWrite (p : Packet) : Packet := { p with ty := 3 }
def asRead (p : Packet) : Packet := { p with ty := 1 }

/-- One whole-register write by a requester, and its answer; a refused one has no effect on the register (R500). -/
def State.regCommand (s : State) (w : RegWr) (off : Nat) : State :=
  let a := s.accOf w.who
  if s.reaches w.who off true && s.mayWrite a off && !s.ownRefuses off w.v.toNat [(off, w.v.toNat)] then
    if w.who = .core then s.writeReg a off w.v else (s.writeReg a off w.v).ackWrite (asWrite w.req)
  else s.regRefused w.who off true (asWrite w.req)

/-- One whole-register read by a requester: the core takes the value, a host or a node is answered with it (R16, R322); a refused
one has no effect on the register (R500). -/
def State.readCommand (s : State) (who : Requester) (off : Nat) (req : Packet) : State :=
  let a := s.accOf who
  if s.reaches who off false && s.mayRead a off then
    let r := s.readReg a off
    if who = .core then r.2 else r.2.sendData (asRead req) (toLe 8 r.1.toNat)
  else s.regRefused who off false (asRead req)

end Sys2Proof.Machine
end

