-- ==== Sys2Proof/Machine/Cache.lean ====
section
/-! DEFINITION. L1I, L1D and the victim cache (R202 to R208, R211). The operations are written for L1D; those on L1I are the same
with the two exchanged. -/

namespace Sys2Proof.Machine

/-- No line. -/
def Line.none' : Line := { addr := 0, ctx := .c0, sect := 0, data := 0, bad := false }

/-- The address of the line that holds `a`. -/
def lineOf (a : Word) : Word := a &&& ~~~(127 : Word)

/-- The set and the sector of an address (R202). -/
def setOf (a : Word) : Nat := bits a.toNat 7 5
def sectOf (a : Word) : Nat := bits a.toNat 5 2

/-- Is a core access cacheable (R202)? -/
def cacheable : Place → Bool
  | .node a => offOf a < 0x400000
  | .ext _ => true
  | _ => false

/-- A line with some valid sector that holds `a` for context `c` (R161, R203). DEDUCED (assumption 48). -/
def Line.holds (l : Line) (c : CtxId) (a : Word) : Bool := l.sect ≠ 0 && l.addr = lineOf a && l.ctx = c

/-- The way of L1D that holds `a`. -/
def State.l1dWay (s : State) (c : CtxId) (a : Word) : Option Nat :=
  (List.range 8).find? fun w => (tget Line.none' s.cache.l1d (8 * setOf a + w)).holds c a

/-- Bytes of a line from the offset of `a`. -/
def Line.read (l : Line) (a : Word) (n : Nat) : List Byte := toLe n (l.data.toNat / 2 ^ (8 * (a.toNat % 128)))

/-- Put bytes into a line. -/
def Line.write (l : Line) (a : Word) (d : List Byte) : Line :=
  { l with data := BitVec.ofNat 1024 (setBits l.data.toNat (8 * (a.toNat % 128)) (8 * d.length) (leNat d)) }

/-- Is the sector of `a` valid? -/
def Line.valid (l : Line) (a : Word) : Bool := l.sect.getLsbD (sectOf a)

/-- The way the replacement bits lead to (R204). -/
def treeVictim (t : BitVec 7) : Nat :=
  if t.getLsbD 0 then (if t.getLsbD 2 then 6 + b2n (t.getLsbD 6) else 4 + b2n (t.getLsbD 5))
  else (if t.getLsbD 1 then 2 + b2n (t.getLsbD 4) else b2n (t.getLsbD 3))

/-- Every bit on the path of way `w` points away from it (R204). -/
def treeTouch (t : BitVec 7) (w : Nat) : BitVec 7 :=
  let n := setBits t.toNat 0 1 (b2n (w < 4))
  let n := if w < 4 then setBits n 1 1 (b2n (w < 2)) else setBits n 2 1 (b2n (w < 6))
  BitVec.ofNat 7 (setBits n (3 + w / 2) 1 (b2n (w % 2 = 0)))

/-- Way `w` of the set of `a` was hit, filled or recalled. -/
def State.l1dTouch (s : State) (a : Word) (w : Nat) : State :=
  let k := setOf a
  { s with cache := { s.cache with treeD := tput 0 s.cache.treeD k (treeTouch (tget 0 s.cache.treeD k) w) } }

/-- Replace a way of L1D. -/
def State.l1dPut (s : State) (a : Word) (w : Nat) (l : Line) : State :=
  { s with cache := { s.cache with l1d := tput Line.none' s.cache.l1d (8 * setOf a + w) l } }

/-- A way of L1D. -/
def State.l1dGet (s : State) (a : Word) (w : Nat) : Line := tget Line.none' s.cache.l1d (8 * setOf a + w)

/-- The way a new line takes: the lowest without a valid sector, else the tree's (R204). -/
def State.l1dChoose (s : State) (a : Word) : Nat :=
  match (List.range 8).find? fun w => (s.l1dGet a w).sect = 0 with
  | some w => w
  | none => treeVictim (tget 0 s.cache.treeD (setOf a))

/-- The victim entry from L1D that holds `a`. -/
def State.victimOf (s : State) (c : CtxId) (a : Word) : Option Victim :=
  s.cache.victim.find? fun v => !v.fromI && v.line.holds c a

/-- A displaced line with a valid sector becomes the newest victim entry; of nine the oldest goes (R205).
DEDUCED (assumption 48). -/
def State.displace (s : State) (l : Line) : State :=
  if l.sect = 0 then s
  else
    let vs := s.cache.victim ++ [{ fromI := false, line := l }]
    { s with cache := { s.cache with victim := if vs.length > 8 then vs.drop 1 else vs } }

/-- Bring a line into L1D (R203 steps 3 and 4). DEDUCED (assumption 48). -/
def State.l1dAllocate (s : State) (a : Word) (l : Line) : State :=
  let w := s.l1dChoose a
  let old := s.l1dGet a w
  ((s.displace old).l1dPut a w l).l1dTouch a w

/-- Move a victim entry back into L1D (R203 step 3). -/
def State.recall (s : State) (a : Word) (v : Victim) : State :=
  ({ s with cache := { s.cache with victim := s.cache.victim.erase v } }).l1dAllocate a v.line

/-- A lookup invalidates and counts every line of the set and every victim entry that fails its parity (R458). DESIGN CHOICE
(assumption 86). -/
def State.l1Purge (s : State) (a : Word) : State :=
  let hit (e : Nat × Line) : Bool := e.1 / 8 = setOf a && e.2.bad
  let n := (s.cache.l1d.filter hit).length + (s.cache.victim.filter fun v => v.line.bad).length
  if n = 0 then s
  else
    State.hwAdd { s with cache := { s.cache with
      l1d := s.cache.l1d.filter fun e => !hit e, victim := s.cache.victim.filter fun v => !v.line.bad } } F.l1Par n

/-- A cacheable load of `n` bytes that the caches can serve; a miss leaves them as they are, and counts under `code` (R203, R212,
R486). -/
def State.cacheLoad (s : State) (c : CtxId) (a : Word) (n : Nat) (code : Nat := 0x30) : Option (List Byte) × State :=
  let s := s.l1Purge a
  match s.l1dWay c a with
  | some w =>
    let l := s.l1dGet a w
    if l.valid a then (some (l.read a n), s.l1dTouch a w) else (none, s.perf code 1 (some c))
  | none =>
    let s := s.perf code 1 (some c)
    match s.victimOf c a with
    | some v =>
      let s := s.perf 0x32 1 (some c)
      if v.line.valid a then (some (v.line.read a n), s.recall a v) else (none, s)
    | none => (none, s)

/-- The first byte of a sector. -/
def sectorBase (a : Word) : Word := a &&& ~~~(31 : Word)

/-- A sector read for context `c` arrives (R203 steps 2 to 4). -/
def State.cacheFill (s : State) (c : CtxId) (a : Word) (d : List Byte) : State :=
  let put (l : Line) : Line :=
    let l := l.write (sectorBase a) (slice d 0 32)
    { l with sect := BitVec.ofNat 4 (setBits l.sect.toNat (sectOf a) 1 1) }
  let s := s.l1Purge a
  match s.l1dWay c a with
  | some w => (s.l1dPut a w (put (s.l1dGet a w))).l1dTouch a w
  | none =>
    match s.victimOf c a with
    | some v =>
      let s := { s with cache := { s.cache with victim := s.cache.victim.erase v } }
      s.l1dAllocate a (put v.line)
    | none => s.l1dAllocate a (put { addr := lineOf a, ctx := c, sect := 0, data := 0, bad := false })

/-- A cacheable store updates the storing context's valid copy, and allocates nothing (R206); the replacement bits stay.
DESIGN CHOICE (assumption 96). -/
def State.cacheStore (s : State) (c : CtxId) (a : Word) (d : List Byte) : State :=
  let s := s.l1Purge a
  match s.l1dWay c a with
  | some w => if (s.l1dGet a w).valid a then s.l1dPut a w ((s.l1dGet a w).write a d) else s
  | none =>
    { s with cache := { s.cache with victim := s.cache.victim.map fun v =>
      if (!v.fromI && Line.holds v.line c a && Line.valid v.line a) then { v with line := v.line.write a d } else v } }

/-- Invalidate the line at `a` in L1I or L1D and the victim cache, for both contexts (R208). -/
def State.invalLine (s : State) (inst : Bool) (a : Word) : State :=
  let keep (e : Nat × Line) : Bool := e.2.addr ≠ lineOf a
  let ch := { s.cache with victim := s.cache.victim.filter fun v => !(v.fromI = inst && v.line.addr = lineOf a) }
  { s with cache := if inst then { ch with l1i := ch.l1i.filter keep } else { ch with l1d := ch.l1d.filter keep } }

/-- Invalidate all of L1I or L1D and the victim entries from it (R208). -/
def State.invalAll (s : State) (inst : Bool) : State :=
  let ch := { s.cache with victim := s.cache.victim.filter fun v => v.fromI ≠ inst }
  { s with cache := if inst then { ch with l1i := [] } else { ch with l1d := [] } }

/-- Clear the valid bit of the sector of `a`. -/
def Line.dropSector (l : Line) (a : Word) : Line :=
  if l.addr = lineOf a then { l with sect := BitVec.ofNat 4 (setBits l.sect.toNat (sectOf a) 1 0) } else l

/-- Invalidate the target sector of an atomic, for both contexts (R211). -/
def State.invalSector (s : State) (a : Word) : State :=
  { s with cache := { s.cache with
    l1d := (s.cache.l1d.map fun e => (e.1, e.2.dropSector a)).filter fun e => e.2.sect ≠ 0,
    victim := (s.cache.victim.map fun v => if v.fromI then v else { v with line := v.line.dropSector a }).filter fun v => v.line.sect ≠ 0 } }

/-! ### L1I -/

/-- The caches with L1I and L1D exchanged. -/
def Caches.swap (x : Caches) : Caches :=
  { l1i := x.l1d, l1d := x.l1i, treeI := x.treeD, treeD := x.treeI, victim := x.victim.map fun v => { v with fromI := !v.fromI } }

/-- The node with L1I and L1D exchanged. -/
def State.swapL1 (s : State) : State := { s with cache := s.cache.swap }

/-- A fetch that the caches can serve (R203). -/
def State.codeLoad (s : State) (c : CtxId) (a : Word) : Option (List Byte) × State :=
  let r := s.swapL1.cacheLoad c a 4 0x31
  (r.1, r.2.swapL1)

/-- A sector of code for context `c` arrives (R203). -/
def State.codeFill (s : State) (c : CtxId) (a : Word) (d : List Byte) : State := (s.swapL1.cacheFill c a d).swapL1

/-- Is the sector of code at `a` valid for context `c`, in L1I or in the victim cache? -/
def State.codeHere (s : State) (c : CtxId) (a : Word) : Bool := (s.codeLoad c a).1.isSome

end Sys2Proof.Machine
end

