-- ==== Sys2Proof/Machine/Chest.lean ====
section
/-! DEFINITION. The Chest: images of the matrix and vector state, the operations of CHESTCMD, and off-node spill
(R170 to R176, R264, R265). -/

namespace Sys2Proof.Machine

/-! ### Images (R170, R171, R244, R280) -/

/-- A tag that holds no shape (R244). -/
def Tag.zero : Tag := { rows := 0, bpr := 0, fmt := 0 }

/-- A cell after MZ (R260, R277). -/
def AccCell.zero : AccCell := { v := 0, anchor := 0 }

/-- Registers of a mode (R242). -/
def regCount (mode : Nat) : Nat := if mode = 1 then 32 else if mode = 2 then 8 else 16

/-- Registers of one Chest group (R242). -/
def groupRegs (mode : Nat) : Nat := regCount mode / 4

/-- The group of register `r`; none beyond the mode's count (R271). -/
def groupOf (mode r : Nat) : Option Nat := if r < regCount mode then some (r / groupRegs mode) else none

/-- A tag as the low bits of its slot (R244). -/
def tagNat (t : Tag) : Nat := t.rows.toNat + 2 ^ 8 * t.bpr.toNat + 2 ^ 16 * t.fmt.toNat

/-- The tag a slot holds. -/
def tagOf (n : Nat) : Tag :=
  { rows := BitVec.ofNat 7 n, bpr := BitVec.ofNat 8 (bits n 8 8), fmt := BitVec.ofNat 4 (bits n 16 4) }

/-- May a slot be restored (R173): ROWS to 64, BPR to 128, a defined FMT, reserved bits 0? -/
def slotOk (n : Nat) : Bool := bits n 0 7 ≤ 64 && bits n 8 8 ≤ 128 && bits n 16 4 ≤ 8 && !bit n 7 && n < 2 ^ 20

/-- Cut a list into `k` pieces of `n` bytes, each as a number. -/
def numbers (n : Nat) : Nat → List Byte → List Nat
  | 0, _ => []
  | k + 1, l => leNat (l.take n) :: numbers n k (l.drop n)

/-- The tag of register `r`. -/
def Mx.tag (m : Mx) (r : Nat) : Tag := tget Tag.zero m.tags r

/-- The accumulator image: 7,232 bytes (R171, R264). -/
def accImage (a : AccSet) : List Byte :=
  [4, 1, 0, 0] ++ toLe 4 7168 ++ [a.acs, BitVec.ofNat 8 a.mode.toNat, BitVec.ofNat 8 (b2n a.loss + 2 * b2n a.sat)]
    ++ List.replicate 5 0 ++ toLe 8 a.lossCnt.toNat ++ toLe 8 a.repCnt.toNat ++ List.replicate 32 0
    ++ ((List.range 512).flatMap fun c => toLe 12 (tget AccCell.zero a.cells c).v.toNat)
    ++ ((List.range 512).flatMap fun c => toLe 2 (tget AccCell.zero a.cells c).anchor.toNat)

/-- Cells of an image with their anchor fields. -/
def imageCells (b : List Byte) : List (Nat × Nat) :=
  (numbers 12 512 (b.drop 64)).zip (numbers 2 512 (b.drop 6208))

/-- Is a cell one that its mode and state allow (R265, R280)? -/
def cellOk (mode v a : Nat) : Bool :=
  if a ≥ 1024 then false
  else if mode = 0 then v = 0 && a = 0
  else if mode = 2 then a = 0 && decide (-(2 ^ 31 : Int) ≤ signed 96 v) && decide (signed 96 v < 2 ^ 31)
  else if mode = 3 then a = 0 && decide (-(2 ^ 15 : Int) ≤ signed 96 v) && decide (signed 96 v < 2 ^ 15)
  else if a = 0 ∨ a = 0x3FF then v = 0
  else if a = 0x3FC then v = 1
  else if a = 0x3FD then v = 2
  else if a = 0x3FE then v ≤ 2
  else true

/-- Does an image pass the checks of R265? -/
def accImageOk (b : List Byte) : Bool :=
  field b 0 1 = 4 && field b 1 1 = 1 && field b 4 4 = 7168 && field b 9 1 ≤ 3
    && (imageCells b).all fun e => cellOk (field b 9 1) e.1 e.2

/-- The accumulator set an image holds. -/
def accOfImage (b : List Byte) : AccSet :=
  let cs := (imageCells b).zipIdx
  { cells := cs.foldl (fun t e => tput AccCell.zero t e.2 ⟨BitVec.ofNat 96 e.1.1, BitVec.ofNat 10 e.1.2⟩) [],
    mode := BitVec.ofNat 2 (field b 9 1), acs := BitVec.ofNat 8 (field b 8 1),
    loss := bit (field b 10 1) 0, sat := bit (field b 10 1) 1,
    lossCnt := BitVec.ofNat 64 (field b 16 8), repCnt := BitVec.ofNat 64 (field b 24 8) }

/-- Where group `g` stands in a Chest image (R170). -/
def groupAt (g : Nat) : Nat :=
  match g with
  | 0 => 0x40
  | 1 => 0x40C0
  | 2 => 0x8140
  | 3 => 0xC1C0
  | 4 => 0x10240
  | 5 => 0x11E80
  | 6 => 0x126C0
  | _ => 0x12F00

/-- Bytes of the image of group `g`. -/
def groupSize (g : Nat) : Nat := if g < 4 then 16512 else if g = 4 then 7232 else if g < 7 then 2112 else 384

/-- Bytes of a Chest image. -/
def chestSize : Nat := 77952

/-- The 64-byte header of a group without fields of its own. -/
def groupHeader (g : Nat) : List Byte := [BitVec.ofNat 8 g, 1, 0, 0] ++ toLe 4 (groupSize g - 64) ++ List.replicate 56 0

/-- The image of group `g` of the matrix and vector state (R171). -/
def Mx.groupImage (m : Mx) (g : Nat) : List Byte :=
  if g < 4 then
    let k := groupRegs m.mode.toNat
    groupHeader g
      ++ ((List.range 8).flatMap fun i => toLe 8 (if i < k then tagNat (m.tag (g * k + i)) else 0))
      ++ m.file.read (16384 * g) 16384
  else if g = 4 then accImage m.acc
  else if g < 7 then
    groupHeader g ++ ((List.range 16).flatMap fun i => toLe 128 (tget 0 m.vreg (16 * (g - 5) + i)).toNat)
  else
    [7, 1, 0, 0] ++ toLe 4 320 ++ toLe 8 (b2n m.ovf + 2 * b2n m.inv) ++ List.replicate 48 0
      ++ ((List.range 8).flatMap fun i => toLe 4 (tget 0 m.scale i).toNat) ++ List.replicate 32 0
      ++ ((List.range 64).flatMap fun i => toLe 4 (tget 0 m.ehist i).toNat)

/-- Zero group `g`, shape tags included (R173). -/
def Mx.zeroGroup (g : Nat) (m : Mx) : Mx :=
  if g < 4 then
    let k := groupRegs m.mode.toNat
    { m with file := tclear m.file (16384 * g) 16384, tags := tclear m.tags (g * k) k }
  else if g = 4 then { m with acc := AccSet.reset }
  else if g < 7 then { m with vreg := tclear m.vreg (16 * (g - 5)) 16 }
  else { m with scale := [], ovf := false, inv := false, ehist := [] }

/-- Load group `g` from its image. -/
def Mx.loadGroup (g : Nat) (b : List Byte) (m : Mx) : Mx :=
  let m := m.zeroGroup g
  if g < 4 then
    let k := groupRegs m.mode.toNat
    let ts := (numbers 8 k (b.drop 64)).zipIdx
    { m with tags := ts.foldl (fun t e => tput Tag.zero t (g * k + e.2) (tagOf e.1)) m.tags,
             file := m.file.write (16384 * g) ((b.drop 128).take 16384) }
  else if g = 4 then { m with acc := accOfImage b }
  else if g < 7 then
    let vs := (numbers 128 16 (b.drop 64)).zipIdx
    { m with vreg := vs.foldl (fun t e => tput 0 t (16 * (g - 5) + e.2) (BitVec.ofNat 1024 e.1)) m.vreg }
  else
    { m with ovf := bit (field b 8 1) 0, inv := bit (field b 8 1) 1,
             scale := (numbers 4 8 (b.drop 64)).zipIdx.foldl (fun t e => tput 0 t e.2 (BitVec.ofNat 32 e.1)) [],
             ehist := (numbers 4 64 (b.drop 128)).zipIdx.foldl (fun t e => tput 0 t e.2 (BitVec.ofNat 32 e.1)) [] }

/-! ### Errors (R174) -/

def errTag : BitVec 3 := 1
def errDirty : BitVec 3 := 2
def errKey : BitVec 3 := 3
def errAuth : BitVec 3 := 4
def errData : BitVec 3 := 5
def errCtr : BitVec 3 := 6
def errFormat : BitVec 3 := 7

/-- CHESTBASE of a context. -/
def State.chestBase (s : State) : CtxId → Nat
  | .c0 => s.core.chestBase0.toNat
  | .c1 => s.core.chestBase1.toNat

/-- CHESTCTR of a context. -/
def State.chestCtr (s : State) : CtxId → Word
  | .c0 => s.core.chestCtr0
  | .c1 => s.core.chestCtr1

/-- CHESTCTR of a context gains one (R175). -/
def State.chestCtrUp (s : State) : CtxId → State
  | .c0 => { s with core := { s.core with chestCtr0 := s.core.chestCtr0 + 1 } }
  | .c1 => { s with core := { s.core with chestCtr1 := s.core.chestCtr1 + 1 } }

/-- First byte of a context's Chest. -/
def State.chestOff (s : State) (c : CtxId) : Nat := 16384 * s.chestBase c

/-- May the Chest of `c` be operated on (R174)? -/
def State.chestOk (s : State) (c : CtxId) : Bool :=
  let b := s.chestBase c
  b ≤ 251 && (List.range 5).all fun i => s.g (F.pageTag (b + i)) = c.num || s.g (F.pageTag (b + i)) = 3

/-- Bytes of a context's Chest, read by the Chest engine: every block of them, those after one that fails too, each of which fails
or is corrected by itself. DESIGN CHOICE (assumption 99). -/
def State.chestRead (s : State) (c : CtxId) (at0 n : Nat) : Except Nat (List Byte) × State :=
  s.lmRead reqChest (some c) (s.chestOff c + at0) n

/-- Write bytes to a context's Chest. -/
def State.chestWrite (s : State) (c : CtxId) (at0 : Nat) (d : List Byte) : State :=
  (s.lmWrite reqChest (some c) (s.chestOff c + at0) d).2

/-- The first eight header bytes with another VALID mask and TCFG mode. -/
def chestHeader (valid mode : Nat) (c : CtxId) : List Byte :=
  [1, BitVec.ofNat 8 valid, BitVec.ofNat 8 mode, BitVec.ofNat 8 c.num] ++ List.replicate 60 0

/-- Clear dirty bits. -/
def State.clearDirty (s : State) (m : BitVec 8) : State :=
  { s with core := { s.core with mxDirty := s.core.mxDirty &&& ~~~m } }

/-- Groups of a mask, ascending. -/
def groupsOf (m : BitVec 8) : List Nat := (List.range 8).filter fun g => m.getLsbD g

/-! ### SAVE, DISCARD, ERASE, HANDOVER -/

/-- Rewrite the header of `c`'s Chest after a SAVE or DISCARD (R172), whole; clears CFG. DESIGN CHOICE (assumption 69). -/
def State.chestUpdate (s : State) (c : CtxId) (valid0 mode0 setV clrV : Nat) : State :=
  let clr := if s.core.mxCfg then clrV ||| (0xF &&& (0xFF ^^^ setV)) else clrV
  let v := (valid0 ||| setV) &&& (0xFF ^^^ clr)
  let mode := if s.core.mxCfg then s.mx.mode.toNat else mode0
  let s := s.chestWrite c 0 (chestHeader v mode c)
  { s with core := { s.core with mxCfg := false } }

/-- SAVE: its outcome (R172). -/
def State.chestSave (s : State) (mask : BitVec 8) : BitVec 3 × State :=
  let c := s.core.mxOwner
  let gs := mask &&& s.core.mxDirty
  if !s.chestOk c then (errTag, s)
  else if gs = 0 ∧ s.core.mxCfg = false then (0, s)
  else
    match s.chestRead c 0 64 with
    | (.error _, s) => (errData, s)
    | (.ok h, s) =>
      let s := (groupsOf gs).foldl (fun s g => s.chestWrite c (groupAt g) (s.mx.groupImage g)) s
      (0, (s.chestUpdate c (field h 1 1) (field h 2 1) gs.toNat 0).clearDirty gs)

/-- DISCARD: its outcome (R172). -/
def State.chestDiscard (s : State) (mask : BitVec 8) : BitVec 3 × State :=
  let c := s.core.mxOwner
  if !s.chestOk c then (errTag, s)
  else
    match s.chestRead c 0 64 with
    | (.error _, s) => (errData, s)
    | (.ok h, s) => (0, (s.chestUpdate c (field h 1 1) (field h 2 1) 0 mask.toNat).clearDirty mask)

/-- Zero a context's Chest. -/
def State.chestZero (s : State) (c : CtxId) : State := s.chestWrite c 0 (List.replicate chestSize 0)

/-- ERASE: its outcome (R172). -/
def State.chestErase (s : State) (c : CtxId) : BitVec 3 × State :=
  if s.chestOk c then (0, s.chestZero c) else (errTag, s)

/-- What HANDOVER reads of one group before it changes anything: none where it may go on, else the outcome (R173). -/
def State.groupCheck (s : State) (c : CtxId) (mode g : Nat) : Option (BitVec 3) × State :=
  if g < 4 then
    match s.chestRead c (groupAt g + 64) 64 with
    | (.error _, s) => (some errData, s)
    | (.ok b, s) => (if (numbers 8 (groupRegs mode) b).all slotOk then none else some errFormat, s)
  else if g = 4 then
    match s.chestRead c (groupAt 4) 7232 with
    | (.error _, s) => (some errData, s)
    | (.ok b, s) => (if accImageOk b then none else some errFormat, s)
  else (none, s)

/-- The same for the groups it restores, in order: the first that fails decides between DATA and FORMAT. DESIGN CHOICE
(assumption 70). -/
def State.handoverCheck (s : State) (c : CtxId) (mode : Nat) : List Nat → Option (BitVec 3) × State
  | [] => (none, s)
  | g :: r =>
    match s.groupCheck c mode g with
    | (some e, s) => (some e, s)
    | (none, s) => s.handoverCheck c mode r

/-- Restore groups in order; a failing read gives its group (R174). -/
def State.restoreGroups (s : State) (c : CtxId) : List Nat → Option Nat × State
  | [] => (none, s)
  | g :: r =>
    match s.chestRead c (groupAt g) (groupSize g) with
    | (.error _, s) => (some g, s)
    | (.ok b, s) => State.restoreGroups { s with mx := s.mx.loadGroup g b } c r

/-- Zero every group. -/
def Mx.zeroAll (m : Mx) : Mx := (List.range 8).foldl (fun m g => m.zeroGroup g) m

/-- Give the state to `c`, clean. -/
def State.giveTo (s : State) (c : CtxId) : State :=
  { s with core := { s.core with mxOwner := c, mxDirty := 0, mxCfg := false } }

/-- HANDOVER: its outcome (R173, R174). -/
def State.chestHandover (s : State) (c : CtxId) (mask : BitVec 8) : BitVec 3 × State :=
  if !s.chestOk c then (errTag, s)
  else if s.core.mxDirty ≠ 0 ∨ s.core.mxCfg = true then (errDirty, s)
  else
    match s.chestRead c 0 64 with
    | (.error _, s) => (errData, s)
    | (.ok h, s) =>
      let valid := BitVec.ofNat 8 (field h 1 1)
      let mode := field h 2 1 % 4
      let gs := groupsOf (mask &&& valid)
      if mode = 3 then (errFormat, s)
      else
        match s.handoverCheck c mode gs with
        | (some e, s) => (e, s)
        | (none, s) =>
          let s := { s with mx := { s.mx.zeroAll with mode := BitVec.ofNat 2 mode } }
          let put (v : BitVec 8) (s : State) : State := s.chestWrite c 0 (h.take 1 ++ [v] ++ h.drop 2)
          match s.restoreGroups c gs with
          | (none, s) => (0, (put (mask &&& valid) s).giveTo c)
          | (some g, s) =>
            (errData, (put (BitVec.ofNat 8 (setBits valid.toNat g 1 0)) { s with mx := s.mx.zeroAll }).giveTo c)

/-! ### SPILL and FILL (R175) -/

/-- Bytes of an image spilled off the node. -/
def spillSize : Nat := 78080

/-- The 32 key bytes of a context's slot. -/
def State.slotKey (s : State) (c : CtxId) : List Byte := (List.range 4).flatMap fun j => toLe 8 (s.g (F.key c.num j))

/-- The first 64 bytes of a spilled image. -/
def State.spillHeader (s : State) (c : CtxId) : List Byte :=
  toLe 8 (s.chestCtr c).toNat ++ toLe 4 (s.g F.die + 2 ^ 12 * s.g F.node + 2 ^ 22 * c.num) ++ toLe 4 chestSize
    ++ List.replicate 48 0

/-- A spilled image of a Chest (R175). -/
def State.spillImage (s : State) (c : CtxId) (chest : List Byte) : List Byte :=
  let ks := aesKeys (s.slotKey c)
  let h := s.spillHeader c
  let ct := gcmCrypt ks (h.take 12) chest
  h ++ ct ++ gcmTag ks (h.take 12) h ct ++ List.replicate 48 0

/-- Pieces of `n` bytes from `a` that cross no 256-byte boundary: offset and length. -/
def spans (a : Nat) : Nat → Nat → List (Nat × Nat)
  | 0, _ => []
  | k + 1, n => if n = 0 then [] else
    let m := min n (256 - a % 256)
    (0, m) :: (spans (a + m) k (n - m)).map fun e => (e.1 + m, e.2)

/-- The pieces of an image at an address. -/
def spillPieces (a : Word) : List (Nat × Nat) := spans a.toNat 307 spillSize

/-- The Chest engine waits for `n` answers. -/
def State.chestWaits (s : State) (op : BitVec 3) (c : CtxId) (n : Nat) (img : Mem) : State :=
  { s with core := { s.core with chestOp := some { op := op, ctx := c, err := 0, waiting := n, image := img } } }

/-- The operation under way has the outcome `e`; CHEST_OPERATION_DONE reports it. -/
def State.chestEnds (s : State) (op : BitVec 3) (c : CtxId) (e : BitVec 3) : State :=
  let s := { s with qe := { s.qe with outst := s.qe.outst.filter fun o =>
    match o.2 with | .chest _ _ => false | _ => true } }
  { s with core := { s.core with chestOp := some { op := op, ctx := c, err := e, waiting := 0, image := [] } } }

/-- The pieces of an image at an address that lie outside the node. -/
def State.remotePieces (s : State) (a : Word) : List (Nat × Nat) :=
  (spillPieces a).filter fun e => (s.place (a + BitVec.ofNat 64 e.1)).remote

/-- Does a piece of an image at an address lie in the node's own space but not in its local memory below the Bench? -/
def State.imageOff (s : State) (a : Word) : Bool :=
  (spillPieces a).any fun e =>
    let b := a + BitVec.ofNat 64 e.1
    !(s.place b).remote && (s.local? b e.2).isNone

/-- Write an image at an address whose pieces do not all lie in the node's own local memory: each goes where its own address names
(R32, R175). -/
def State.spillRemote (s : State) (c : CtxId) (a : Word) (img : List Byte) : State :=
  let s := s.chestWaits 4 c (s.remotePieces a).length []
  (spillPieces a).foldl (fun s e =>
    let b := a + BitVec.ofNat 64 e.1
    let d := (img.drop e.1).take e.2
    match s.local? b e.2 with
    | some off => (s.lmWrite reqChest (some c) off d).2
    | none => (s.request (.chest e.1 e.2) 3 3 b 0 c d).2) s

/-- SPILL from its issue on. An image that would run into the Bench of the own local memory ends with DATA at once. DESIGN CHOICE
(assumption 71). -/
def State.chestSpill (s : State) (c : CtxId) : State :=
  let a := s.core.chestXa
  if !s.chestOk c then s.chestEnds 4 c errTag
  else if !s.is (F.keyValid c.num) then s.chestEnds 4 c errKey
  else if s.chestCtr c = BitVec.allOnes 64 then s.chestEnds 4 c errCtr
  else
    match s.chestRead c 0 chestSize with
    | (.error _, s) => s.chestEnds 4 c errData
    | (.ok b, s) =>
      let img := s.spillImage c b
      match s.local? a spillSize with
      | some off => ((s.lmWrite reqChest (some c) off img).2.chestCtrUp c).chestEnds 4 c 0
      | none => if s.imageOff a then s.chestEnds 4 c errData else s.spillRemote c a img

/-- A failed FILL erases the Chest before it reports. -/
def State.fillFails (s : State) (c : CtxId) (e : BitVec 3) : State := (s.chestZero c).chestEnds 5 c e

/-- The whole image has been read (R175). A wrong counter leaves the Chest as it is. DESIGN CHOICE (assumption 72). CHESTXCTR,
CHESTBASE, the page tags and the key slot count as they stand now, and TAG and KEY are not checked again. DESIGN CHOICE
(assumption 94). -/
def State.fillImage (s : State) (c : CtxId) (img : List Byte) : State :=
  if field img 0 8 ≠ s.core.chestXctr.toNat then s.chestEnds 5 c errCtr
  else
    let ks := aesKeys (s.slotKey c)
    let h := img.take 64
    let ct := (img.drop 64).take chestSize
    if gcmTag ks (h.take 12) h ct = (img.drop 78016).take 16 then
      (s.chestWrite c 0 (gcmCrypt ks (h.take 12) ct)).chestEnds 5 c 0
    else
      let s := s.record { source := 0x09, cls := 2, ctx := some c, info := c.num, addr := s.core.chestXa.toNat }
      s.fillFails c errAuth

/-- The pieces of an image at `a` that lie in own local memory, read into it; none where one fails. -/
def State.ownPieces (c : CtxId) (a : Word) : List (Nat × Nat) → Mem → State → Option Mem × State
  | [], m, s => (some m, s)
  | e :: r, m, s =>
    match s.local? (a + BitVec.ofNat 64 e.1) e.2 with
    | none => State.ownPieces c a r m s
    | some off =>
      match s.lmRead reqChest (some c) off e.2 with
      | (.error _, s) => (none, s)
      | (.ok d, s) => State.ownPieces c a r (Mem.write m e.1 d) s

/-- Read an image at an address whose pieces do not all lie in the node's own local memory (R32, R175). -/
def State.fillRemote (s : State) (c : CtxId) (a : Word) : State :=
  match State.ownPieces c a (spillPieces a) [] s with
  | (none, s) => s.fillFails c errData
  | (some m, s) =>
    let s := s.chestWaits 5 c (s.remotePieces a).length m
    (s.remotePieces a).foldl (fun s e =>
      (s.request (.chest e.1 e.2) 1 0 (a + BitVec.ofNat 64 e.1) (BitVec.ofNat 64 (e.2 + 512)) c []).2) s

/-- FILL from its issue on. DESIGN CHOICE (assumption 71). DESIGN CHOICE (assumption 72). -/
def State.chestFill (s : State) (c : CtxId) : State :=
  let a := s.core.chestXa
  if !s.chestOk c then s.chestEnds 5 c errTag
  else if !s.is (F.keyValid c.num) then s.chestEnds 5 c errKey
  else
    match s.local? a spillSize with
    | some off =>
      match s.lmRead reqChest (some c) off spillSize with
      | (.error _, s) => s.fillFails c errData
      | (.ok b, s) => s.fillImage c b
    | none => if s.imageOff a then s.fillFails c errData else s.fillRemote c a

/-- An answer to the Chest engine: READ_DATA for FILL, WRITE_ACK for SPILL, or an error (R174, R175). -/
def State.chestAnswer (s : State) (off len : Nat) (p : Packet) : State :=
  let s := s.settled p.tag
  match s.core.chestOp with
  | none => s
  | some o =>
    let fill := o.op = 5
    if p.status ≠ 0 ∨ p.ty ≠ (if fill then 2 else 4) then
      if fill then s.fillFails o.ctx errData else s.chestEnds 4 o.ctx errData
    else
      let img := if fill then o.image.write off (slice p.payload 0 len) else o.image
      if o.waiting ≤ 1 then
        if fill then s.fillImage o.ctx (img.read 0 spillSize) else (s.chestCtrUp o.ctx).chestEnds 4 o.ctx 0
      else s.chestWaits o.op o.ctx (o.waiting - 1) img

/-- Begin an operation of CHESTCMD while none is under way (R172, R174). DEDUCED (assumption 49). -/
def State.chestStart (s : State) (op : Nat) (c : CtxId) (mask : BitVec 8) : State :=
  let fin (r : BitVec 3 × State) : State := r.2.chestEnds (BitVec.ofNat 3 op) c r.1
  match op with
  | 1 => fin (s.chestSave mask)
  | 2 => fin (s.chestDiscard mask)
  | 3 => fin (s.chestHandover c mask)
  | 4 => s.chestSpill c
  | 5 => s.chestFill c
  | 6 => fin (s.chestErase c)
  | _ => s

/-- CHEST_OPERATION_DONE: an operation that has its outcome ends, where the engine's clock runs (R174, R181, R462). DEDUCED
(assumption 49). -/
def State.chestDone (s : State) : State :=
  match s.core.chestOp with
  | some o => if o.waiting = 0 && !s.isFenced then { s with core := { s.core with chestOp := none, chestErr := o.err } } else s
  | none => s

end Sys2Proof.Machine
end

