-- ==== Sys2Proof/Machine/Accum.lean ====
section
/-! DEFINITION. The matrix array: products, cells, overflow repetition and the drain (R220 to R236, R274 to R288). -/

namespace Sys2Proof

/-- Td (R251). -/
def FrameM.td (m : FrameM) : Nat := Machine.bits m.p1.toNat 8 5
/-- CLR (R251). -/
def FrameM.clr (m : FrameM) : Bool := m.p1.getLsbD 7
/-- SR (R251). -/
def FrameM.sr (m : FrameM) : Bool := m.p1.getLsbD 6
/-- SEN (R251). -/
def FrameM.sen (m : FrameM) : Bool := m.p1.getLsbD 5
/-- SN (R251). -/
def FrameM.sn (m : FrameM) : Nat := Machine.bits m.p1.toNat 2 3
/-- M of the drain and product forms (R251). -/
def FrameM.mRows (m : FrameM) : Nat := Machine.bits m.p2.toNat 0 5 + 1
/-- N (R251). -/
def FrameM.nCols (m : FrameM) : Nat := Machine.bits m.p2.toNat 5 4 + 1
/-- FMT of the drain form (R251). -/
def FrameM.dFmt (m : FrameM) : Nat := Machine.bits m.p2.toNat 9 4

end Sys2Proof

namespace Sys2Proof.Machine

/-! ### Products (R220 to R226) -/

/-- A product as a cell receives it: its value, and whether it is 0 × ∞ (R222). -/
structure Product where
  v : FV
  bad : Bool
  deriving DecidableEq, Repr

/-- Is a value NaN? -/
def FV.isNan : FV → Bool
  | .nan => true
  | _ => false

/-- The exact product of two elements, without a scale. -/
def product (a b : FV) : Product :=
  let p := a.mul b
  ⟨p, p.isNan && !a.isNan && !b.isNan⟩

/-- The product of R226: the scale codes shift the exponent, and a NaN scale makes it NaN. -/
def scaledProduct (a b : FV) (sa sb : Nat) : Product :=
  if sa = 255 ∨ sb = 255 then ⟨.nan, false⟩
  else
    let p := product a b
    ⟨p.v.scale2 ((sa : Int) + (sb : Int) - 254), p.bad⟩

/-- A product with no effect (R276). -/
def Product.zero : Product := ⟨.fin false 0 0, false⟩

/-- Is a product special (R280)? -/
def Product.special (p : Product) : Bool :=
  match p.v with
  | .fin _ _ _ => false
  | _ => true

/-- An element as MMA or MMAS takes it: INT8 under MMAS is MXINT8 (R220). -/
def operand (mx : Bool) (fmt code : Nat) : FV :=
  if mx && fmt = 1 then (fmtDec 1 code).scale2 (-6) else fmtDec fmt code

/-- Pieces of `n` of a list, in order; the last may be short. -/
def pieces {α : Type} (n : Nat) (l : List α) : List (List α) :=
  (List.range ((l.length + n - 1) / n)).map fun i => (l.drop (n * i)).take n

/-- Group size (R275). -/
def groupLen (fmt : Nat) : Nat := if fmt = 6 then 4 else if fmt = 0 ∨ fmt = 3 then 16 else 8

/-! ### Float cells (R277 to R280) -/

/-- A cell in an execution: its state code, its value unbounded, losses, and whether it overflowed or was clamped. -/
structure CellRun where
  code : Nat
  v : Int
  losses : Nat
  past : Bool
  sat : Bool
  deriving DecidableEq, Repr

/-- floor(log2) of a non-zero finite product. -/
def Product.exp (p : Product) : Option Int :=
  match p.v with
  | .fin _ m e => if m = 0 then none else some (expOf m e)
  | _ => none

/-- The greatest exponent of a group, none when every product is zero. -/
def groupExp (g : List Product) : Option Int :=
  g.foldl (fun a p => match a, p.exp with
    | none, x => x
    | some y, none => some y
    | some y, some x => some (max x y)) none

/-- An integer divided by 2^n toward zero, and whether non-zero bits were dropped. -/
def truncInt (v : Int) (n : Nat) : Int × Bool := (v.tdiv (2 ^ n : Nat), v.natAbs % 2 ^ n ≠ 0)

/-- trunc0 of a finite product × 2^`k`, and whether bits were dropped. -/
def Product.place (p : Product) (k : Int) : Int × Bool :=
  match p.v with
  | .fin neg m e =>
    let n := truncShift m (e + k)
    let loss := decide (e + k < 0) && m % 2 ^ (-(e + k)).toNat ≠ 0
    (if neg then -(n : Int) else n, loss)
  | _ => (0, false)

/-- special_rule() (R280): the state code and record after a group that holds a special product, or on a special cell. -/
def specialRule (c : CellRun) (g : List Product) : CellRun :=
  let rec0 := if c.code ≥ 0x3FC then c.v.toNat else 0
  let r0 := bit rec0 0 || g.any fun p => p.v = .inf false
  let r1 := bit rec0 1 || g.any fun p => p.v = .inf true
  let r : Nat := b2n r0 + 2 * b2n r1
  if (g.any fun p => p.bad) || (r0 && r1) || c.code = 0x3FF then { c with code := 0x3FF, v := 0 }
  else if (g.any fun p => p.v = .nan) || c.code = 0x3FE then { c with code := 0x3FE, v := r }
  else { c with code := if r0 then 0x3FC else 0x3FD, v := r }

/-- The group's finite products, all placed in the window of anchor code `code`. -/
def placeGroup (code : Nat) (g : List Product) : Int × Nat :=
  let k : Int := 80 - ((code : Int) - 512)
  g.foldl (fun a p => let q := p.place k; (a.1 + q.1, a.2 + b2n q.2)) (0, 0)

/-- One group of float_cell (R279). A cell that has overflowed keeps the anchor it overflowed at (R284); what later
groups would make of it is discarded with the execution. DEDUCED (assumption 39). -/
def floatGroup (bias : Nat) (final : Bool) (c : CellRun) (g : List Product) : CellRun :=
  if c.past then c
  else if c.code ≥ 0x3FC ∨ (g.any fun p => p.special) then specialRule c g
  else
    match (if c.code = 0 then (groupExp g).map fun (x : Int) => (x + 8 + (bias : Int) + 512).toNat else some c.code) with
    | none => c
    | some code =>
      let q := placeGroup code g
      let v := (if c.code = 0 then 0 else c.v) + q.1
      let c := { c with code := code, v := v, losses := c.losses + q.2 }
      if v > 2 ^ 95 - 1 then (if final then { c with v := 2 ^ 95 - 1, sat := true } else { c with past := true })
      else if v < -(2 ^ 95) then (if final then { c with v := -(2 ^ 95), sat := true } else { c with past := true })
      else c

/-- float_cell(c, bias, final) (R279). -/
def floatCell (c : AccCell) (bias : Nat) (final : Bool) (gs : List (List Product)) : CellRun :=
  let code := c.anchor.toNat
  let v := signed 96 c.v.toNat
  let number := decide (0 < code) && decide (code < 0x3FC)
  let t := if number then truncInt v bias else ((if code = 0 then 0 else v), false)
  let start : CellRun := { code := if number then code + bias else code, v := t.1, losses := b2n t.2, past := false, sat := false }
  gs.foldl (floatGroup bias final) start

/-- One execution's input for a cell: its index, its committed state and its groups. -/
structure CellIn where
  idx : Nat
  cell : AccCell
  groups : List (List Product)
  deriving DecidableEq, Repr

/-- The executions of an MMA in FLOAT mode (R283, R284): the committed runs, and the repetitions made. `n`
repetitions may follow. DEDUCED (assumption 39). -/
def floatRun (cs : List CellIn) : Nat → List Nat → Bool → Nat → List CellRun × Nat
  | n, bias, limit, r =>
    let final := limit || n = 0
    let runs := List.zipWith (fun c b => floatCell c.cell b final c.groups) cs bias
    match n with
    | 0 => (runs, r)
    | n + 1 =>
      if final || !(runs.any fun c => c.past) then (runs, r)
      else
        let stuck (c : CellRun) : Bool := c.past && c.code + 16 > 0x3FB
        let bias := List.zipWith (fun (c : CellRun) b => if c.past && !stuck c then b + 16 else b) runs bias
        floatRun cs n bias (runs.any stuck) (r + 1)

/-! ### Integer cells (R281) -/

/-- One group of int_cell. -/
def intGroup (w sh : Nat) (final : Bool) (c : CellRun) (g : List Product) : CellRun :=
  let q := g.foldl (fun (a : Int × Nat) p => let t := p.place (-(sh : Int)); (a.1 + t.1, a.2 + b2n t.2)) (0, 0)
  let v := c.v + q.1
  let hi : Int := 2 ^ (w - 1) - 1
  let lo : Int := -(2 ^ (w - 1))
  let c := { c with v := v, losses := c.losses + q.2 }
  if v > hi then (if final then { c with v := hi, sat := true } else { c with past := true })
  else if v < lo then (if final then { c with v := lo, sat := true } else { c with past := true })
  else c

/-- int_cell(c, d, final); `acs` is the committed ACS. -/
def intCell (w acs : Nat) (c : AccCell) (d : Nat) (final : Bool) (gs : List (List Product)) : CellRun :=
  let t := truncInt (signed 96 c.v.toNat) d
  gs.foldl (intGroup w (acs + d) final) { code := 0, v := t.1, losses := b2n t.2, past := false, sat := false }

/-- The executions of an MMA in an integer mode: the committed runs, the raise of ACS and the repetitions. -/
def intRun (w acs : Nat) (cs : List CellIn) : Nat → Nat → Bool → Nat → List CellRun × Nat × Nat
  | n, d, limit, r =>
    let final := limit || n = 0
    let runs := cs.map fun c => intCell w acs c.cell d final c.groups
    match n with
    | 0 => (runs, d, r)
    | n + 1 =>
      if final || !(runs.any fun c => c.past) then (runs, d, r)
      else
        let d' := d + (if w = 32 then 4 else 2)
        if acs + d' > 255 then intRun w acs cs n d true (r + 1) else intRun w acs cs n d' false (r + 1)

/-! ### Commit (R285) -/

/-- A saturating 64-bit counter. -/
def satAdd64 (x : Word) (n : Nat) : Word := BitVec.ofNat 64 (min (x.toNat + n) (2 ^ 64 - 1))

/-- The set after an MMA or MMAS in a mode: cells, ACS, mode, flags and counts. DEDUCED (assumption 39). -/
def AccSet.commit (a : AccSet) (mode acs : Nat) (cs : List CellIn) (runs : List CellRun) (reps : Nat) : AccSet :=
  let losses := runs.foldl (fun n c => n + c.losses) 0
  { a with
    cells := (cs.zip runs).foldl (fun t e => tput AccCell.zero t e.1.idx ⟨BitVec.ofNat 96 (unsigned 96 e.2.v), BitVec.ofNat 10 e.2.code⟩) a.cells,
    mode := BitVec.ofNat 2 mode, acs := BitVec.ofNat 8 acs,
    loss := a.loss || 0 < losses, sat := a.sat || runs.any fun c => c.sat,
    lossCnt := satAdd64 a.lossCnt losses, repCnt := satAdd64 a.repCnt reps }

/-- A cell of the set. -/
def AccSet.cell (a : AccSet) (i j : Nat) : AccCell := tget AccCell.zero a.cells (16 * i + j)

/-- MMA or MMAS on the set: `prods i j` are the products of cell (i, j) along K (R261, R283). The repetitions. -/
def AccSet.mma (a : AccSet) (mode m n g : Nat) (prods : Nat → Nat → List Product) : AccSet × Nat :=
  if mode = 1 then
    let cs := (List.range m).flatMap fun i => (List.range n).map fun j =>
      ({ idx := 16 * i + j, cell := a.cell i j, groups := pieces g (prods i j) } : CellIn)
    let r := floatRun cs 4 (cs.map fun _ => 0) false 0
    (a.commit mode a.acs.toNat cs r.1 r.2, r.2)
  else
    let cs := (List.range 32).flatMap fun i => (List.range 16).map fun j =>
      ({ idx := 16 * i + j, cell := a.cell i j, groups := if i < m ∧ j < n then pieces g (prods i j) else [] } : CellIn)
    let r := intRun (if mode = 2 then 32 else 16) a.acs.toNat cs 4 0 false 0
    (a.commit mode (a.acs.toNat + r.2.1) cs r.1 r.2.2, r.2.2)

/-- The set after MZ: LOSS, SAT and their counts stay (R260, R286). -/
def AccSet.clear (a : AccSet) : AccSet := { a with cells := [], mode := 0, acs := 0 }

/-! ### The drain (R228, R236, R287) -/

/-- The exact value a cell drains from, and whether it sets INV. -/
def AccSet.drainValue (a : AccSet) (c : AccCell) (scale : Option Nat) : FV × Bool :=
  let code := c.anchor.toNat
  let times (v : FV) : FV × Bool :=
    match scale with
    | none => (v, false)
    | some x => let p := product v (fp32.dec x); (p.v, p.bad)
  let zeroPos (r : FV × Bool) : FV × Bool := if r.1.isZero then (.fin false 0 0, r.2) else r
  let i := signed 96 c.v.toNat
  if a.mode = 0 ∨ (a.mode = 1 ∧ code = 0) then (.fin false 0 0, false)
  else if a.mode ≠ 1 then zeroPos (times (.fin (decide (i < 0)) i.natAbs a.acs.toNat))
  else if code = 0x3FC then times (.inf false)
  else if code = 0x3FD then times (.inf true)
  else if code = 0x3FE then (.nan, false)
  else if code = 0x3FF then (.nan, true)
  else zeroPos (times (.fin (decide (i < 0)) i.natAbs ((code : Int) - 592)))

/-- The histogram bin of an exact value (R236). -/
def histBin (v : FV) : Option Nat :=
  match v with
  | .nan => none
  | .inf _ => some 63
  | .fin _ m e => if m = 0 then none else some (min 63 (max 0 (expOf m e + 32)).toNat)

/-- Where a drain stands: element codes so far (newest first), histogram, flags and LFSR. -/
structure DrainAcc where
  codes : List Nat
  ehist : Tab Word32
  ovf : Bool
  inv : Bool
  sr : BitVec 32
  deriving DecidableEq, Repr

/-- One element of a drain. -/
def drainElem (a : AccSet) (fmt : Nat) (stoch : Bool) (scale : Option Nat) (d : DrainAcc) (c : AccCell) : DrainAcc :=
  let v := a.drainValue c scale
  let sr := if stoch then lfsr16 d.sr else d.sr
  let r := if stoch then bf16Stoch v.1 (sr.toNat % 65536) else fmtEnc fmt v.1
  { codes := r.code :: d.codes,
    ehist := match histBin v.1 with
      | some b => let n := (tget 0 d.ehist b).toNat; tput 0 d.ehist b (BitVec.ofNat 32 (min (n + 1) (2 ^ 32 - 1)))
      | none => d.ehist,
    ovf := d.ovf || r.ovf, inv := d.inv || v.2 || r.inv, sr := sr }

/-- Row capacity and register size of a mode (R242). -/
def rowCap (mode : Nat) : Nat := if mode = 2 then 128 else 64
def regSize (mode : Nat) : Nat := 65536 / regCount mode
/-- Rows per register. -/
def rowCount (mode : Nat) : Nat := regSize mode / rowCap mode

/-- Replace register `r` of the tile file: its rows, each zero-padded to CAP, the rest zero, and its tag. -/
def Mx.setTile (m : Mx) (r : Nat) (rows : List (List Byte)) (t : Tag) : Mx :=
  let k := m.mode.toNat
  let base := r * regSize k
  let f := tclear m.file base (regSize k)
  { m with file := rows.zipIdx.foldl (fun f e => f.write (base + e.2 * rowCap k) (e.1.take (rowCap k))) f,
           tags := tput Tag.zero m.tags r t }

/-- Bytes `n` of row `i` of register `r`. -/
def Mx.row (m : Mx) (r i n : Nat) : List Byte :=
  m.file.read (r * regSize m.mode.toNat + i * rowCap m.mode.toNat) n

/-- Mark groups dirty (R168). DEDUCED (assumption 51). -/
def State.dirty (s : State) (gs : List Nat) : State :=
  { s with core := { s.core with mxDirty := gs.foldl (fun d g => d ||| (1 <<< g)) s.core.mxDirty } }

/-- MDRAIN copies the set (R287, R288). -/
def State.drainCopy (s : State) : State :=
  match s.mx.drain with
  | some d =>
    if d.copied then s
    else
      { s with mx := { s.mx with drain := some { d with copied := true, set := s.mx.acc },
                                 acc := if d.m.clr then s.mx.acc.clear else s.mx.acc } }
  | none => s

/-- MDRAIN completes and commits Td, the counts, the flags and the LFSR together (R234, R263); it counts as retired (R486). -/
def State.drainComplete (s : State) : State :=
  match s.mx.drain with
  | some d =>
    if !d.copied then s
    else
      let m := d.m
      let scale := if m.sen then some (tget 0 s.mx.scale m.sn).toNat else none
      let x := s.ctx d.ctx
      let start : DrainAcc := { codes := [], ehist := s.mx.ehist, ovf := s.mx.ovf, inv := s.mx.inv, sr := x.srstate }
      let cells := (List.range m.mRows).flatMap fun i => (List.range m.nCols).map fun j => d.set.cell i j
      let r := cells.foldl (drainElem d.set m.dFmt m.sr scale) start
      let rows := (pieces m.nCols r.codes.reverse).map fun l => packElems (fmtBits m.dFmt) l
      let bpr := (m.nCols * fmtBits m.dFmt + 7) / 8
      let mx := s.mx.setTile m.td rows ⟨BitVec.ofNat 7 m.mRows, BitVec.ofNat 8 bpr, BitVec.ofNat 4 m.dFmt⟩
      let s := { s with mx := { mx with ehist := r.ehist, ovf := r.ovf, inv := r.inv, drain := none } }
      let s := s.setCtx d.ctx { x with srstate := r.sr }
      let gs := (match groupOf s.mx.mode.toNat m.td with | some g => [g] | none => []) ++ [7] ++ (if m.clr then [4] else [])
      ((s.dirty gs).perf 0x12 1 none).perf 0x02 1 (some d.ctx)
  | none => s

/-- A later instruction finds the MDRAIN before it complete (R95, R270). -/
def State.drainForce (s : State) : State := s.drainCopy.drainComplete

/-- An asynchronous entry abandons the MDRAIN: the set is as it stood before it, and it executes again (R155, R288). One that
no entry may be taken in front of completes instead (R113, R153). -/
def State.drainAbandon (s : State) : State :=
  match s.mx.drain with
  | some d =>
    if d.firm then s.drainForce
    else
    let s := { s with mx := { s.mx with drain := none, acc := if d.copied then d.set else s.mx.acc } }
    s.setCtx d.ctx { s.ctx d.ctx with pc := d.pc }
  | none => s

end Sys2Proof.Machine
end

