-- ==== Sys2Proof/Machine/SysRegs.lean ====
section
/-! DEFINITION. The system registers reached by MOVS and MOVC (R129 to R133, R157, R181, R241, R246, R273, R296, R450,
R510). -/

namespace Sys2Proof.Machine

/-- The lowest levels that read and write a system register; none where the number is not assigned (R130, R510). -/
def sysLevel (n : Nat) : Option (Nat × Nat) :=
  if n = 0x000 ∨ n = 0x020 ∨ n = 0x021 then some (0, 0)
  else if n = 0x008 ∨ n = 0x009 ∨ n = 0x00A ∨ n = 0x010 ∨ n = 0x011 then some (1, 1)
  else if n = 0x012 then some (0, 1)
  else if n = 0x100 ∨ (0x102 ≤ n ∧ n ≤ 0x106) ∨ n = 0x110 ∨ n = 0x112 ∨ n = 0x113 ∨ (0x118 ≤ n ∧ n ≤ 0x11A) then some (1, 1)
  else if n = 0x101 ∨ (0x108 ≤ n ∧ n ≤ 0x10C) ∨ n = 0x111 ∨ n = 0x120 then some (2, 2)
  else if n = 0x200 ∨ n = 0x201 ∨ (0x210 ≤ n ∧ n ≤ 0x217) then some (2, 2)
  else if n = 0x202 ∨ n = 0x208 ∨ n = 0x209 then some (1, 1)
  else if (0x300 ≤ n ∧ n ≤ 0x309) ∨ (0x310 ≤ n ∧ n ≤ 0x313) ∨ (0x320 ≤ n ∧ n ≤ 0x37F) then some (0, 0)
  else if n = 0x500 then some (0, 0)
  else if n = 0x501 then some (1, 1)
  else none

/-- Is a number one whose use needs the matrix state (R167)? -/
def sysMx (n : Nat) : Bool := 0x300 ≤ n && n ≤ 0x4FF

/-- The groups a MOVS or MOVC names (R271, R295, R241); a MOVC to TTAGn touches Reg(Tn) as a MOVS does. DESIGN CHOICE
(assumption 100). -/
def State.sysTouch (s : State) (n : Nat) : List Nat :=
  if n ≤ 0x308 ∨ 0x340 ≤ n then [7]
  else if 0x311 ≤ n ∧ n ≤ 0x313 then [4]
  else if 0x320 ≤ n then (groupOf s.mx.mode.toNat (n - 0x320)).toList
  else []

/-- KENERGY of a context (R437): while its slot is full, the energy of its KERNEL so far. DEDUCED (assumption 45). -/
def State.kenergy (s : State) (c : CtxId) : Nat :=
  let kept := (match c with | .c0 => s.core.kenergy0 | .c1 => s.core.kenergy1).toNat
  if s.is (F.kFull c.num) && !s.is (F.kExpired c.num) then
    match (s.ring (s.g (F.kRing c.num))).exec with
    | some e => if execIsKernel e then min (e.energy / 256) (2 ^ 32 - 1) else kept
    | none => kept
  else kept

/-- The value MOVS reads from a system register in context `c`. -/
def State.sysRead (s : State) (c : CtxId) (n : Nat) : Word :=
  let x := s.ctx c
  let m := s.mx
  let nat (v : Nat) : Word := BitVec.ofNat 64 v
  match n with
  | 0x000 => nat (pstatNat c x)
  | 0x008 => zext x.wvalid
  | 0x009 => x.wsp
  | 0x00A => x.wslimit
  | 0x010 => nat (b2n x.reelTrap)
  | 0x011 => x.reelsp
  | 0x012 => nat x.depth
  | 0x020 => x.mpl
  | 0x021 => x.mph
  | 0x100 => x.xvecS
  | 0x101 => x.xvecM
  | 0x102 => zext x.xcauseS
  | 0x103 => x.xaddrS
  | 0x104 => x.xspS
  | 0x105 => x.xsbaseS
  | 0x106 => x.xslimitS
  | 0x108 => zext x.xcauseM
  | 0x109 => x.xaddrM
  | 0x10A => x.xspM
  | 0x10B => x.xsbaseM
  | 0x10C => x.xslimitM
  | 0x110 => zext x.xnest
  | 0x111 => x.xdeleg
  | 0x112 => zext x.xien
  | 0x113 => zext (s.pendNow c)
  | 0x118 => x.zpc
  | 0x119 => x.zst
  | 0x11A => nat (b2n x.zbusy)
  | 0x120 => nat (b2n s.core.benchBusy + 2 * s.core.benchCtx.num + 2 ^ 32 * s.core.benchDepth.toNat)
  | 0x200 => nat (s.core.run.toNat + 4 * s.core.xpre.toNat)
  | 0x202 => nat (b2n x.xback + 2 * x.xbpl.toNat + 2 ^ 32 * x.xbdepth.toNat)
  | 0x208 => nat s.core.mxOwner.num
  | 0x209 => nat (s.core.mxDirty.toNat + 256 * b2n s.core.mxCfg)
  | 0x210 => zext s.core.chestBase0
  | 0x211 => zext s.core.chestBase1
  | 0x213 => nat (b2n s.core.chestOp.isSome + 2 * s.core.chestErr.toNat)
  | 0x214 => s.core.chestXa
  | 0x215 => s.core.chestCtr0
  | 0x216 => s.core.chestCtr1
  | 0x217 => s.core.chestXctr
  | 0x308 => nat (b2n m.ovf + 2 * b2n m.inv)
  | 0x309 => zext x.srstate
  | 0x310 => zext m.mode
  | 0x311 => nat (accStat m.acc)
  | 0x312 => m.acc.lossCnt
  | 0x313 => m.acc.repCnt
  | 0x500 => nat (s.g F.ltime)
  | 0x501 => nat (s.kenergy c)
  | _ =>
    if 0x300 ≤ n ∧ n ≤ 0x307 then zext (tget 0 m.scale (n - 0x300))
    else if 0x320 ≤ n ∧ n ≤ 0x33F then (if n - 0x320 < regCount m.mode.toNat then nat (tagNat (m.tag (n - 0x320))) else 0)
    else if 0x340 ≤ n ∧ n ≤ 0x37F then zext (tget 0 m.ehist (n - 0x340))
    else 0

/-- XDELEG bits that can be written (R157). -/
def xdelegMask : Word := 0x7F0006CFFE

/-- A write of a context's own registers (R132, R133, R157, R106). DEDUCED (assumption 36). -/
def Ctx.sysWrite (x : Ctx) (n : Nat) (v : Word) : Ctx :=
  let u := v.toNat
  match n with
  | 0x000 =>
    let y := { x with n := bit u 8, z := bit u 9, cf := bit u 10, v := bit u 11, p := bit u 12 }
    if x.pl = 0 then y else { y with ie := bit u 16 }
  | 0x008 => { x with wvalid := BitVec.ofNat 8 u ||| (1 <<< x.cwp.toNat) }
  | 0x009 => { x with wsp := v }
  | 0x00A => { x with wslimit := v }
  | 0x010 => { x with reelTrap := bit u 0 }
  | 0x011 => { x with reelsp := v }
  | 0x012 => if u % 32 < x.depth then { x with reel := x.reel.take (u % 32) } else x
  | 0x020 => { x with mpl := v, prods := x.prods.map fun p => { p with lo := none } }
  | 0x021 => { x with mph := v, prods := x.prods.map fun p => { p with hi := none } }
  | 0x100 => { x with xvecS := v &&& ~~~63 }
  | 0x101 => { x with xvecM := v &&& ~~~63 }
  | 0x102 => { x with xcauseS := BitVec.ofNat 9 u }
  | 0x103 => { x with xaddrS := v }
  | 0x104 => { x with xspS := v }
  | 0x105 => { x with xsbaseS := v }
  | 0x106 => { x with xslimitS := v }
  | 0x108 => { x with xcauseM := BitVec.ofNat 9 u }
  | 0x109 => { x with xaddrM := v }
  | 0x10A => { x with xspM := v }
  | 0x10B => { x with xsbaseM := v }
  | 0x10C => { x with xslimitM := v }
  | 0x111 => { x with xdeleg := v &&& xdelegMask }
  | 0x112 =>
    let m : BitVec 7 := if x.pl = 1 then BitVec.ofNat 7 (bits x.xdeleg.toNat 32 7) else BitVec.allOnes 7
    { x with xien := (x.xien &&& ~~~m) ||| (BitVec.ofNat 7 u &&& m) }
  | 0x118 => { x with zpc := v }
  | 0x119 => { x with zst := v &&& zstMask }
  | 0x309 => { x with srstate := if BitVec.ofNat 32 u = 0 then 1 else BitVec.ofNat 32 u }
  | _ => x

/-- CTXSTART (R163, R245): the banked state takes its reset values, the shape tags are zero. The messages the context has sent
and causes that stay pending for it are not touched: the latter count as newly pending. DESIGN CHOICE (assumption 64). MXDIRTY stays
as it is. DESIGN CHOICE (assumption 93). The records of its unacknowledged stores and what it waited for are gone. DESIGN CHOICE
(assumption 95). -/
def State.ctxStart (s : State) (v : Word) : State :=
  let c := CtxId.named v.toNat
  if c = s.core.cur then s
  else
    let s := s.purge.setCtx c { Ctx.reset with pc := v &&& ~~~3 }
    let s := s.restart (1 + c.num)
    { s with mx := { s.mx with tags := [] },
             qe := { s.qe with imq := s.qe.imq.filter fun e => e.ctx ≠ c },
             core := { s.core with run := s.core.run ||| (1 <<< c.num) } }

/-- CTXCTL (R162): the executing context cannot clear its own RUN bit. -/
def State.ctxCtl (s : State) (v : Nat) : State :=
  { s with core := { s.core with run := BitVec.ofNat 2 v ||| (1 <<< s.core.cur.num), xpre := BitVec.ofNat 2 (bits v 2 2) } }

/-- TCFG (R246, R247): the file and the tags are zeroed, DIRTY[3:0] cleared and CFG set; 0b11 has no effect. -/
def State.tcfg (s : State) (v : Nat) : State :=
  if v % 4 = 3 then s
  else
    { s with mx := { s.mx with mode := BitVec.ofNat 2 v, file := [], tags := [] },
             core := { s.core with mxDirty := s.core.mxDirty &&& 0xF0, mxCfg := true } }

/-- A write of CHESTCMD (R172, R174): ignored while an operation is under way. DEDUCED (assumption 49). -/
def State.chestCmd (s : State) (v : Nat) : State :=
  if s.core.chestOp.isSome then s else s.chestStart (v % 8) (CtxId.named (bits v 4 1)) (BitVec.ofNat 8 (bits v 8 8))

/-- Update the matrix state and mark a group dirty. -/
def State.setMx (s : State) (m : Mx) (gs : List Nat) : State := State.dirty { s with mx := m } gs

/-- The effect of MOVC of `v` to a system register in the executing context (R131). -/
def State.sysWrite (s : State) (n : Nat) (v : Word) : State :=
  let u := v.toNat
  let w32 : Word32 := v.setWidth 32
  let m := s.mx
  let k := s.core
  match n with
  | 0x120 => if bit u 0 then { s with core := { k with benchBusy := false } } else s
  | 0x200 => s.ctxCtl u
  | 0x201 => s.ctxStart v
  | 0x210 => { s with core := { k with chestBase0 := BitVec.ofNat 8 u } }
  | 0x211 => { s with core := { k with chestBase1 := BitVec.ofNat 8 u } }
  | 0x212 => s.chestCmd u
  | 0x214 => { s with core := { k with chestXa := v &&& ~~~63 } }
  | 0x215 => { s with core := { k with chestCtr0 := v } }
  | 0x216 => { s with core := { k with chestCtr1 := v } }
  | 0x217 => { s with core := { k with chestXctr := v } }
  | 0x308 => s.setMx { m with ovf := m.ovf && !bit u 0, inv := m.inv && !bit u 1 } [7]
  | 0x310 => s.tcfg u
  | 0x311 => s.setMx { m with acc := { m.acc with loss := m.acc.loss && !bit u 2, sat := m.acc.sat && !bit u 3 } } [4]
  | 0x312 => s.setMx { m with acc := { m.acc with lossCnt := v } } [4]
  | 0x313 => s.setMx { m with acc := { m.acc with repCnt := v } } [4]
  | _ =>
    if 0x300 ≤ n ∧ n ≤ 0x307 then s.setMx { m with scale := tput 0 m.scale (n - 0x300) w32 } [7]
    else if 0x340 ≤ n ∧ n ≤ 0x37F then s.setMx { m with ehist := tput 0 m.ehist (n - 0x340) w32 } [7]
    else s.setCx (s.cx.sysWrite n v)

end Sys2Proof.Machine
end

