-- ==== Sys2Proof/Machine/Operands.lean ====
section
/-! DEFINITION. The operand forms of the encoding frames (R116 to R122, R248 to R252, R304, R305): immediates, branch
targets, and the parcels an instruction is encoded in. -/

namespace Sys2Proof

/-- The parcel of frame A: major opcode and FUNC[5:0] (R117). DEDUCED (assumption 52). -/
def FrameA.parcel (a : FrameA) (major op : Nat) : Nat :=
  a.cond.toNat * 2 ^ 29 + major * 2 ^ 22 + a.rd.toNat * 2 ^ 17 + a.rs1.toNat * 2 ^ 12 + a.rs2.toNat * 2 ^ 7
    + (if a.f then 64 else 0) + op

/-- The parcel of frame B. DEDUCED (assumption 52). -/
def FrameB.parcel (b : FrameB) (major : Nat) : Nat :=
  b.cond.toNat * 2 ^ 29 + major * 2 ^ 22 + b.rd.toNat * 2 ^ 17 + b.rs1.toNat * 2 ^ 12 + b.imm.toNat

/-- The parcel of a shift immediate of kind `k` (R123). -/
def FrameSh.parcel (b : FrameSh) (k : Nat) : Nat :=
  b.cond.toNat * 2 ^ 29 + 0x0A * 2 ^ 22 + b.rd.toNat * 2 ^ 17 + b.rs1.toNat * 2 ^ 12 + b.rsv.toNat * 2 ^ 9
    + (if b.f then 256 else 0) + k * 64 + b.count.toNat

/-- The parcel of frame C. -/
def FrameC.parcel (c : FrameC) (major : Nat) : Nat :=
  c.cond.toNat * 2 ^ 29 + major * 2 ^ 22 + c.cc.toNat * 2 ^ 18 + c.off.toNat

/-- The parcel of frame D. -/
def FrameD.parcel (d : FrameD) (major : Nat) : Nat := d.cond.toNat * 2 ^ 29 + major * 2 ^ 22 + d.off.toNat

/-- The parcel of frame E. -/
def FrameE.parcel (e : FrameE) : Nat :=
  e.cond.toNat * 2 ^ 29 + (0x10 + e.n.toNat) * 2 ^ 22 + e.rd.toNat * 2 ^ 17 + (if e.keep then 65536 else 0) + e.imm.toNat

/-- The first parcel of LIW (H = 0) or LIWH (H = 1) (R122). -/
def FrameL.parcel (l : FrameL) (h : Nat) : Nat :=
  l.cond.toNat * 2 ^ 29 + 0x7F * 2 ^ 22 + l.rd.toNat * 2 ^ 13 + l.zero.toNat * 2 + h

/-- The parcel of SEND (R126). -/
def FrameSend.parcel (a : FrameSend) : Nat :=
  a.cond.toNat * 2 ^ 29 + 0x3C * 2 ^ 22 + a.rd.toNat * 2 ^ 17 + a.rs1.toNat * 2 ^ 12 + a.rs2.toNat * 2 ^ 7
    + a.rsv.toNat * 4 + a.lenm1.toNat

/-- The parcel of a 32-bit vector instruction (R304). -/
def FrameV.parcel (a : FrameV) (major op : Nat) : Nat :=
  a.cond.toNat * 2 ^ 29 + major * 2 ^ 22 + a.vd.toNat * 2 ^ 17 + a.va.toNat * 2 ^ 12 + a.vb.toNat * 2 ^ 7 + op * 4 + a.t.toNat

/-- The first parcel of a 64-bit vector instruction (R121, R305). -/
def FrameW.parcel (a : FrameW) (vop : Nat) : Nat :=
  a.cond.toNat * 2 ^ 29 + 0x7F * 2 ^ 22 + 1 * 2 ^ 18 + vop * 2 ^ 13 + a.v.toNat * 2 ^ 8 + a.x.toNat * 2 ^ 3 + a.zero.toNat

/-- The first parcel of a matrix instruction (R248). DEDUCED (assumption 52). -/
def FrameM.parcel (m : FrameM) (mop : Nat) : Nat :=
  m.cond.toNat * 2 ^ 29 + 0x7F * 2 ^ 22 + 2 * 2 ^ 18 + mop * 2 ^ 13 + m.p1.toNat

/-- The sign-extended immediate (R118). -/
def FrameB.simm (b : FrameB) : Word := Machine.sext b.imm

/-- The zero-extended immediate. -/
def FrameB.uimm (b : FrameB) : Word := Machine.zext b.imm

end Sys2Proof

namespace Sys2Proof.Machine

/-- The effective address rs1 + sext(IMM12) (R123). -/
def State.ea (s : State) (b : FrameB) : Word := s.r b.rs1 + b.simm

/-- The target of OFFSET18 or OFFSET22, counted in words from the instruction (R116, R117). -/
def relTarget {n : Nat} (pc : Word) (off : BitVec n) : Word := pc + (sext off <<< 2)

end Sys2Proof.Machine
end

