-- ==== Sys2Proof/Machine/Flags.lean ====
section
/-! DEFINITION. The flag computations (R107), the condition field (R108) and the branch conditions (R110). -/

namespace Sys2Proof.Machine

/-- The four flags. -/
structure Flags where
  n : Bool
  z : Bool
  c : Bool
  v : Bool
  deriving DecidableEq, Repr

/-- Put the flags into a context. -/
def Ctx.setFlags (x : Ctx) (f : Flags) : Ctx := { x with n := f.n, z := f.z, cf := f.c, v := f.v }

/-- rs1 + rs2 + carry-in: result and flags. -/
def addFlags (a b : Word) (cin : Bool) : Word × Flags :=
  let r := a + b + BitVec.ofNat 64 (b2n cin)
  (r, { n := r.msb, z := r = 0, c := decide (2 ^ 64 ≤ a.toNat + b.toNat + b2n cin),
        v := a.msb == b.msb && r.msb != a.msb })

/-- rs1 - rs2 - borrow-in; C is 1 when there is no borrow. -/
def subFlags (a b : Word) (bin : Bool) : Word × Flags :=
  let r := a - b - BitVec.ofNat 64 (b2n bin)
  (r, { n := r.msb, z := r = 0, c := decide (b.toNat + b2n bin ≤ a.toNat),
        v := a.msb != b.msb && r.msb != a.msb })

/-- The flags of a logical result. -/
def logicFlags (r : Word) : Word × Flags := (r, { n := r.msb, z := r = 0, c := false, v := false })

/-- Kinds of shift, in the order of their codes. -/
inductive ShiftKind where
  | shl | shr | sar | ror
  deriving DecidableEq, Repr

/-- A shift or rotate by 0 to 63; C is the last bit shifted or rotated out, 0 for a count of 0. -/
def shiftFlags (k : ShiftKind) (a : Word) (n : Nat) : Word × Flags :=
  let r : Word := match k with
    | .shl => a <<< n
    | .shr => a >>> n
    | .sar => a.sshiftRight n
    | .ror => a.rotateRight n
  let out := match k with
    | .shl => a.getLsbD (64 - n)
    | _ => a.getLsbD (n - 1)
  (r, { n := r.msb, z := r = 0, c := decide (0 < n) && out, v := false })

/-- Does the condition field hold (R108)? -/
def Ctx.cond (x : Ctx) (c : BitVec 3) : Bool :=
  match c.toNat with
  | 0 => true
  | 1 => x.z
  | 2 => !x.z
  | 3 => x.n
  | 4 => !x.n
  | 5 => x.cf
  | 6 => !x.cf
  | _ => x.p

/-- Does branch condition `cc` hold (R110)? Codes from 0xC up are not branch conditions. -/
def Ctx.branch (x : Ctx) (cc : Nat) : Bool :=
  match cc with
  | 0 => x.z
  | 1 => !x.z
  | 2 => x.n != x.v
  | 3 => x.n == x.v
  | 4 => !x.cf
  | 5 => x.cf
  | 6 => x.n
  | 7 => !x.n
  | 8 => x.v
  | 9 => !x.v
  | 0xA => !x.z && x.n == x.v
  | 0xB => x.z || x.n != x.v
  | _ => false

/-- The value PSET gives P (R111). -/
def Ctx.pset (x : Ctx) (cc : Nat) : Bool :=
  if cc = 0xC then !x.p else if cc = 0xE then false else if cc = 0xF then true else x.branch cc

end Sys2Proof.Machine
end

