-- ==== Sys2Proof/Machine/Issue.lean ====
section
/-! DEFINITION. What executing an instruction of the issuing context rests on: its fetch, its retirement, ownership, and how it is
encoded (R95, R109, R112, R116, R120, R137, R167, R203, R212). -/

namespace Sys2Proof.Machine

/-- An instruction as it was fetched: its first parcel, its length in bytes, its condition, whether its encoding is
legal (R120), its level (R123), and whether it is a matrix or vector instruction (R167, R174). -/
structure Enc where
  parcel : Nat
  len : Nat
  cond : BitVec 3
  legal : Bool
  level : Nat
  mx : Bool
  deriving DecidableEq, Repr

/-- SPN_PSSTAT tells N1 from N0: N1 while the issuing context waits in WFE (R26, R428). -/
def State.syncN1 (s : State) : State :=
  if s.inRun && s.power < 2 && !s.isFenced then s.put F.psState (b2n (s.cx.wait = .wfe)) else s

/-- Bring XPEND of both contexts, and N1, up to date. -/
def State.refresh (s : State) : State := ((s.updatePend .c0).updatePend .c1).syncN1

/-- May the parcel at `a` be fetched (R116, R194)? -/
def State.fetchOk (s : State) (a : Word) : Bool :=
  match s.place a with
  | .lm off => off + 4 ≤ benchBase && s.pageOk s.core.cur s.cx.pl.toNat (pageOf off)
  | .node b => offOf b + 4 ≤ benchBase
  | .ext _ => true
  | _ => false

/-- The lowest failing ECC word of the 32-byte transfer that fetches the parcel at `a` from local memory (R184, R190).
DEDUCED (assumption 63). -/
def State.fetchFails (s : State) (a : Word) : Option Nat :=
  match s.place a with
  | .lm off => s.eccFail (eccWords (off / 32 * 32) 32)
  | _ => none

/-- The lookup of the parcel at `a`: whether it is there to be issued, and what looking left. Code of another node or of external
space is fetched through L1I (R202, R203). -/
def State.parcelLook (s : State) (a : Word) : Bool × State :=
  if cacheable (s.place a) then
    let r := s.codeLoad s.core.cur a
    (r.1.isSome, r.2)
  else (true, s)

/-- Is the parcel at `a` there? -/
def State.parcelHere (s : State) (a : Word) : Bool := (s.parcelLook a).1

/-- The node after an instruction of `len` bytes at the PC has been looked up, parcel by parcel. -/
def State.parcelsLooked (s : State) (len : Nat) : State :=
  let pc := s.cx.pc
  if pc.toNat % 4 ≠ 0 || !s.fetchOk pc then s
  else
    let r := s.parcelLook pc
    if !r.1 || len ≠ 8 || !r.2.fetchOk (pc + 4) then r.2 else (r.2.parcelLook (pc + 4)).2

/-- The node as an instruction finds it: an MDRAIN under way is complete (R270), the test gate of R65 has closed, and its parcels
have been looked up. -/
def State.begun (s : State) (len : Nat := 4) : State :=
  State.parcelsLooked { s.drainForce with up := { s.drainForce.up with ran := true } } len

/-- The cause the fetch at the PC raises, with its XADDR and XINST: ALIGN, then for each parcel ACCESS and MEM_DATA
(R116, R137, R141, R190). -/
def State.fetchCause (s : State) (e : Enc) : Option (Nat × Word × Word32) :=
  let pc := s.cx.pc
  let first := BitVec.ofNat 32 e.parcel
  if pc.toNat % 4 ≠ 0 then some (cAlign, pc, 0)
  else if !s.fetchOk pc then some (cAccess, pc, 0)
  else
    match s.fetchFails pc with
    | some w => some (cMemData, wordAddr pc w, 0)
    | none =>
      if e.len ≠ 8 || !s.parcelHere pc then none
      else if !s.fetchOk (pc + 4) then some (cAccess, pc + 4, first)
      else (s.fetchFails (pc + 4)).map fun w => (cMemData, wordAddr (pc + 4) w, first)

/-- The first parcel of the instruction at the PC that is not there, with the XINST of a failure (R141, R212). -/
def State.fetchMiss (s : State) (e : Enc) : Option (Word × Word32) :=
  let pc := s.cx.pc
  if !s.parcelHere pc then some (pc, 0)
  else if e.len = 8 && !s.parcelHere (pc + 4) then some (pc + 4, BitVec.ofNat 32 e.parcel)
  else none

/-- The READ of a sector of code that is under way for context `c`. -/
def State.codeComing (s : State) (c : CtxId) (b : Word) : Option (BitVec 16) :=
  (s.qe.outst.find? fun e => e.2 = Owner.code c b).map fun e => e.1

/-- Read a sector of code (R203). -/
def State.askCode (s : State) (c : CtxId) (b : Word) : BitVec 16 × State := s.request (.code c b) 1 0 b 32 c []

/-- A parcel is not there: its sector is read, and the next one of its line where that is not valid; the context waits for the
first (R203, R212). DEDUCED (assumption 48). -/
def State.askFetch (s : State) (a : Word) (inst : Word32) : State :=
  let c := s.core.cur
  let b := sectorBase a
  let t := match s.codeComing c b with
    | some t => (t, s)
    | none => s.askCode c b
  let s := t.2.setCtx c { t.2.ctx c with wait := .fetch t.1 a inst }
  let n := b + 32
  if lineOf n = lineOf b && !s.codeHere c n && (s.codeComing c n).isNone then (s.askCode c n).2 else s

/-- A fetch whose transfer failed is counted and recorded (R190). -/
def State.fetchNoted (s : State) (c : Nat) (a : Word) : State :=
  if c = cMemData then s.eccFailed reqCore (some s.core.cur) (offOf a / 8) else s

/-- An instruction of context `c` has retired: it counts as one (R112), and control goes to `pc`. -/
def State.retireOf (s : State) (c : CtxId) (pc : Word) : State :=
  let s := s.setCtx c { (s.ctx c).age with pc := pc, afterEret := false }
  s.perf 0x02 1 (some c)

/-- An instruction of the issuing context has retired. -/
def State.retire (s : State) (pc : Word) : State := s.retireOf s.core.cur pc

/-! ### Ownership (R167, R271) -/

/-- XADDR of MX_NOT_OWNED (R167). -/
def State.notOwnedAddr (s : State) (touch : List Nat) : Word :=
  let t := touch.foldl (fun m g => m ||| 2 ^ g) 0
  BitVec.ofNat 64 (t + 256 * s.core.mxDirty.toNat + 2 ^ 16 * b2n s.core.mxCfg + 2 ^ 17 * s.core.mxOwner.num)

/-- The owner goes on; another context raises MX_NOT_OWNED. -/
def State.owned (s : State) (touch : List Nat) (k : State → Done) : Done :=
  if s.core.mxOwner = s.core.cur then k s else .exc s cMxNotOwned (s.notOwnedAddr touch)

/-! ### Encodings -/

/-- Frame A at U; F = 1 is legal. -/
def encF (major op : Nat) (a : FrameA) : Enc :=
  { parcel := a.parcel major op, len := 4, cond := a.cond, legal := true, level := 0, mx := false }

/-- Frame A at a level; no .f form exists, and `ok` is the rest of R120. -/
def encA (major op level : Nat) (ok : Bool) (a : FrameA) : Enc :=
  { parcel := a.parcel major op, len := 4, cond := a.cond, legal := !a.f && ok, level := level, mx := false }

/-- Frame B. -/
def encB (major level : Nat) (ok : Bool) (b : FrameB) : Enc :=
  { parcel := b.parcel major, len := 4, cond := b.cond, legal := ok, level := level, mx := false }

/-- Frame D. -/
def encD (major : Nat) (ok : Bool) (d : FrameD) : Enc :=
  { parcel := d.parcel major, len := 4, cond := d.cond, legal := ok, level := 0, mx := false }

/-! ### Results -/

/-- Write rd, and the flags when asked (R97, R107). -/
def State.result (s : State) (f : Bool) (rd : BitVec 5) (r : Word × Flags) : Done :=
  let x := s.cx.wr rd r.1
  .next (s.setCx (if f then x.setFlags r.2 else x))

/-- Write rd and no flag. -/
def State.value (s : State) (rd : BitVec 5) (v : Word) : Done := .next (s.w rd v)

end Sys2Proof.Machine
end

