-- ==== Sys2Proof/Machine/MemOps.lean ====
section
/-! DEFINITION. Accesses of the core to memory: posted stores, loads, doublewords of the window and Reel areas, atomics
(R103, R105, R123, R124, R149, R194, R202 to R212). -/

namespace Sys2Proof.Machine

/-! ### Posted stores (R209) -/

/-- Stores of a context not yet acknowledged. -/
def State.unacked (s : State) (c : CtxId) : List Posted := (s.ctx c).posted.filter fun e => e.answer.isNone

/-- Is an earlier store to the line of `a` unacknowledged? -/
def State.lineBusy (s : State) (c : CtxId) (a : Word) : Bool := (s.unacked c).any fun e => lineOf e.addr = lineOf a

/-- Post a store of bytes within one line (R206, R209). -/
def State.postStore (s : State) (c : CtxId) (a : Word) (d : List Byte) : State :=
  let t := s.request (.store c) 3 0 a 0 c d
  let s := t.2
  let s := if cacheable (s.place a) then
      forN ((d.length + 7) / 8) (fun i s => s.cacheStore c (a + BitVec.ofNat 64 (8 * i)) ((d.drop (8 * i)).take 8)) s
    else s
  s.setCtx c { s.ctx c with posted := (s.ctx c).posted ++ [{ tag := t.1, addr := a, answer := none }] }

/-! ### Loads and stores -/

/-- What a load makes of the bytes it read (R123). -/
def LoadForm.value (f : LoadForm) (d : List Byte) : Word :=
  let v := leNat (d.take f.bytes)
  if f.signed then BitVec.ofInt 64 (Machine.signed (8 * f.bytes) v) else BitVec.ofNat 64 v

/-- The issuing context's accessor. -/
def State.coreAcc (s : State) : Acc := .loc s.core.cur s.cx.pl.toNat

/-- Send the READ of a load and wait. -/
def State.sendLoad (s : State) (a : Word) (f : LoadForm) (fill : Bool) : Done :=
  let c := s.core.cur
  let t := if fill then s.request (.load c) 1 0 (sectorBase a) 32 c []
           else s.request (.load c) 1 0 a (BitVec.ofNat 64 f.bytes) c []
  .wait (t.2.setCtx c { t.2.ctx c with wait := .load t.1 a f fill })

/-- A local load of memory. -/
def State.loadLm (s : State) (a : Word) (off : Nat) (f : LoadForm) : Done :=
  match s.lmRead reqCore (some s.core.cur) off f.bytes with
  | (.ok d, s) => s.value f.rd (f.value d)
  | (.error w, s) => .exc s cMemData (wordAddr a w)

/-- A load at an address (R123, R124, R149, R194, R202, R203, R209). DEDUCED (assumption 37). -/
def State.loadAt (s : State) (a : Word) (f : LoadForm) : Done :=
  let c := s.core.cur
  if a.toNat % f.bytes ≠ 0 then .exc s cAlign a
  else
    match s.place a with
    | .lm off => if s.pageOk c s.cx.pl.toNat (pageOf off) then s.loadLm a off f else .exc s cAccess a
    | .bench off => if s.cx.pl = 2 then s.loadLm a off f else .exc s cAccess a
    | .ctrl o =>
      let r := o / 8 * 8
      if s.mayRead s.coreAcc r then
        let v := s.readReg s.coreAcc r
        v.2.value f.rd (f.value ((toLe 8 v.1.toNat).drop (o % 8)))
      else .exc s cAccess a
    | .bad => .exc s cAccess a
    | p =>
      if s.lineBusy c a then .wait s
      else if cacheable p then
        match s.cacheLoad c a f.bytes with
        | (some d, s) => s.value f.rd (f.value d)
        | (none, s) => s.sendLoad a f true
      else s.sendLoad a f false

/-- A local store of memory. -/
def State.storeLm (s : State) (a : Word) (off : Nat) (d : List Byte) : Done :=
  match s.lmWrite reqCore (some s.core.cur) off d with
  | (none, s) => .next s
  | (some w, s) => .exc s cMemData (wordAddr a w)

/-- A store of the low `n` bytes of a register (R123, R124, R149, R194, R206, R209, R502). -/
def State.storeAt (s : State) (a : Word) (n : Nat) (v : Word) : Done :=
  let c := s.core.cur
  let d := toLe n v.toNat
  if a.toNat % n ≠ 0 then .exc s cAlign a
  else
    match s.place a with
    | .lm off => if s.pageOk c s.cx.pl.toNat (pageOf off) then s.storeLm a off d else .exc s cAccess a
    | .bench off => if s.cx.pl = 2 then s.storeLm a off d else .exc s cAccess a
    | .ctrl o =>
      if n < 8 then .exc s cAlign a
      else if s.mayWrite s.coreAcc o && !s.ownRefuses o v.toNat [(o, v.toNat)] then .next (s.writeReg s.coreAcc o v)
      else .exc s cAccess a
    | .bad => .exc s cAccess a
    | _ =>
      if s.lineBusy c a || 16 ≤ (s.unacked c).length then .wait s
      else .next (s.postStore c a d)

/-! ### Atomics (R211) -/

/-- The value an atomic leaves. -/
def atomicNew (cas : Bool) (old a b : Word) : Word := if cas then (if old = a then b else old) else old + a

/-- One two-cycle transfer: the old doubleword, and the new one stored (R183). -/
def State.lmAtomic (s : State) (req : Nat) (ctx : Option CtxId) (off : Nat) (cas : Bool) (a b : Word) :
    Except Nat Word × State :=
  match s.lmRead req ctx off 8 with
  | (.error w, s) => (.error w, s)
  | (.ok d, s) =>
    let old : Word := BitVec.ofNat 64 (leNat d)
    (.ok old, { s with mem := s.mem.write off (toLe 8 (atomicNew cas old a b).toNat), ecc := tput .good s.ecc (off / 8) .good })

/-- AADD or ACAS at an address. DESIGN CHOICE (assumption 24). -/
def State.atomicAt (s : State) (cas : Bool) (a v w : Word) (rd : BitVec 5) (inst : Word32) : Done :=
  let c := s.core.cur
  if a.toNat % 8 ≠ 0 then .exc s cAlign a
  else
    match s.place a with
    | .lm off =>
      if s.pageOk c s.cx.pl.toNat (pageOf off) then
        match s.lmAtomic reqCore (some c) off cas v w with
        | (.ok old, s) => s.value rd old
        | (.error k, s) => .exc s cMemData (wordAddr a k)
      else .exc s cAccess a
    | .node b =>
      if 0x400000 ≤ offOf b then .exc s cAccess a
      else if s.lineBusy c a then .wait s
      else
        let s := (s.invalSector a).tick
        let w := if cas then w else Config.freeWord (s.fresh - 1)
        let t := s.request (.atomic c) 5 0 a (BitVec.ofNat 64 (b2n cas)) c (toLe 8 v.toNat ++ toLe 8 w.toNat)
        .wait (t.2.setCtx c { t.2.ctx c with wait := .atomic t.1 a rd inst })
    | _ => .exc s cAccess a

/-! ### Doublewords of a spill area (R103, R105) -/

/-- The addresses of `n` doublewords from `a`. -/
def dwords (a : Word) (n : Nat) : List Word := (List.range n).map fun i => a + BitVec.ofNat 64 (8 * i)

/-- The first of `n` doublewords from `a` that the issuing context may not load or store. DEDUCED (assumption 37). -/
def State.dwRefused (s : State) (write : Bool) (a : Word) (n : Nat) : Option Word :=
  (dwords a n).find? fun b =>
    match s.place b with
    | .lm off => !s.pageOk s.core.cur s.cx.pl.toNat (pageOf off)
    | .ctrl o => !(if write then s.mayWrite s.coreAcc o else s.mayRead s.coreAcc o)
    | .node _ => false
    | .ext _ => false
    | _ => true

/-- Store one doubleword of the node's own space. -/
def State.dwStore (s : State) (e : Word × Word) : State :=
  match s.place e.1 with
  | .lm off => (s.lmWrite reqCore (some s.core.cur) off (toLe 8 e.2.toNat)).2
  | .ctrl o => s.writeReg s.coreAcc o e.2
  | _ => s

/-- The lines of `n` doublewords from `a`, each with its first doubleword and their count. An area may leave the node's own space
between two lines, never within one (R32, R103). -/
def dwLines (a : Word) (n : Nat) : List (Nat × Nat) :=
  let k := (128 - a.toNat % 128) / 8
  if n ≤ k then [(0, n)] else [(0, k), (k, n - k)]

/-- The lines among them that lie outside the node. -/
def State.remoteLines (s : State) (a : Word) (n : Nat) : List (Nat × Nat) :=
  (dwLines a n).filter fun e => (s.place (a + BitVec.ofNat 64 (8 * e.1))).remote

/-- Store doublewords from `a`, those of the node's own space directly, the others by line; `after` is what the instruction then does.
A line of a remote area is one WRITE and counts as one of the sixteen unacknowledged stores of R209. DESIGN CHOICE (assumption 97). -/
def State.storeDws (s : State) (a : Word) (vs : List Word) (after : State → State) : Done :=
  let c := s.core.cur
  match s.dwRefused true a vs.length with
  | some b => .exc s cAccess b
  | none =>
    let ls := s.remoteLines a vs.length
    if (ls.any fun e => s.lineBusy c (a + BitVec.ofNat 64 (8 * e.1))) || (!ls.isEmpty && 16 < (s.unacked c).length + ls.length) then .wait s
    else
      let s := ((dwords a vs.length).zip vs).foldl State.dwStore s
      .next (after (ls.foldl (fun s e =>
        s.postStore c (a + BitVec.ofNat 64 (8 * e.1)) (((vs.drop e.1).take e.2).flatMap fun v => toLe 8 v.toNat)) s))

/-- Load doublewords of the node's own space for context `c`, or the failing ECC word. DEDUCED (assumption 37). -/
def State.dwLoads (s : State) (c : CtxId) : List Word → Except Nat (List Word) × State
  | [] => (.ok [], s)
  | b :: r =>
    match s.place b with
    | .lm off =>
      match s.lmRead reqCore (some c) off 8 with
      | (.error w, s) => (.error w, s)
      | (.ok d, s) =>
        match s.dwLoads c r with
        | (.error w, s) => (.error w, s)
        | (.ok vs, s) => (.ok (BitVec.ofNat 64 (leNat d) :: vs), s)
    | .ctrl o =>
      let v := s.readReg (.loc c (s.ctx c).pl.toNat) o
      match v.2.dwLoads c r with
      | (.error w, s) => (.error w, s)
      | (.ok vs, s) => (.ok (v.1 :: vs), s)
    | _ =>
      match s.dwLoads c r with
      | (.error w, s) => (.error w, s)
      | (.ok vs, s) => (.ok (0 :: vs), s)

/-- WFILL's effect once its ten doublewords are read (R103). -/
def Ctx.windowIn (x : Ctx) (vs : List Word) : Ctx :=
  let w := (x.cwp - 1).toNat
  let y := forN 6 (fun i (y : Ctx) => { y with h := tput 0 y.h (6 * w + i) (vs.getD i 0) }) x
  let y := forN 4 (fun i (y : Ctx) => { y with k := tput 0 y.k (4 * w + i) (vs.getD (6 + i) 0) }) y
  { y.setLive w true with wsp := y.wsp - 80 }

/-- RFILL's effect once its entry is read (R105). -/
def Ctx.reelIn (x : Ctx) (v : Word) : Ctx := { x with reel := v :: x.reel, reelsp := x.reelsp - 8 }

/-- The effect of a fill: a window of ten doublewords, or a Reel entry. -/
def Ctx.filled (x : Ctx) (vs : List Word) : Ctx := if vs.length = 1 then x.reelIn (vs.headD 0) else x.windowIn vs

/-- Read on, sector by sector: the bytes, none while an answer is awaited, or the address of a failing word of own local memory.
A sector is the node's own or remote as a whole (R32, R103). -/
def State.fillLoop (c : CtxId) (a : Word) (len : Nat) (inst : Word32) : Nat → List Byte → State → Except Word (Option (List Byte)) × State
  | 0, got, s => (.ok (some got), s)
  | n + 1, got, s =>
    if len ≤ got.length then (.ok (some got), s)
    else
      let b := a + BitVec.ofNat 64 got.length
      let m := min (len - got.length) (32 - b.toNat % 32)
      let ask (s : State) (dst : Word) (k : Nat) : State :=
        let t := s.request (.load c) 1 0 dst (BitVec.ofNat 64 k) c []
        t.2.setCtx c { t.2.ctx c with wait := .fill t.1 a len got inst }
      if !(s.place b).remote then
        match s.dwLoads c (dwords b (m / 8)) with
        | (.ok vs, s) => State.fillLoop c a len inst n (got ++ vs.flatMap fun v => toLe 8 v.toNat) s
        | (.error w, s) => (.error (wordAddr b w), s)
      else if cacheable (s.place b) then
        match s.cacheLoad c b m with
        | (some d, s) => State.fillLoop c a len inst n (got ++ d) s
        | (none, s) => (.ok none, ask s (sectorBase b) 32)
      else (.ok none, ask s b m)

/-- A list of bytes as doublewords. -/
def dwsOf (d : List Byte) : List Word := (List.range (d.length / 8)).map fun i => BitVec.ofNat 64 (field d (8 * i) 8)

/-- Load doublewords from `a` and give them to the instruction. -/
def State.fillDws (s : State) (a : Word) (n : Nat) (inst : Word32) : Done :=
  let c := s.core.cur
  match s.dwRefused false a n with
  | some b => .exc s cAccess b
  | none =>
    if (dwords a n).any fun b => (s.place b).remote && s.lineBusy c b then .wait s
    else
      match State.fillLoop c a (8 * n) inst 8 [] s with
      | (.ok (some d), s) => .next (s.setCx (s.cx.filled (dwsOf d)))
      | (.ok none, s) => .wait s
      | (.error w, s) => .exc s cMemData w

/-- A READ_DATA for such a fill: the sector is taken in, and reading goes on. The sectors read so far stay valid in L1D should a later
READ of the fill fail, whose XADDR is the address of the area's first byte read. DESIGN CHOICE (assumption 98). -/
def State.fillAnswer (s : State) (c : CtxId) (a : Word) (len : Nat) (got : List Byte) (inst : Word32) (d : List Byte) : State :=
  let b := a + BitVec.ofNat 64 got.length
  let m := min (len - got.length) (32 - b.toNat % 32)
  let cached := cacheable (s.place b)
  let s := if cached then s.cacheFill c b d else s
  match State.fillLoop c a len inst 8 (got ++ (if cached then slice d (b.toNat % 32) m else slice d 0 m)) s with
  | (.ok (some d), s) => (s.setCtx c ((s.ctx c).filled (dwsOf d))).retireOf c ((s.ctx c).pc + 4)
  | (.ok none, s) => s
  | (.error w, s) => s.raiseOf c cMemData w (s.ctx c).pc inst

end Sys2Proof.Machine
end

