-- ==== Sys2Proof/Machine/Entry.lean ====
section
/-! DEFINITION. Packets at a router input: coordinates and die IDs, the checks of an arriving header, and the input buffers
(R74, R75, R77 to R79, R316, R324, R327, R334, R354). -/

namespace Sys2Proof.Machine

/-! ### Coordinates (R74 to R76) -/

/-- The COORD a node sends; the fields the spec gives no value are free. DESIGN CHOICE (assumption 18). -/
def State.coordPacket (s : State) : Packet :=
  let w := Config.freeWord s.fresh
  let p := Packet.mk' 0x11 2 (Config.freeWord (s.fresh + 1)) 0 (w.setWidth 16)
    ([BitVec.ofNat 8 (s.g F.coordX), BitVec.ofNat 8 (s.g F.coordY)] ++ List.replicate 30 0)
  { p with src := s.self, seq := BitVec.ofNat 16 (w.toNat / 2 ^ 16) }

/-- Send COORD east and north (R75). DEDUCED (assumption 17). -/
def State.sendCoords (s : State) : State :=
  let p := s.coordPacket
  let s := s.tick.tick
  [Port.e, .n].foldl (fun s q => if s.portMode q = 0 then s.hold .l q p 0 else s) s

/-- STAGE becomes BOOT_WAIT when memory is ready and the die ID known (R69). -/
def State.tryBootWait (s : State) : State :=
  if s.g F.stage = 1 && s.is F.memReady && s.is F.dieValid then s.put F.stage 2 else s

/-- Fields of an ENUM's payload (R78). -/
def enumDie (p : Packet) : Nat := field p.payload 0 2 % 4096
def enumW (p : Packet) : Nat := field p.payload 2 1 % 64
def enumH (p : Packet) : Nat := field p.payload 3 1 % 64

/-- An ENUM accepted at a node whose coordinates are known (R79). -/
def State.enumKnown (s : State) (p : Packet) (port : Port) : State :=
  if s.is F.dieValid then
    if enumDie p ≠ s.g F.die then s.startUpFault 6 else s
  else if enumW p = 0 ∨ 32 < enumW p ∨ enumH p = 0 ∨ 32 < enumH p ∨ enumW p ≤ s.g F.coordX ∨ enumH p ≤ s.g F.coordY then
    s.startUpFault 7
  else
    let s := (s.put F.die (enumDie p)).put F.dieW (enumW p)
    let s := (s.put F.dieH (enumH p)).put F.dieValid 1
    let s := [Port.n, .e, .s, .w].foldl (fun s q => if q ≠ port ∧ s.portMode q = 0 then s.hold .l q p 0 else s) s
    s.tryBootWait

/-- An ENUM (R79). -/
def State.takeEnum (s : State) (p : Packet) (port : Port) : State :=
  if s.is F.coordValid then s.enumKnown p port
  else
    match s.up.held with
    | none => { s with up := { s.up with held := some { pkt := p, port := port } } }
    | some h => if enumDie h.pkt ≠ enumDie p then s.startUpFault 6 else s

/-- Both coordinates are known: VALID, the COORDs, the hint, and the held ENUM (R75, R79). -/
def State.coordsKnown (s : State) : State :=
  if s.up.xKnown && s.up.yKnown && !s.is F.coordValid then
    let s := (s.put F.coordValid 1).sendCoords
    let h := s.g F.hint
    let s := if bit h 10 && !(bits h 0 5 = s.g F.coordX && bits h 5 5 = s.g F.coordY) then s.startUpFault 3 else s
    match s.up.held with
    | none => s
    | some e => State.enumKnown { s with up := { s.up with held := none } } e.pkt e.port
  else s

/-- One coordinate from a neighbour's: learnt, or checked (R75). `isX` is the column, at port W.
DEDUCED (assumption 19). -/
def State.learn (s : State) (isX : Bool) (v : Nat) : State :=
  let f := if isX then F.coordX else F.coordY
  if (if isX then s.up.xKnown else s.up.yKnown) then
    if s.g f ≠ v + 1 then s.startUpFault 4 else s
  else if 31 < v + 1 then s.startUpFault 4
  else
    let s := s.put f (v + 1)
    if isX then { s with up := { s.up with xKnown := true } } else { s with up := { s.up with yKnown := true } }

/-- The other coordinate must agree where it is known. -/
def State.agree (s : State) (isX : Bool) (v : Nat) : State :=
  let f := if isX then F.coordX else F.coordY
  if (if isX then s.up.xKnown else s.up.yKnown) && s.g f ≠ v then s.startUpFault 4 else s

/-- A COORD (R75); at ports N and E it is discarded. DEDUCED (assumption 19). -/
def State.takeCoord (s : State) (p : Packet) (port : Port) : State :=
  let x := field p.payload 0 1 % 32
  let y := field p.payload 1 1 % 32
  if port = .w then ((s.learn true x).agree false y).coordsKnown
  else if port = .s then ((s.learn false y).agree true x).coordsKnown
  else s

/-! ### Input buffers -/

/-- Does the router route: ready, coordinates and die ID known (R77)? -/
def State.routable (s : State) : Bool := s.up.ready && s.is F.coordValid && s.is F.dieValid

/-- Flits a packet has on the wire; of one with LEN above 256, those before the next header (R324). -/
def wireFlits (p : Packet) : Nat :=
  if p.len.toNat ≤ 256 then flits p else 1 + (p.payload.length + 63) / 64

/-- Put a packet at the end of an input buffer. -/
def State.queued (s : State) (i : Port) (p : Packet) (owed : Nat) : State :=
  { s with rtr := { s.rtr with inq := s.rtr.inq ++ [(i, p, owed)] } }

/-- An edge adapter spends `n` of its credits for the router's input buffer (R326, R354). -/
def State.adapterPays (s : State) (i : Port) (vc : BitVec 2) (n : Nat) : State :=
  let x := s.lnk i
  s.setLnk i { x with inCred := tput 0 x.inCred vc.toNat (tget 0 x.inCred vc.toNat - n) }

/-- A packet enters its input buffer; the flits of a class-1 packet that finds the escape buffer free move on into it, and their
credits return at once (R327). DESIGN CHOICE (assumption 11). -/
def State.enqueue (s : State) (i : Port) (p : Packet) : State :=
  let n := flits p
  if p.xcls && !s.escBusy i p.vc then (if s.isLink i then s else s.credit i p.vc n).queued i p 0
  else (if s.isLink i then s.adapterPays i p.vc n else s).queued i p n

/-- A packet whose flits are good comes to a router input (R75, R77, R79, R324, R334); `back` credits return at once where it is
not kept. DEDUCED (assumption 23). -/
def State.takeFlits (s : State) (i : Port) (p : Packet) (back : Nat) : State :=
  let free := s.credit i p.vc back
  let start := p.ty = 0x10 ∨ p.ty = 0x11
  if !s.routable ∧ ¬start then free.sat F.earlyDrop 1
  else if !typeDefined p.ty then free.sat F.badPkt 1
  else if !lenOk p.ty p.len.toNat then
    let s := free.sat F.badPkt 1
    if isRequest p then s.sendError p stMalformed else s
  else if p.hops = 127 then free.sat F.hopDrop 1
  else if p.ty = 0x11 then free.takeCoord p i
  else if p.ty = 0x10 then (if s.isLink i then free else free.takeEnum p i)
  else s.enqueue i p

/-- Has the adapter the credits to start a packet toward the router (R326, R354)? -/
def State.mayEnter (s : State) (i : Port) (p : Packet) : Bool :=
  let n := min (flits p) 5
  let c := tget 0 (s.lnk i).inCred p.vc.toNat
  if p.xcls then (1 ≤ c && !s.escBusy i p.vc) || n ≤ c else n + 3 ≤ c

/-- The first packet of an adapter that may start, of those that head their channel and class, and the others. -/
def State.entering (s : State) (i : Port) (before : List (Packet × Nat)) : List (Packet × Nat) → Option ((Packet × Nat) × List (Packet × Nat))
  | [] => none
  | e :: r =>
    if s.mayEnter i e.1 && !(before.any fun k => k.1.vc = e.1.vc && k.1.xcls = e.1.xcls) then some (e, before ++ r)
    else s.entering i (before ++ [e]) r

/-- A packet leaves the adapter of port `i` for the router: its link credits are freed for the partner (R365), and the router
takes it as it takes a packet of a neighbour, in flits with check bits of their own (R48, R354, R355). -/
def State.linkEntry (s : State) (i : Port) : Option State :=
  let x := s.lnk i
  match s.entering i [] x.inbound with
  | none => none
  | some (e, r) =>
    let v := e.1.vc.toNat
    let s := s.setLnk i { x with inbound := r, bundle := Bundle.run' (toFlits e.1) e.1.vc,
                                 freedHere := tput 0 x.freedHere v (tget 0 x.freedHere v + e.2) }
    some (s.meshBusy.takeFlits i e.1 0)

end Sys2Proof.Machine
end

