-- ==== Sys2Proof/Machine/Deliver.lean ====
section
/-! DEFINITION. Packets that reach L: the duplicate filter, the start-up, fence and power rules, and the blocks they go
to (R84, R339, R340, R386, R412, R414, R431, R440, R456, R464 to R466, R476); then the router at work until nothing
more can move. -/

namespace Sys2Proof.Machine

/-! ### The duplicate filter (R339) -/

/-- The filter lets a packet through and records it, or counts it as a duplicate. -/
def State.dupFilter (s : State) (p : Packet) : Bool × State :=
  if !p.xd || isResponse p.ty || p.ty = 0x0C then (true, s)
  else if s.rtr.dup.any fun e => e.src = p.src && e.seq = p.seq && e.age < s.g F.dupWin then (false, s.sat F.dupCnt 1)
  else
    let full := s.rtr.dup.length ≥ 4096
    let s := if full then s.sat F.dupOvf 1 else s
    let old := if full then s.rtr.dup.drop 1 else s.rtr.dup
    (true, { s with rtr := { s.rtr with dup := old ++ [{ src := p.src, seq := p.seq, age := 0 }] } })

/-! ### READ, WRITE, ATOMIC and MC_WRITE at their destination (R31, R195, R211, R502) -/

/-- A packet that is host-originated (R337). -/
def fromHost (p : Packet) : Bool := p.host

/-- A READ of local memory. -/
def State.memRead (s : State) (p : Packet) (off n : Nat) : State :=
  match s.lmRead reqRouter none off n with
  | (.ok d, s) => s.sendData p d
  | (.error _, s) => s.sendError p stData

/-- A WRITE or MC_WRITE of local memory. -/
def State.memWrite (s : State) (p : Packet) (off : Nat) : State :=
  match s.lmWrite reqRouter none off p.payload with
  | (none, s) => (s.ackWrite p).inboundWrote off p.payload.length
  | (some _, s) => s.refuse p stData

/-- An ATOMIC of local memory. -/
def State.memAtomic (s : State) (p : Packet) (off : Nat) : State :=
  let a := BitVec.ofNat 64 (field p.payload 0 8)
  let b := BitVec.ofNat 64 (field p.payload 8 8)
  match s.lmAtomic reqRouter none off (p.aux.getLsbD 0) a b with
  | (.ok old, s) => s.sendData p (toLe 8 old.toNat)
  | (.error _, s) => s.sendError p stData

/-- RLEN of a READ, or the bytes of another request. -/
def reqLen (p : Packet) : Nat := if p.ty = 1 then bits p.aux.toNat 0 9 else if p.ty = 5 then 8 else p.payload.length

/-- What the DST of a request names in this node; nothing with bit 62 set (R31). -/
def reqPlace (p : Packet) : Place := if p.dst.getLsbD 62 then .bad else placeOff (offOf p.dst)

/-- The operation R195 asks REMOTE for. -/
def remoteOp (p : Packet) : Nat := if p.ty = 1 then 1 else if p.ty = 5 then 3 else 2

/-- A READ, WRITE, ATOMIC or MC_WRITE is served; `anyPage` is BOOT_WAIT, where page tags do not count (R84).
DEDUCED (assumption 53). -/
def State.serveMem (s : State) (p : Packet) (anyPage : Bool) : State :=
  let off := offOf p.dst
  let n := reqLen p
  if n = 0 ∨ 256 < n then s.refuse p stMalformed
  else if p.ty = 5 ∧ off % 8 ≠ 0 then s.refuse p stAlign
  else
    match reqPlace p with
    | .lm off =>
      if benchBase < off + n then s.refuse p stRefused
      else if !anyPage && !s.remoteRangeOk off n (remoteOp p) (fromHost p) then s.refuse p stRefused
      else if p.ty = 1 then s.memRead p off n
      else if p.ty = 5 then s.memAtomic p off
      else s.memWrite p off
    | .ctrl o =>
      if p.ty = 1 then
        match s.remoteRead (fromHost p) o n with
        | (.ok d, s) => s.sendData p d
        | (.error st, s) => s.sendError p st
      else if p.ty = 3 then
        let r := s.remoteWrite (fromHost p) o p.payload
        if r.1 = stOk then r.2.ackWrite p else r.2.refuse p r.1
      else s.refuse p stRefused
    | .bad => s.refuse p stUnmapped
    | _ => s.refuse p stRefused

/-! ### DOORBELL and MSG (R386, R412, R413) -/

/-- Does DBPERM of a ring let a doorbell in? -/
def State.dbPermits (s : State) (n : Nat) (p : Packet) : Bool :=
  match s.g (F.rDbPerm n) with
  | 0 => false
  | 1 => fromHost p
  | 2 => fromHost p || bits p.src.toNat 10 12 = s.g F.die
  | _ => true

/-- A wake by a DOORBELL or MSG taken in (R431). -/
def State.wakeIf (s : State) (en : Bool) : State :=
  if s.power = 2 ∨ (s.power = 3 ∧ en = true) then s.wakeBy 2 else s

/-- A DOORBELL in service. -/
def State.takeDoorbell (s : State) (p : Packet) : State :=
  let s := s.purge
  let n := bits p.aux.toNat 0 4
  let t := bits p.aux.toNat 16 16
  if !s.is (F.rEn n) || !s.dbPermits n p || s.ringSize n ≤ t then s.refuse p stRefused
  else if 32 ≤ s.qe.db.length then (s.put F.dbOvr 1).sendDropped p false
  else
    let s := if s.qe.db.isEmpty then s.restart 0 else s
    State.wakeIf { s with qe := { s.qe with db := s.qe.db ++ [(BitVec.ofNat 4 n, BitVec.ofNat 16 t)] } } (s.is F.wakeDb)

/-- The 48 bytes of an IMQ entry. -/
def State.imqBytes (s : State) (p : Packet) : List Byte :=
  slice p.payload 0 32
    ++ toLe 4 (p.src.toNat + 2 ^ 22 * b2n p.sctx + 2 ^ 23 * b2n p.shost + 2 ^ 24 * p.sport.toNat + 2 ^ 26 * b2n p.host + 2 ^ 27 * b2n p.xd)
    ++ toLe 2 p.payload.length ++ toLe 2 p.seq.toNat ++ toLe 8 (s.g F.ltime)

/-- A MSG in service. -/
def State.takeMsg (s : State) (p : Packet) : State :=
  let s := s.purge
  let c := CtxId.named (bits p.aux.toNat 0 1)
  if !s.is (F.imqEn c.num) || (s.is (F.imqHostOnly c.num) && !fromHost p) then s.refuse p stRefused
  else if 128 ≤ s.qe.imq.length ∨ s.g (F.imqLim c.num) ≤ s.imqCount c then (s.put (F.imqOvr c.num) 1).sendDropped p (c = .c1)
  else
    let s := if s.imqCount c = 0 then s.restart (1 + c.num) else s
    let s := s.perf 0x42 1 none
    State.wakeIf { s with qe := { s.qe with imq := s.qe.imq ++ [{ ctx := c, bytes := s.imqBytes p }] } } (s.is F.wakeMsg)

/-! ### Requests by stage and power (R84, R340, R431) -/

/-- Does a request need the node-logic domain: local memory, CORE_, MX_ or LM_ (R431)? -/
def needsLogic (p : Packet) : Bool :=
  (p.ty = 1 || p.ty = 3 || p.ty = 5 || p.ty = 0x0B) &&
    match reqPlace p with
    | .ctrl o => 5 ≤ o / 0x10000 && o / 0x10000 ≤ 7
    | .bad => false
    | _ => true

/-- A request for a control-space window under the rules of R84, R340, R431 and R463. -/
def State.ctrlServe (s : State) (p : Packet) : Option Serve :=
  match reqPlace p with
  | .ctrl o => if p.ty = 1 ∨ p.ty = 3 then some (s.serveCtrl o (reqLen p) (p.ty = 3)) else none
  | _ => none

/-- A request that reaches L. -/
def State.takeRequest (s : State) (p : Packet) : State :=
  let st := s.g F.stage
  match s.ctrlServe p with
  | some .ok => s.serveMem p false
  | some .fenced => s.sendFenced p
  | some .refused => s.refuse p stRefused
  | none =>
    if st = 0 ∨ st = 1 ∨ st = 8 ∨ s.isFenced then s.sendFenced p
    else if st = 2 then
      (if (p.ty = 1 ∨ p.ty = 3) ∧ fromHost p then s.serveMem p true else s.refuse p stRefused)
    else if st = 3 then s.refuse p stRefused
    else if p.ty = 6 then s.takeDoorbell p
    else if p.ty = 7 then s.takeMsg p
    else if 3 ≤ s.power ∧ needsLogic p then s.refuse p stRefused
    else s.serveMem p false

/-! ### Responses (R209, R210, R212, R336, R414) -/

/-- A MSG_DROPPED or FENCED that answers a MSG: SEQ it names (R322). -/
def msgAnswer (p : Packet) : Option Nat :=
  if p.ty = 8 ∧ bits p.aux.toNat 17 5 = 7 then some (bits p.aux.toNat 0 16)
  else if p.ty = 9 ∧ bits p.aux.toNat 0 5 = 7 then some (bits p.aux.toNat 16 16)
  else none

/-- Such an answer is counted (R414). -/
def State.countMsgAnswer (s : State) (p : Packet) (seq : Nat) : State :=
  let c := p.tag.toNat % 2
  (((s.sat (F.sendDrop c) 1).put (F.sendSeq c) seq).put (F.sendFenced c) (b2n (p.ty = 9))).put (F.sendNode c) p.src.toNat

/-- The answer to a posted store: an acknowledgement retires it, a failure keeps it for FENCE (R210). -/
def State.storeAnswer (s : State) (c : CtxId) (p : Packet) : State :=
  let s := s.settled p.tag
  let x := s.ctx c
  if p.ty = 4 ∧ p.status = 0 then s.setCtx c { x with posted := x.posted.filter fun e => e.tag ≠ p.tag }
  else
    let a := ((x.posted.find? fun e => e.tag = p.tag).map fun e => e.addr).getD 0
    let s := s.setCtx c { x with posted := x.posted.map fun e => if e.tag = p.tag then { e with answer := some p.status } else e }
    s.record { source := 0x04, cls := 2, ctx := some c, info := p.status.toNat, addr := a.toNat }

/-- A remote load or atomic fails: MEM_DATA for DATA, else ACCESS (R212). -/
def State.remoteFails (s : State) (c : CtxId) (p : Packet) (a : Word) (inst : Word32) : State :=
  let x := s.ctx c
  let s := s.setCtx c { x with wait := .run }
  s.raiseOf c (if p.ty = 2 ∧ p.status = stData then cMemData else cAccess) a x.pc inst

/-- The answer to a remote load (R203, R209, R212). -/
def State.loadAnswer (s : State) (c : CtxId) (p : Packet) : State :=
  let s := s.settled p.tag
  match (s.ctx c).wait with
  | .load _ a f fill =>
    if p.ty = 2 ∧ p.status = 0 then
      let s := if fill then s.cacheFill c a p.payload else s
      let d := if fill then slice p.payload (a.toNat % 32) f.bytes else p.payload
      let x := { s.ctx c with wait := .run }
      (s.setCtx c (x.wr f.rd (f.value d))).retireOf c (x.pc + 4)
    else s.remoteFails c p a f.inst
  | .fill _ a len got inst =>
    if p.ty = 2 ∧ p.status = 0 then (s.setCtx c { s.ctx c with wait := .run }).fillAnswer c a len got inst p.payload
    else s.remoteFails c p a inst
  | _ => s

/-- The answer to the READ of a sector of code: L1I takes it in, and the context that waits for it goes on or meets its failure; the
failure of a sector read ahead ends there (R203, R212). DEDUCED (assumption 48). -/
def State.codeAnswer (s : State) (c : CtxId) (b : Word) (p : Packet) : State :=
  let s := s.settled p.tag
  let ok := p.ty = 2 ∧ p.status = 0
  let s := if ok then s.codeFill c b p.payload else s
  match (s.ctx c).wait with
  | .fetch t a inst =>
    if t ≠ p.tag then s
    else if ok then s.setCtx c { s.ctx c with wait := .run }
    else s.remoteFails c p a inst
  | _ => s

/-- The answer to a remote atomic (R211, R212). -/
def State.atomicAnswer (s : State) (c : CtxId) (p : Packet) : State :=
  let s := s.settled p.tag
  match (s.ctx c).wait with
  | .atomic _ a rd inst =>
    if p.ty = 2 ∧ p.status = 0 then
      let x := { s.ctx c with wait := .run }
      (s.setCtx c (x.wr rd (BitVec.ofNat 64 (field p.payload 0 8)))).retireOf c (x.pc + 4)
    else s.remoteFails c p a inst
  | _ => s

/-- The answer to a ring's fetch (R391). -/
def State.fetchAnswer (s : State) (n : Nat) (p : Packet) : State :=
  let s := s.settled p.tag
  let s := s.setRing n { s.ring n with fetching := none }
  if p.ty = 2 ∧ p.status = 0 then s.fetched n (slice p.payload 0 64) else s.fetchFailed n

/-- The round trip of a READ, ATOMIC or acknowledged WRITE is sampled at its response (R482). -/
def State.tripSample (s : State) (o : Owner) (p : Packet) : State :=
  let piece (n : Nat) : Bool :=
    match (s.ring n).exec with
    | some x => x.eng.pieces.any fun q => q.tag = p.tag
    | none => false
  match o with
  | .store c => s.sampleTime 0x03 fun f => bit f c.num
  | .load c => s.sampleTime 0x03 fun f => bit f c.num
  | .atomic c => s.sampleTime 0x03 fun f => bit f c.num
  | .ring n => if p.ty = 0x0C || piece n then s else s.sampleTime 0x03 fun f => bit f 2
  | .fetch _ => s.sampleTime 0x03 fun f => bit f 2
  | .code c _ => s.sampleTime 0x03 fun f => bit f c.num
  | .chest _ _ => s

/-- A response goes to what awaits it. -/
def State.handAnswer (s : State) (o : Owner) (p : Packet) : State :=
  match o with
  | .store c => s.storeAnswer c p
  | .load c => s.loadAnswer c p
  | .atomic c => s.atomicAnswer c p
  | .ring n => if p.ty = 0x0C then s.ringDrop n p else s.ringAnswer n p
  | .fetch n => s.fetchAnswer n p
  | .code c b => s.codeAnswer c b p
  | .chest off len => s.chestAnswer off len p

/-- A response or MC_DROP that reaches L (R336, R340, R431). -/
def State.takeResponse (s : State) (p : Packet) : State :=
  if s.isFenced || !s.inRun || 3 ≤ s.power then s.sat F.stray 1
  else
    let s := s.wakeBy 2
    match msgAnswer p with
    | some seq => s.countMsgAnswer p seq
    | none =>
      match s.ownerOf p.tag with
      | none => s.sat F.stray 1
      | some o => (s.tripSample o p).handAnswer o p

/-! ### BUDGET, SKEIN, FENCE_CMD, FAULT_REPORT: in every state -/

/-- Is a BUDGET accepted (R440)? -/
def State.budgetOk (s : State) (p : Packet) : Bool :=
  let b := p.payload
  let gen := field b 0 2
  let fl := field b 2 1
  let d := (gen + 65536 - s.g F.bGen) % 65536
  (fromHost p || (s.is F.bSrcValid && p.src.toNat = s.g F.bSrc))
    && (!s.is F.bGenValid || (1 ≤ d && d ≤ 32767))
    && fl < 16 && field b 3 1 = 0 && field b 6 2 = 0 && (slice b 20 12).all (fun x => x = 0) && b.length = 32 && p.aux = 0
    && (!bit fl 1 || 1 ≤ field b 8 4)
    && (!bit fl 3 || (25 ≤ field b 16 4 && field b 16 4 ≤ 100000000))

/-- A BUDGET at the Spindle (R440). The registers it writes reach the bucket at the next tick (R439). -/
def State.takeBudget (s : State) (p : Packet) : State :=
  if !s.budgetOk p then s.hwAdd F.bRej 1
  else
    let b := p.payload
    let fl := field b 2 1
    let s := (s.put F.bGen (field b 0 2)).put F.bGenValid 1
    let s := if bit fl 0 then s.put F.fill (field b 4 2) else s
    let s := if bit fl 1 then s.put F.cap (field b 8 4) else s
    let s := if bit fl 2 then s.put F.debtMax (field b 12 4) else s
    let s := if bit fl 3 then
        let s := s.put F.epoch (field b 16 4)
        { s with spn := { s.spn with epochE := 0, epochTicks := 0 } }
      else s
    s.hwSet (F.spnEvt 6)

/-- A SKEIN copy at the observability block (R476, R478, R479). -/
def State.takeSkein (s : State) (p : Packet) : State :=
  let acc := s.g F.obsAccept
  if acc = 0 ∨ fromHost p ∨ (acc = 1 ∧ p.xd = false) then
    s.trigger { kind := 0, id := field p.payload 0 2, hops := p.hops.toNat, xd := p.xd, src := p.src.toNat,
                host := p.host, orig := some (field p.payload 8 8) }
  else s.sat F.skeinRej 1

/-- The reason a FENCE_CMD fails, by R465's order. -/
def State.fenceReason (s : State) (p : Packet) : Option Nat :=
  let b := p.payload
  let direct := fromHost p && s.is F.hostOk
  let key := (List.range 4).flatMap fun j => toLe 8 (s.g (F.fcKey j))
  if !(s.is F.fcKeyValid || direct) then some 1
  else if !direct && (hmac384 key (slice b 0 16 ++ toLe 4 s.self.toNat)).take 16 ≠ slice b 16 16 then some 2
  else if field b 8 8 ≤ s.g F.fcNonce then some 3
  else if !(field b 0 1 = 1 ∨ field b 0 1 = 2) ∨ field b 1 7 ≠ 0 then some 4
  else none

/-- A FENCE_CMD at the security block (R465, R466). DEDUCED (assumption 56). -/
def State.takeFenceCmd (s : State) (p : Packet) : State :=
  let op := field p.payload 0 1
  let nonce := field p.payload 8 8
  let rec' (src info : Nat) : FaultRec := { source := src, cls := 5, ctx := none, info := info + 2 ^ 10 * p.src.toNat, addr := nonce }
  match s.fenceReason p with
  | some r => (s.record (rec' 0x31 r)).hwAdd F.fcRej 1
  | none =>
    let s := (s.put F.fcNonce nonce).record (rec' 0x30 (op % 4 + 4 * b2n p.host))
    if op = 1 then s.fence 4 else s.requestReset

/-- A FAULT_REPORT at the fault block (R456). -/
def State.takeReport (s : State) (p : Packet) : State :=
  if !s.is F.rxEn then s
  else if 16 ≤ s.fltRx.length then s.hwSet F.rxOvr
  else { s with fltRx := s.fltRx ++ [slice p.payload 0 32] }

/-! ### Delivery -/

/-- A root result at the queue engine: discarded under a fence, out of RUN, in N3 and N4 (R340, R431). -/
def State.takeRoot (s : State) (p : Packet) : State :=
  if s.isFenced || !s.inRun || 3 ≤ s.power then s else s.rootResult p

/-- Hand a packet to its block. -/
def State.consume (s : State) (p : Packet) : State :=
  if p.ty = 0x0F then s.takeBudget p
  else if p.ty = 0x0E then s.takeSkein p
  else if p.ty = 0x0A then s.takeFenceCmd p
  else if p.ty = 0x12 then s.takeReport p
  else if p.ty = 0x0D then s.takeRoot p
  else if isResponse p.ty || p.ty = 0x0C then s.takeResponse p
  else if isRequest p || isSink p then s.takeRequest p
  else s

/-- Must a packet wait in the ingress for the node-logic domain (R431)? -/
def State.mustHold (s : State) (p : Packet) : Bool :=
  s.inRun && !s.isFenced &&
    ((s.power = 2 && (needsLogic p || p.ty = 0x0D)) || (s.power = 3 && needsLogic p && s.is F.wakeMem))

/-- Packets of a channel held in the ingress. -/
def State.ingressCount (s : State) (vc : BitVec 2) : Nat := (s.rtr.ingress.filter fun p => p.vc = vc).length

/-- Is there room for a packet in the ingress? -/
def State.ingressFull (s : State) (p : Packet) : Bool := s.mustHold p && 8 ≤ s.ingressCount p.vc

/-- A packet reaches L: filtered, counted, then held in the ingress with a wake, or handed to its block. -/
def State.deliver (s : State) (p : Packet) : State :=
  let r := s.dupFilter p
  if !r.1 then r.2
  else
    let s := r.2.perf 0x3C (flits p) none
    if s.mustHold p then State.wakeBy { s with rtr := { s.rtr with ingress := s.rtr.ingress ++ [p] } } 2 else s.consume p

/-! ### The router at work -/

/-- Do two packets stand in one input buffer, or in one escape buffer (R316, R317, R327)? L has no buffer (R316): its packets wait
for one another only in front of one output (assumption 9). -/
def sameBuffer (e k : Port × Packet × Nat) : Bool :=
  e.1 = k.1 && e.1 ≠ .l && e.2.1.vc = k.2.1.vc && (e.2.2 = 0) = (k.2.2 = 0)

/-- Does a buffer's head still wait in front of an output, for a Ply buffer or for the ingress? -/
def State.blocked (s : State) (e : Port × Packet × Nat) : Bool :=
  (s.rtr.held.any fun h => sameBuffer e (h.inp, h.pkt, h.owed)) || s.rtr.plyWait.any fun k => sameBuffer e k

/-- The next packet a buffer offers, and the others. DEDUCED (assumption 9). DEDUCED (assumption 10). -/
def State.nextHead (s : State) (before : List (Port × Packet × Nat)) :
    List (Port × Packet × Nat) → Option ((Port × Packet × Nat) × List (Port × Packet × Nat))
  | [] => none
  | e :: r =>
    if s.blocked e || (before.any fun k => sameBuffer e k) then s.nextHead (before ++ [e]) r
    else some (e, before ++ r)

/-- Keep a packet for L in front of L while the ingress is full. -/
def State.holdL (s : State) (inp : Port) (p : Packet) (owed : Nat) : State :=
  let h : Held := { pkt := p, inp := inp, out := .l, branch := false, sent := 0, owed := owed, ticks := 0, cls1 := p.xcls, drop := 0 }
  { s with rtr := { s.rtr with held := s.rtr.held ++ [h] } }

/-- A packet has left its buffer for L: its credits return once no copy of it waits there any more (R343). -/
def State.freeBuf (s : State) (inp : Port) (vc : BitVec 2) (owed : Nat) : State :=
  if s.rtr.held.any fun k => k.inp = inp && k.pkt.vc = vc && (k.owed = 0) = (owed = 0) then s else s.credit inp vc owed

/-- What routing leaves for L is delivered, or waits for the ingress. -/
def State.toL (inp : Port) (r : Routed) : State :=
  match r.2 with
  | none => r.1
  | some (p, owed) =>
    if r.1.ingressFull p then r.1.holdL inp p owed else ((r.1.granted .l inp p.vc).freeBuf inp p.vc owed).deliver p

/-- Route one packet at the head of its buffer. -/
def State.routeHead (s : State) (inp : Port) (p : Packet) (owed : Nat) : State :=
  let s := (if inp = .l then s.perf 0x3D (flits p) none else s).meshBusy
  if p.ty = 0x0D then
    match s.plyInput inp p owed with
    | some s => s
    | none => { s with rtr := { s.rtr with plyWait := s.rtr.plyWait ++ [(inp, p, owed)] } }
  else State.toL inp (s.route inp p owed)

/-- Retry the Ply inputs that wait for a buffer, the first that now has one. -/
def State.retryPly (s : State) (before : List (Port × Packet × Nat)) : List (Port × Packet × Nat) → Option State
  | [] => none
  | e :: r =>
    let u := State.plyInput { s with rtr := { s.rtr with plyWait := before ++ r } } e.1 e.2.1 e.2.2
    if u.isSome then u else s.retryPly (before ++ [e]) r

/-- A packet for L that waits in front of it and can be handed over now. -/
def State.readyL (s : State) : Option Held :=
  s.choose .l ((firstOfEach (s.rtr.held.filter fun h => h.out = .l)).filter fun h => !s.ingressFull h.pkt)

/-- A packet that one of the edge adapters can bring into the router. -/
def State.linksEnter (s : State) : Option State :=
  [Port.n, .e, .s, .w].findSome? fun p => if s.isLink p then s.linkEntry p else none

/-- One thing a router that routes, or a block behind L, does next; none when nothing can move. DEDUCED (assumption 6).
DEDUCED (assumption 10). -/
def State.routeStep (s : State) : Option State :=
  match s.escNext with
  | some (i, vc, owed) => some (s.escMove i vc owed)
  | none =>
    match s.stranded with
    | some h => some (s.restrand h)
    | none =>
      match s.plyReady with
      | some h =>
        match s.plyForward h with
        | (s, none) => some s
        | (s, some p) => some (State.toL .l (s, some (p, 0)))
      | none =>
        match s.retryPly [] s.rtr.plyWait with
        | some s => some s
        | none =>
          match s.rtr.ingress.find? fun p => !s.mustHold p with
          | some p => some (State.consume { s with rtr := { s.rtr with ingress := s.rtr.ingress.erase p } } p)
          | none =>
            match s.readyL with
            | some h => some (((s.granted .l h.inp h.pkt.vc).dropHeld h).deliver h.pkt)
            | none =>
              match s.nextHead [] s.rtr.inq with
              | some (e, r) => some (State.routeHead { s with rtr := { s.rtr with inq := r } } e.1 e.2.1 e.2.2)
              | none => none

/-- One thing the router, an edge adapter or a block behind L does next. DEDUCED (assumption 6). -/
def State.settleStep (s : State) : Option State :=
  match s.linksEnter with
  | some s => some s
  | none => if s.routable then s.routeStep else none

/-- Let the router work until nothing can move. DEDUCED (assumption 6). -/
def State.settleN : Nat → State → State
  | 0, s => s
  | n + 1, s =>
    match s.settleStep with
    | some s => State.settleN n s
    | none => s

/-- The router works, then XPEND of both contexts is brought up to date. DEDUCED (assumption 6). -/
def State.settle (s : State) : State := (State.settleN 65536 s).refresh

end Sys2Proof.Machine
end

