-- ==== Sys2Proof/Machine/Run.lean ====
section
/-! DEFINITION. One instruction of the issuing context from its fetch to what it comes to: fetch checks and fetch misses, ILLEGAL,
PRIV_INSTR, the condition, the instruction's own effect (R95, R109, R116, R120, R137, R212), and the words that name no
instruction. -/

namespace Sys2Proof.Machine

/-- What follows an entry: the pending causes are looked at, and where it has fenced the node, the router goes on without L (R350). -/
def State.taken (s : State) : State := if s.isFenced then s.settle else s.refresh

/-- What an instruction at `pc` of the context issuing in `s0` comes to. -/
def State.conclude (s0 : State) (e : Enc) (pc : Word) (d : Done) : State :=
  let inst := BitVec.ofNat 32 e.parcel
  match d with
  | .next s => s.retire (pc + BitVec.ofNat 64 e.len)
  | .to s a => s.retire a
  | .gone s => (s.perf 0x02 1 (some s0.core.cur)).refresh
  | .exc s c a => (s.raise c a pc inst).taken
  | .excM s c a => (s.raiseM c a pc inst).taken
  | .call s c a => ((s.perf 0x02 1 (some s0.core.cur)).raise c a (pc + BitVec.ofNat 64 e.len) inst).taken
  | .wait s => s

/-- The code of an array in ARRAY_PARITY (R452). -/
def CoreArray.code : CoreArray → Nat
  | .regs => 1
  | .tile => 2
  | .acc => 3
  | .vec => 4

/-- Where the core comes to an instruction and an array has an entry that fails its parity, it checkstops (R458, R461); otherwise
nothing happens. DESIGN CHOICE (assumption 77). -/
def State.notIssued (s : State) : State :=
  if s.mayIssue then
    match s.core.spoilt with
    | some a => (s.checkstop { source := 0x22, cls := 3, ctx := some s.core.cur, info := a.code, addr := 0 }).settle
    | none => s
  else s

/-- One instruction of the issuing context. DESIGN CHOICE (assumption 3). DEDUCED (assumption 50). -/
def State.issue (s : State) (e : Enc) (body : State → Done) : State :=
  if !s.canIssue || (e.mx && s.core.chestOp.isSome) then s.notIssued
  else
    let s1 := s.begun e.len
    let pc := s1.cx.pc
    match s1.fetchCause e with
    | some (c, a, inst) => ((s1.fetchNoted c a).raise c a pc inst).taken
    | none =>
      match s1.fetchMiss e with
      | some (a, inst) => (s1.askFetch a inst).settle
      | none =>
        if !e.legal then s.conclude e pc (.exc s1 cIllegal pc)
        else if s1.cx.pl.toNat < e.level then s.conclude e pc (.exc s1 cPriv pc)
        else if !s1.cx.cond e.cond then s1.retire (pc + BitVec.ofNat 64 e.len)
        else s.conclude e pc (body s1)

/-! ### Words that name no instruction -/

/-- Does a first parcel name an instruction, by its major opcode and its function, OP, MOP or VOP code (R119, R121, R123, R208,
R248, R304, R305)? What else its row asks of it is the instruction's own. -/
def wordNamed (p : Nat) : Bool :=
  let major := bits p 22 7
  let fn := bits p 0 6
  let vop := bits p 13 5
  match major with
  | 0x01 => fn ≤ 0x14
  | 0x02 => fn ≤ 5
  | 0x28 => fn ≤ 1
  | 0x39 => fn ≤ 6
  | 0x3D => fn = 0
  | 0x3E => fn ≤ 3
  | 0x40 => fn ≤ 2
  | 0x41 => bits p 17 5 ≤ 3
  | 0x42 => fn = 0
  | 0x60 => bits p 2 5 ≤ 0x0E
  | 0x61 => bits p 2 5 ≤ 2
  | 0x62 => bits p 2 5 ≤ 7
  | 0x63 => bits p 2 5 ≤ 1
  | 0x7F =>
    match bits p 18 4 with
    | 0 => true
    | 1 => vop ≤ 8
    | 2 => vop ≤ 0x0C && vop ≠ 3 && vop ≠ 7 && vop ≠ 9
    | _ => false
  | _ => (0x04 ≤ major && major ≤ 0x0C) || (0x10 ≤ major && major ≤ 0x13) || (0x18 ≤ major && major ≤ 0x1E)
    || (0x20 ≤ major && major ≤ 0x23) || (0x30 ≤ major && major ≤ 0x36) || major = 0x38 || (0x3A ≤ major && major ≤ 0x3C)

/-- A word that names no instruction, as it is fetched: ILLEGAL whatever its condition (R109, R120, R248, R304, R305). -/
def unnamedEnc (p : Nat) : Enc :=
  { parcel := p, len := if bits p 22 7 = 0x7F then 8 else 4, cond := BitVec.ofNat 3 (p / 2 ^ 29), legal := false, level := 0, mx := false }

/-- The core comes to a word that names no instruction. DESIGN CHOICE (assumption 101). -/
def State.unnamed (s : State) (p : Nat) : State := s.issue (unnamedEnc p) fun s => .next s

end Sys2Proof.Machine
end

