-- ==== Sys2Proof/Machine/Control.lean ====
section
/-! DEFINITION. Branches, calls, returns and the spare window (R100 to R103, R105, R110, R111, R123). -/

namespace Sys2Proof.Machine

/-- B (R110): the condition field must be 000. -/
def execB (c : FrameC) (s : State) : Host.Outcome State Fault Refusal :=
  .next (s.issue { parcel := c.parcel 0x30, len := 4, cond := 0, legal := c.cond = 0 && decide (c.cc.toNat < 0xC), level := 0, mx := false }
    fun s => if s.cx.branch c.cc.toNat then .to s (relTarget s.cx.pc c.off) else .next s)

/-- J (R123). -/
def execJ (d : FrameD) (s : State) : Host.Outcome State Fault Refusal :=
  .next (s.issue (encD 0x31 true d) fun s => .to s (relTarget s.cx.pc d.off))

/-- JR (R123); rd is 0. -/
def execJr (b : FrameB) (s : State) : Host.Outcome State Fault Refusal :=
  .next (s.issue (encB 0x33 0 (b.rd = 0) b) fun s =>
    let t := s.ea b
    if t.toNat % 4 ≠ 0 then .exc s cAlign t else .to s t)

/-- leave_spare() (R102); none while the ring is still full. -/
def Ctx.leaveSpare (x : Ctx) : Option Ctx :=
  if x.ringFull then none
  else
    let w := (x.cwp + 1).toNat
    let y := { x with cwp := x.cwp + 1, spare := false }
    let y := y.setLive w true
    let y := forN 4 (fun i (y : Ctx) => { y with k := tput 0 y.k (4 * w + i) (tget 0 x.spareK i) }) y
    some (forN 6 (fun i (y : Ctx) => { y with h := tput 0 y.h (6 * ((w + 1) % 8) + i) (tget 0 x.spareF i) }) y)

/-- The checks and the effect of CALL and CALLR from the window check on (R100). -/
def State.enterCall (s : State) (ra target : Word) : Done :=
  let x := s.cx
  if x.ringFull then .exc s cWindowOvf 0
  else if x.depth = 16 ∧ x.reelTrap then .exc s cReelOvf 0
  else
    let reel := (if x.depth = 16 then x.reel.drop 1 else x.reel) ++ [ra]
    let y := { x with reel := reel, cwp := x.cwp + 1 }
    .to (s.setCx (y.setLive y.cwp.toNat true)) target

/-- CALL and CALLR to a target, after the alignment check (R100). -/
def State.callTo (s : State) (target : Word) : Done :=
  let ra := s.cx.pc + 4
  if s.cx.spare then
    match s.cx.leaveSpare with
    | none => .excM s cFrameFault 0
    | some x => (s.setCx x).enterCall ra target
  else s.enterCall ra target

/-- CALL (R100). -/
def execCall (d : FrameD) (s : State) : Host.Outcome State Fault Refusal :=
  .next (s.issue (encD 0x32 true d) fun s =>
    if s.cx.fast then .exc s cIllegal s.cx.pc else s.callTo (relTarget s.cx.pc d.off))

/-- CALLR (R100); rd is 0. -/
def execCallr (b : FrameB) (s : State) : Host.Outcome State Fault Refusal :=
  .next (s.issue (encB 0x34 0 (b.rd = 0) b) fun s =>
    let t := s.ea b
    if s.cx.fast then .exc s cIllegal s.cx.pc
    else if t.toNat % 4 ≠ 0 then .exc s cAlign t
    else s.callTo t)

/-- RET (R100); bits [21:0] are 0. -/
def execRet (d : FrameD) (s : State) : Host.Outcome State Fault Refusal :=
  .next (s.issue (encD 0x35 (d.off = 0) d) fun s =>
    let x := s.cx
    if x.fast || x.spare then .exc s cIllegal x.pc
    else if x.depth = 0 then .exc s cReelUnf 0
    else if !x.live (x.cwp.toNat + 7) then .exc s cWindowUnf 0
    else
      let y := x.setLive x.cwp.toNat false
      .to (s.setCx { y with cwp := x.cwp - 1, reel := x.reel.dropLast }) (x.reel.getLastD 0))

/-- PSET (R111); OFFSET18 is 0. -/
def execPset (c : FrameC) (s : State) : Host.Outcome State Fault Refusal :=
  .next (s.issue { parcel := c.parcel 0x36, len := 4, cond := c.cond, legal := c.cc ≠ 0xD && c.off = 0, level := 0, mx := false }
    fun s => .next (s.setCx { s.cx with p := s.cx.pset c.cc.toNat }))

end Sys2Proof.Machine
end

