-- ==== Sys2Proof/Machine/MemInstr.lean ====
section
/-! DEFINITION. Loads, stores, atomics, FENCE, cache maintenance, window and Reel moves, page claims, mailboxes and
messages (R103, R105, R123, R126, R127, R198 to R200, R208, R210, R211, R410). -/

namespace Sys2Proof.Machine

/-- The router works after an access that may have sent a packet or written a register. -/
def Done.settled : Done → Done
  | .next s => .next s.settle
  | .wait s => .wait s.settle
  | d => d

/-- An access to local memory leaves the router alone. -/
def State.accessed (s : State) (a : Word) (d : Done) : Done :=
  match s.place a with
  | .lm _ => d
  | .bench _ => d
  | _ => d.settled

/-! ### Loads and stores -/

/-- A load instruction. -/
def State.load (s : State) (major bytes : Nat) (sg : Bool) (b : FrameB) : State :=
  s.issue (encB major 0 true b) fun s =>
    s.accessed (s.ea b) (s.loadAt (s.ea b) { bytes := bytes, signed := sg, rd := b.rd, inst := BitVec.ofNat 32 (b.parcel major) })

/-- A store instruction of the register in [21:17]. -/
def State.store (s : State) (major bytes : Nat) (b : FrameB) : State :=
  s.issue (encB major 0 true b) fun s => s.accessed (s.ea b) (s.storeAt (s.ea b) bytes (s.r b.rd))

/-- LB (R123). -/
def execLb (b : FrameB) (s : State) : Host.Outcome State Fault Refusal := .next (s.load 0x18 1 true b)
/-- LBU (R123). -/
def execLbu (b : FrameB) (s : State) : Host.Outcome State Fault Refusal := .next (s.load 0x19 1 false b)
/-- LH (R123). -/
def execLh (b : FrameB) (s : State) : Host.Outcome State Fault Refusal := .next (s.load 0x1A 2 true b)
/-- LHU (R123). -/
def execLhu (b : FrameB) (s : State) : Host.Outcome State Fault Refusal := .next (s.load 0x1B 2 false b)
/-- LW (R123). -/
def execLw (b : FrameB) (s : State) : Host.Outcome State Fault Refusal := .next (s.load 0x1C 4 true b)
/-- LWU (R123). -/
def execLwu (b : FrameB) (s : State) : Host.Outcome State Fault Refusal := .next (s.load 0x1D 4 false b)
/-- LD (R123). -/
def execLd (b : FrameB) (s : State) : Host.Outcome State Fault Refusal := .next (s.load 0x1E 8 false b)
/-- SB (R123). -/
def execSb (b : FrameB) (s : State) : Host.Outcome State Fault Refusal := .next (s.store 0x20 1 b)
/-- SH (R123). -/
def execSh (b : FrameB) (s : State) : Host.Outcome State Fault Refusal := .next (s.store 0x21 2 b)
/-- SW (R123). -/
def execSw (b : FrameB) (s : State) : Host.Outcome State Fault Refusal := .next (s.store 0x22 4 b)
/-- ST (R123). -/
def execSt (b : FrameB) (s : State) : Host.Outcome State Fault Refusal := .next (s.store 0x23 8 b)

/-- An atomic instruction: AADD adds rs2; ACAS compares with rs2 and swaps in rd. -/
def State.atomicI (s : State) (op : Nat) (cas : Bool) (a : FrameA) : State :=
  s.issue (encA 0x28 op 0 true a) fun s =>
    s.accessed (s.r a.rs1) (s.atomicAt cas (s.r a.rs1) (s.r a.rs2) (s.r a.rd) a.rd (BitVec.ofNat 32 (a.parcel 0x28 op)))

/-- AADD (R211). -/
def execAadd (a : FrameA) (s : State) : Host.Outcome State Fault Refusal := .next (s.atomicI 0 false a)
/-- ACAS (R211). -/
def execAcas (a : FrameA) (s : State) : Host.Outcome State Fault Refusal := .next (s.atomicI 1 true a)

/-- FENCE (R210). -/
def execFence (a : FrameA) (s : State) : Host.Outcome State Fault Refusal :=
  .next (s.issue (encA 0x39 0x06 0 true a) fun s =>
    if (s.unacked s.core.cur).isEmpty then
      match s.cx.posted with
      | [] => .next s
      | e :: _ => .exc (s.setCx { s.cx with posted := [] }) cAccess e.addr
    else .wait s)

/-! ### Cache maintenance (R208) -/

/-- A cache operation: OP is the register field. -/
def State.cacheOp (s : State) (op level : Nat) (b : FrameB) (f : State → Word → State) : State :=
  s.issue (encB 0x41 level (b.rd.toNat = op) b) fun s => .next (f s (s.ea b))

/-- DINVL (R208). -/
def execDinvl (b : FrameB) (s : State) : Host.Outcome State Fault Refusal :=
  .next (s.cacheOp 0 0 b fun s a => s.invalLine false a)
/-- IINVL (R208). -/
def execIinvl (b : FrameB) (s : State) : Host.Outcome State Fault Refusal :=
  .next (s.cacheOp 1 0 b fun s a => s.invalLine true a)
/-- DINVA (R208). -/
def execDinva (b : FrameB) (s : State) : Host.Outcome State Fault Refusal :=
  .next (s.cacheOp 2 1 b fun s _ => s.invalAll false)
/-- IINVA (R208). -/
def execIinva (b : FrameB) (s : State) : Host.Outcome State Fault Refusal :=
  .next (s.cacheOp 3 1 b fun s _ => s.invalAll true)

/-! ### Windows and the Reel in memory (R103, R105) -/

/-- The three register fields of a row that marks them 0. -/
def FrameA_zero (a : FrameA) : Bool := a.rd = 0 && a.rs1 = 0 && a.rs2 = 0

/-- The oldest resident window: the first above CWP that is live. -/
def Ctx.oldest (x : Ctx) : Option Nat :=
  ((List.range 7).map fun k => (x.cwp.toNat + k + 1) % 8).find? fun w => x.live w

/-- The ten doublewords of a window. -/
def Ctx.window (x : Ctx) (w : Nat) : List Word :=
  ((List.range 6).map fun i => tget 0 x.h (6 * w + i)) ++ (List.range 4).map fun i => tget 0 x.k (4 * w + i)

/-- WSPILL (R103). -/
def execWspill (a : FrameA) (s : State) : Host.Outcome State Fault Refusal :=
  .next (s.issue (encA 0x3E 0 1 (FrameA_zero a) a) fun s =>
    let x := s.cx
    match x.oldest with
    | none => .next s
    | some w =>
      if x.wsp.toNat % 8 ≠ 0 then .exc s cAlign x.wsp
      else if x.wslimit.toNat < x.wsp.toNat + 80 then .exc s cAccess x.wsp
      else
        s.accessed x.wsp (s.storeDws x.wsp (x.window w) fun s =>
          s.setCx { s.cx.setLive w false with wsp := x.wsp + 80 }))

/-- WFILL (R103). -/
def execWfill (a : FrameA) (s : State) : Host.Outcome State Fault Refusal :=
  .next (s.issue (encA 0x3E 1 1 (FrameA_zero a) a) fun s =>
    let x := s.cx
    if x.live (x.cwp.toNat + 7) then .next s
    else if x.wsp.toNat % 8 ≠ 0 then .exc s cAlign x.wsp
    else s.accessed (x.wsp - 80) (s.fillDws (x.wsp - 80) 10 (BitVec.ofNat 32 (a.parcel 0x3E 1))))

/-- RSPILL (R105). -/
def execRspill (a : FrameA) (s : State) : Host.Outcome State Fault Refusal :=
  .next (s.issue (encA 0x3E 2 1 (FrameA_zero a) a) fun s =>
    let x := s.cx
    match x.reel with
    | [] => .next s
    | e :: _ =>
      if x.reelsp.toNat % 8 ≠ 0 then .exc s cAlign x.reelsp
      else
        s.accessed x.reelsp (s.storeDws x.reelsp [e] fun s =>
          s.setCx { s.cx with reel := s.cx.reel.drop 1, reelsp := x.reelsp + 8 }))

/-- RFILL (R105): an ALIGN it raises shows REELSP. DESIGN CHOICE (assumption 67). -/
def execRfill (a : FrameA) (s : State) : Host.Outcome State Fault Refusal :=
  .next (s.issue (encA 0x3E 3 1 (FrameA_zero a) a) fun s =>
    let x := s.cx
    if 16 ≤ x.depth then .next s
    else if x.reelsp.toNat % 8 ≠ 0 then .exc s cAlign x.reelsp
    else s.accessed (x.reelsp - 8) (s.fillDws (x.reelsp - 8) 1 (BitVec.ofNat 32 (a.parcel 0x3E 3))))

/-! ### Pages (R198 to R200) -/

/-- Is a page claimable? -/
def State.claimable (s : State) (p : Nat) : Bool := s.g (F.pageTag p) = 3 && s.is (F.pageClaim p)

/-- The entry of a page with a tag, a CLAIM bit and no other rights; the reserved bit stays 0. -/
def State.setPage (s : State) (p tag claim : Nat) : State := s.put (F.page p) (tag + 64 * claim)

/-- Zero all 16 KiB of a page: 64 CORE transfers (R199), those of the Bench in page 255 included. DEDUCED (assumption 54). -/
def State.zeroPage (s : State) (p : Nat) : State :=
  let s := s.lmGrant reqCore 64
  { s with mem := tclear s.mem (0x4000 * p) 0x4000, ecc := tclear s.ecc (0x800 * p) 0x800 }

/-- Claim a claimable page `p`: QUOTA, or the page is zeroed and tagged, and rd receives `v` (R199).
DEDUCED (assumption 54). -/
def State.claim (s : State) (p : Nat) (rd : BitVec 5) (v : Word) : Done :=
  let c := s.core.cur
  if s.g (F.quota c.num) ≤ s.held c then
    let s := if s.is (F.denied c.num) then s else s.hwSet (F.spnEvt 5)
    .exc (s.put (F.denied c.num) 1) cQuota (BitVec.ofNat 64 p)
  else ((s.zeroPage p).setPage p c.num 0).value rd v

/-- LMCLAIM (R199). -/
def execLmclaim (a : FrameA) (s : State) : Host.Outcome State Fault Refusal :=
  .next (s.issue (encA 0x40 0 1 (a.rs2 = 0) a) fun s =>
    let p := (s.r a.rs1).toNat % 256
    if s.claimable p then s.claim p a.rd 0 else s.value a.rd 1)

/-- LMCLAIMA (R199). -/
def execLmclaima (a : FrameA) (s : State) : Host.Outcome State Fault Refusal :=
  .next (s.issue (encA 0x40 1 1 (a.rs2 = 0 && a.rs1 = 0) a) fun s =>
    match (List.range 256).find? fun p => s.claimable p with
    | some p => s.claim p a.rd (BitVec.ofNat 64 p)
    | none => s.value a.rd (BitVec.allOnes 64))

/-- LMREL (R200). -/
def execLmrel (a : FrameA) (s : State) : Host.Outcome State Fault Refusal :=
  .next (s.issue (encA 0x40 2 1 (a.rs2 = 0) a) fun s =>
    let p := (s.r a.rs1).toNat % 256
    if s.g (F.pageTag p) = s.core.cur.num then (s.setPage p 3 1).value a.rd 0 else s.value a.rd 1)

/-! ### Mailboxes and messages (R126, R127, R410) -/

/-- MBPUT (R410). -/
def execMbput (a : FrameA) (s : State) : Host.Outcome State Fault Refusal :=
  .next (s.issue (encA 0x42 0 1 true a) fun s =>
    let r := s.mboxPost s.core.cur ((s.r a.rs1).toNat % 8) (s.r a.rs2)
    r.2.value a.rd (BitVec.ofNat 64 r.1))

/-- Messages of a context still in the local port: L has no buffer, so one has entered the router when an output has
sent it (R126, R316). DEDUCED (assumption 35). -/
def State.sendQueued (s : State) (c : CtxId) : Nat :=
  let own (p : Packet) : Bool := p.ty = 7 && p.sctx = (c = .c1)
  (s.rtr.inq.filter fun e => e.1 = .l && own e.2.1).length + (s.rtr.held.filter fun h => h.inp = .l && own h.pkt).length

/-- SEND (R126): the offset bits [39:0] of the MSG's DST are 0. DESIGN CHOICE (assumption 92). -/
def execSend (a : FrameSend) (s : State) : Host.Outcome State Fault Refusal :=
  let n := a.lenm1.toNat + 1
  let e : Enc := { parcel := a.parcel, len := 4, cond := a.cond, legal := a.rsv = 0 && a.rd.toNat + n ≤ 32,
                   level := 0, mx := false }
  .next (s.issue e fun s =>
    let c := s.core.cur
    let d := s.r a.rs1
    if 2 ^ 63 ≤ d.toNat then .exc s cAccess d
    else if 4 ≤ s.sendQueued c then .exc s cSendFull d
    else
      let dst := nodeAddr (BitVec.ofNat 22 (nodeOf d)) 0
      let pl := (List.range n).flatMap fun i => toLe 8 (s.r (a.rd + BitVec.ofNat 5 i)).toNat
      let p := { Packet.mk' 7 0 dst (BitVec.ofNat 64 (d.toNat % 2)) (BitVec.ofNat 16 c.num) pl with sctx := c = .c1 }
      .next (s.inject p).settle)

/-- RECV and RECV.f (R127). -/
def execRecv (a : FrameA) (s : State) : Host.Outcome State Fault Refusal :=
  .next (s.issue { encF 0x3D 0 a with legal := a.rs1 = 0 && a.rs2 = 0 && a.rd.toNat + 5 ≤ 31 } fun s =>
    let r := s.imqPop s.core.cur
    let s := r.2.2
    let x := s.cx.wrs a.rd.toNat ((List.range 6).map fun i => BitVec.ofNat 64 (field r.1 (8 * i) 8))
    .next (s.setCx (if a.f then { x with z := r.2.1 } else x)).refresh)

end Sys2Proof.Machine
end

