-- ==== Sys2Proof/Machine/SysInstr.lean ====
section
/-! DEFINITION. System instructions: SYSC, BREAK, NOP, ISYNC, ERET, CSWITCH, WFE, MOVS and MOVC with the writes the
table lists by name, the Chest, and asynchronous entry and preemption (R106, R125, R128 to R131, R136 to R139, R151, R162
to R165, R172 to R175, R246). -/

namespace Sys2Proof.Machine

/-- SYSC (R154): rd and rs1 are 0. -/
def execSysc (b : FrameB) (s : State) : Host.Outcome State Fault Refusal :=
  .next (s.issue (encB 0x38 0 (b.rd = 0 && b.rs1 = 0) b) fun s => .call s cSyscall b.uimm)

/-- NOP (R123): rd, rs1 and rs2 are 0; and a word that names no instruction, for which the table has no row of its own (R120, R248,
R304, R305). DESIGN CHOICE (assumption 101). -/
def execNop (w : NopWord) (s : State) : Host.Outcome State Fault Refusal :=
  .next (match w with
    | .nop a => s.issue (encA 0x39 0 0 (FrameA_zero a) a) fun s => .next s
    | .other p => if wordNamed p.toNat then s else s.unnamed p.toNat)

/-- BREAK (R136). -/
def execBrk (a : FrameA) (s : State) : Host.Outcome State Fault Refusal :=
  .next (s.issue (encA 0x39 4 0 true a) fun s => .call s cBreak s.cx.pc)

/-- ISYNC (R125). -/
def execIsync (a : FrameA) (s : State) : Host.Outcome State Fault Refusal :=
  .next (s.issue (encA 0x39 5 0 true a) fun s => .next s)

/-- ERET (R151). -/
def execEret (a : FrameA) (s : State) : Host.Outcome State Fault Refusal :=
  .next (s.issue (encA 0x39 1 1 true a) fun s => s.eret)

/-- CSWITCH (R164). -/
def execCswitch (a : FrameA) (s : State) : Host.Outcome State Fault Refusal :=
  .next (s.issue (encA 0x39 2 1 true a) fun s =>
    let x := s.cx
    let o := s.core.cur.other
    let y := s.refresh.ctx o
    if x.fast || x.spare then .exc s cIllegal x.pc
    else if !s.core.run.getLsbD o.num || (y.wait = .wfe && !y.latch) then .next s
    else
      let s := s.setCx { x.flush with pc := x.pc + 4, afterEret := false }
      .gone { s with core := { s.core with cur := o } })

/-- WFE (R128). -/
def execWfe (a : FrameA) (s : State) : Host.Outcome State Fault Refusal :=
  .next (s.issue (encA 0x39 3 0 true a) fun s =>
    let s := s.refresh
    let x := s.cx
    if x.latch then .next (s.setCx { x with latch := false })
    else .wait (s.setCx { x with wait := .wfe }).refresh)

/-- The core runs and its issuing context is in WFE with the latch set. DEDUCED (assumption 50). -/
def State.wfeReady (s : State) : Bool :=
  s.inRun && s.nodeRuns && s.core.run.getLsbD s.core.cur.num && s.cx.wait = .wfe && s.cx.latch

/-- The core leaves N1, and the dwell of R429 starts again. -/
def State.leaveN1 (s : State) : State := { s with spn := { s.spn with dwell := 0 } }

/-- The WFE of the issuing context completes, its latch cleared. DEDUCED (assumption 50). -/
def State.wfeDone (s : State) : State :=
  let x := s.cx
  (((s.setCx { x with latch := false, wait := .run }).retire (x.pc + 4)).leaveN1).refresh

/-- WFE_WAKE (R128): the latch is cleared and the WFE completes; SPN_PSSTAT.SRC names the latch (R449). -/
def execWfeWake (s : State) : Host.Outcome State Fault Refusal :=
  .next (if s.wfeReady then (s.put F.psSrc 1).wfeDone else s)

/-! ### System registers (R129 to R131) -/

/-- The level a MOVS (or, with `wr`, a MOVC) of a register number needs, by which it raises PRIV_INSTR whatever its condition
(R109, R123, R130). -/
def sysNeeds (n : Nat) (wr : Bool) : Nat :=
  match sysLevel n with
  | some l => if wr then l.2 else l.1
  | none => 0

/-- Register numbers whose MOVS or MOVC waits for a busy Chest engine (R174). -/
def sysWaits (n : Nat) : Bool := 0x300 ≤ n && n ≤ 0x4FF

/-- The encoding of MOVS and MOVC. -/
def encS (major n : Nat) (wr : Bool) (ok : Bool) (b : FrameB) : Enc :=
  { parcel := b.parcel major, len := 4, cond := b.cond, legal := ok, level := sysNeeds n wr, mx := sysWaits n }

/-- The checks of MOVS and MOVC: a number, a level and ownership (R130, R167). -/
def State.sysAccess (s : State) (n : Nat) (wr : Bool) (k : State → Done) : Done :=
  match sysLevel n with
  | none => .exc s cIllegal s.cx.pc
  | some l =>
    if s.cx.pl.toNat < (if wr then l.2 else l.1) then .exc s cPriv s.cx.pc
    else if sysMx n then s.owned (s.sysTouch n) k
    else k s

/-- MOVS (R130). -/
def execMovs (b : FrameB) (s : State) : Host.Outcome State Fault Refusal :=
  .next (s.issue (encS 0x3A b.imm.toNat false true b) fun s =>
    s.sysAccess b.imm.toNat false fun s => s.value b.rd (s.sysRead s.core.cur b.imm.toNat))

/-- MOVC: rs1 is 0 (R130, R131). A write of CHESTCMD may send packets. -/
def State.movc (s : State) (b : FrameB) : State :=
  s.issue (encS 0x3B b.imm.toNat true (b.rs1 = 0) b) fun s =>
    s.sysAccess b.imm.toNat true fun s =>
      let t := s.sysWrite b.imm.toNat (s.r b.rd)
      .next (if b.imm = 0x212 then t.settle else t)

/-- MOVC (R131). -/
def execMovc (b : FrameB) (s : State) : Host.Outcome State Fault Refusal := .next (s.movc b)
/-- RDEPTH_WRITE (R106): MOVC to RDEPTH. -/
def execRdepthWrite (b : FrameB) (s : State) : Host.Outcome State Fault Refusal := .next (s.movc { b with imm := 0x012 })
/-- CTXCTL_WRITE (R162): MOVC to CTXCTL. -/
def execCtxctlWrite (b : FrameB) (s : State) : Host.Outcome State Fault Refusal := .next (s.movc { b with imm := 0x200 })
/-- CTXSTART (R163): MOVC to CTXSTART. -/
def execCtxstart (b : FrameB) (s : State) : Host.Outcome State Fault Refusal := .next (s.movc { b with imm := 0x201 })
/-- TCFG_WRITE (R246): MOVC to TCFG. -/
def execTcfgWrite (b : FrameB) (s : State) : Host.Outcome State Fault Refusal := .next (s.movc { b with imm := 0x310 })
/-- SAVE (R172): MOVC to CHESTCMD of a value whose OP is 1. -/
def execSave (b : FrameB) (s : State) : Host.Outcome State Fault Refusal := .next (s.movc { b with imm := 0x212 })
/-- DISCARD (R172): MOVC to CHESTCMD of a value whose OP is 2. -/
def execDiscard (b : FrameB) (s : State) : Host.Outcome State Fault Refusal := .next (s.movc { b with imm := 0x212 })
/-- HANDOVER (R173): MOVC to CHESTCMD of a value whose OP is 3. -/
def execHandover (b : FrameB) (s : State) : Host.Outcome State Fault Refusal := .next (s.movc { b with imm := 0x212 })
/-- SPILL (R175): MOVC to CHESTCMD of a value whose OP is 4. -/
def execSpill (b : FrameB) (s : State) : Host.Outcome State Fault Refusal := .next (s.movc { b with imm := 0x212 })
/-- FILL (R175): MOVC to CHESTCMD of a value whose OP is 5. -/
def execFill (b : FrameB) (s : State) : Host.Outcome State Fault Refusal := .next (s.movc { b with imm := 0x212 })
/-- ERASE (R172): MOVC to CHESTCMD of a value whose OP is 6. -/
def execErase (b : FrameB) (s : State) : Host.Outcome State Fault Refusal := .next (s.movc { b with imm := 0x212 })

/-- CHEST_OPERATION_DONE (R174). -/
def execChestOperationDone (s : State) : Host.Outcome State Fault Refusal := .next s.chestDone

/-! ### Asynchronous entry and preemption (R138, R139, R165) -/

/-- A context whose WFE has its latch set stands behind it: the latch is cleared and the WFE completes (R128). -/
def State.wfePast (s : State) (id : CtxId) : State :=
  let x := s.ctx id
  if x.wait = .wfe && x.latch then (s.setCtx id { x with latch := false, wait := .run }).retireOf id (x.pc + 4) else s

/-- Enter an asynchronous cause of a context at its instruction boundary; a drain under way is abandoned. -/
def State.enterAsync (s : State) (id : CtxId) (c : Nat) : State :=
  let s := s.drainAbandon.leaveN1
  let x := s.ctx id
  (s.enter id c (x.target c) 0 x.pc 0).taken

/-- The synchronous cause that stands at the issuing context's boundary whatever the instruction there: the fetch of its first
parcel fails. It is taken before an asynchronous one (R138). -/
def State.fetchBlocked (s : State) : Option (Nat × Word × Word32) :=
  s.fetchCause { parcel := 0, len := 4, cond := 0, legal := true, level := 0, mx := false }

/-- ASYNC_ENTRY (R138, R139). -/
def execAsyncEntry (s : State) : Host.Outcome State Fault Refusal :=
  let s' := s.refresh
  .next (if s.canIssue then
      (match s'.pickAsync s'.core.cur fun _ => true with
       | some c =>
         match s'.fetchBlocked with
         | some (k, a, inst) => ((s'.drainForce.fetchNoted k a).raise k a s'.drainForce.cx.pc inst).taken
         | none => s'.enterAsync s'.core.cur c
       | none => s)
    else s)

/-- May the issuing context be stopped in favour of the other: it runs or waits in WFE, at a boundary R113 and R153
allow, and the other may run (R165)? -/
def State.preemptable (s : State) : Bool :=
  let y := s.cx
  s.inRun && s.nodeRuns && s.core.run.getLsbD s.core.cur.other.num && (y.wait = .run || y.wait = .wfe)
    && y.prods.isEmpty && !y.afterEret

/-- PREEMPT (R165): the cause is one that targets M, or is let through by XPRE or by a WFE. The other context stands at an
instruction boundary, behind its WFE where that has its latch set; one whose WFE goes on waiting takes nothing. -/
def execPreempt (s : State) : Host.Outcome State Fault Refusal :=
  let o := s.core.cur.other
  let s' := s.refresh.wfePast o
  .next (if s'.preemptable && (s'.ctx o).wait = .run then
      (match s'.pickAsync o fun c => (s'.ctx o).target c = 2 || s'.core.xpre.getLsbD o.num || s'.cx.wait = .wfe with
       | some c =>
         let x := s'.ctx o
         let s'' := s'.setCtx o { x with xback := true, xbpl := x.pl, xbdepth := x.xnest }
         State.enterAsync { s'' with core := { s''.core with cur := o } } o c
       | none => s)
    else s)

end Sys2Proof.Machine
end

