-- ==== Sys2Proof/Machine/TileMem.lean ====
section
/-! DEFINITION. Transfers of the VECTOR and MATRIX requesters, and the checks every vector and matrix instruction shares
(R167, R174, R196, R243, R254, R256, R268, R269, R271, R306, R309). -/

namespace Sys2Proof.Machine

/-! ### Transfers -/

/-- The pieces of `n` bytes at `a` that cross no 256-byte block: address and length. -/
def blockPieces (a : Word) (n : Nat) : List (Word × Nat) :=
  (spans a.toNat (n / 256 + 2) n).map fun e => (a + BitVec.ofNat 64 e.1, e.2)

/-- A piece of a row: where it stands among the bytes of all rows, its address, its length. -/
abbrev Piece := Nat × Word × Nat

/-- A piece of the row after `q`'s that lies next to it in one block (R256); rows have `n` bytes. -/
def nextTo (n : Nat) (q p : Piece) : Bool :=
  q.1 / n + 1 = p.1 / n && q.2.1.toNat / 256 = p.2.1.toNat / 256
    && (q.2.1 + BitVec.ofNat 64 q.2.2 = p.2.1 || p.2.1 + BitVec.ofNat 64 p.2.2 = q.2.1)

/-- A piece shares the transfer of the piece it lies next to, or is one of its own; the pieces of a transfer rise. -/
def joinPiece (n : Nat) (p : Piece) : List (List Piece) → List (List Piece)
  | [] => [[p]]
  | t :: r =>
    if t.any fun q => nextTo n q p then
      (if (t.headD p).2.1.toNat ≤ p.2.1.toNat then t ++ [p] else p :: t) :: r
    else t :: joinPiece n p r

/-- The transfers of `rows` rows of `n` bytes, `stride` apart, in ascending row order, each as its pieces (R256). -/
def rowTransfers (a stride : Word) (rows n : Nat) : List (List Piece) :=
  ((List.range rows).flatMap fun i =>
    let b := a + BitVec.ofNat 64 i * stride
    (spans b.toNat (n / 256 + 2) n).map fun e => (n * i + e.1, b + BitVec.ofNat 64 e.1, e.2)).foldl
      (fun ts p => joinPiece n p ts) []

/-- A transfer's address and bytes. -/
def xferOf (t : List Piece) : Word × Nat := ((t.map fun p => p.2.1).headD 0, (t.map fun p => p.2.2).foldl (· + ·) 0)

/-- Where the lowest-numbered row of the transfer at `a` begins in it, which is the address its refusal names (R254). -/
def rowRefused (ts : List (List Piece)) (a : Word) : Word :=
  match ts.find? fun t => (xferOf t).1 = a with
  | some t => (t.foldr (fun p q => if p.1 ≤ q.1 then p else q) (t.headD (0, a, 0))).2.1
  | none => a

/-- The bytes of all rows in the order of the transfers. -/
def toTransfers (ts : List (List Piece)) (d : List Byte) : List Byte := ts.flatten.flatMap fun p => slice d p.1 p.2.2

/-- Cut a list into pieces of given lengths. -/
def cutBy : List Nat → List Byte → List (List Byte)
  | [], _ => []
  | k :: r, d => d.take k :: cutBy r (d.drop k)

/-- Insert what stands at a place among the rows. -/
def putPiece (e : Nat × List Byte) : List (Nat × List Byte) → List (Nat × List Byte)
  | [] => [e]
  | f :: r => if e.1 ≤ f.1 then e :: f :: r else f :: putPiece e r

/-- The bytes the transfers brought, in the order of the rows. -/
def toRows (ts : List (List Piece)) (d : List Byte) : List Byte :=
  let ps := ts.flatten
  (((ps.map fun p => p.1).zip (cutBy (ps.map fun p => p.2.2) d)).foldr putPiece []).flatMap fun e => e.2

/-- The offset of a transfer the issuing context may make at its level: own local memory below the Bench, on a page R194
allows; none where it is refused. -/
def State.unitOff (s : State) (a : Word) (n : Nat) : Option Nat :=
  match s.local? a n with
  | some off => if s.pageOk s.core.cur s.cx.pl.toNat (pageOf off) then some off else none
  | none => none

/-- Read transfers in order: the bytes, or the cause and its XADDR. -/
def State.unitRead (s : State) (req : Nat) : List (Word × Nat) → Except (Nat × Word) (List Byte) × State
  | [] => (.ok [], s)
  | e :: r =>
    match s.unitOff e.1 e.2 with
    | none => (.error (cAccess, e.1), s)
    | some off =>
      match s.lmRead req (some s.core.cur) off e.2 with
      | (.error w, s) => (.error (cMemData, wordAddr e.1 w), s)
      | (.ok d, s) =>
        match s.unitRead req r with
        | (.error c, s) => (.error c, s)
        | (.ok d', s) => (.ok (d ++ d'), s)

/-- Write transfers in order; those before a failing one have been made. -/
def State.unitWrite (s : State) (req : Nat) : List (Word × Nat) → List Byte → Option (Nat × Word) × State
  | [], _ => (none, s)
  | e :: r, d =>
    match s.unitOff e.1 e.2 with
    | none => (some (cAccess, e.1), s)
    | some off =>
      match s.lmWrite req (some s.core.cur) off (d.take e.2) with
      | (some w, s) => (some (cMemData, wordAddr e.1 w), s)
      | (none, s) => s.unitWrite req r (d.drop e.2)

/-- Raise what a transfer failed with. -/
def unitFail (s : State) (c : Nat × Word) : Done := .exc s c.1 c.2

/-- Raise what a transfer of rows failed with (R190, R254). -/
def tileFail (s : State) (ts : List (List Piece)) (c : Nat × Word) : Done :=
  .exc s c.1 (if c.1 = cAccess then rowRefused ts c.2 else c.2)

/-! ### Elements of a gather or scatter (R308) -/

/-- An element of a gather or scatter: its lane and its address. -/
abbrev Lane := Nat × Word

/-- Group consecutive lanes whose elements lie in one block. -/
def joinLanes (e : Lane) (l : List (List Lane)) : List (List Lane) :=
  match l with
  | [] => [[e]]
  | g :: r =>
    match g.head? with
    | some f => if e.2.toNat / 256 = f.2.toNat / 256 then (e :: g) :: r else [e] :: g :: r
    | none => [e] :: r

/-- The lowest of some ECC words that fails (R190). DEDUCED (assumption 60). -/
def State.eccLowest (s : State) (ws : List Nat) : Option Nat := (ws.filter fun w => s.eccOf w = .bad).min?

/-- ECC words of a list of byte offsets, each once. -/
def byteWords (l : List (Nat × Byte)) : List Nat := (l.map fun e => e.1 / 8).eraseDups

/-- The words a masked write does not cover entirely. -/
def maskPartial (l : List (Nat × Byte)) : List Nat :=
  (byteWords l).filter fun w => (List.range 8).any fun i => !(l.any fun e => e.1 = 8 * w + i)

/-- One write transfer under a byte mask, later bytes over earlier ones (R182, R183, R190). -/
def State.lmMasked (s : State) (req : Nat) (ctx : Option CtxId) (l : List (Nat × Byte)) : Option Nat × State :=
  let s := s.lmGrant req 1
  let ps := maskPartial l
  match s.eccLowest ps with
  | some w => (some w, s.eccFailed req ctx w)
  | none =>
    let s := s.eccCorrect ps
    (none, { s with mem := l.foldl (fun m e => m.put e.1 e.2) s.mem,
                    ecc := (byteWords l).foldl (fun t w => tput .good t w .good) s.ecc })

/-- The address of a group's first lane. -/
def lanesAddr (g : List Lane) : Word := ((g.head?).map fun e => e.2).getD 0

/-- Gather groups of lanes of `n` bytes: lane and element, in order. -/
def State.gatherLanes (s : State) (n : Nat) : List (List Lane) → Except (Nat × Word) (List (Nat × Nat)) × State
  | [] => (.ok [], s)
  | g :: r =>
    match g.find? fun e => (s.unitOff e.2 n).isNone with
    | some e => (.error (cAccess, e.2), s)
    | none =>
      let offs := g.map fun e => (e.1, (s.unitOff e.2 n).getD 0)
      let ws := (offs.map fun e => e.2 / 8).eraseDups
      let s := s.lmGrant reqVector 1
      match s.eccLowest ws with
      | some w => (.error (cMemData, wordAddr (lanesAddr g) w), s.eccFailed reqVector (some s.core.cur) w)
      | none =>
        let s := s.eccCorrect ws
        let vs := offs.map fun e => (e.1, leNat (s.mem.read e.2 n))
        match s.gatherLanes n r with
        | (.error c, s) => (.error c, s)
        | (.ok vs', s) => (.ok (vs ++ vs'), s)

/-- Scatter groups of lanes: `val` gives a lane's element. -/
def State.scatterLanes (s : State) (n : Nat) (val : Nat → Nat) : List (List Lane) → Option (Nat × Word) × State
  | [] => (none, s)
  | g :: r =>
    match g.find? fun e => (s.unitOff e.2 n).isNone with
    | some e => (some (cAccess, e.2), s)
    | none =>
      let l := g.flatMap fun e => ((toLe n (val e.1)).zipIdx).map fun b => ((s.unitOff e.2 n).getD 0 + b.2, b.1)
      match s.lmMasked reqVector (some s.core.cur) l with
      | (some w, s) => (some (cMemData, wordAddr (lanesAddr g) w), s)
      | (none, s) => s.scatterLanes n val r

/-! ### Detail of TILE_SHAPE and TILE_FORMAT (R268) -/

/-- What a fit check reports. -/
structure Fit where
  role : Nat
  reason : Nat
  reg : Nat
  tag : Tag
  needRows : Nat
  needBytes : Nat
  deriving DecidableEq, Repr

/-- XADDR of a fit check. -/
def Fit.addr (f : Fit) : Word :=
  BitVec.ofNat 64 (f.role + 2 ^ 8 * f.reason + 2 ^ 16 * f.reg + 2 ^ 24 * f.tag.rows.toNat + 2 ^ 32 * f.tag.bpr.toNat
    + 2 ^ 40 * f.tag.fmt.toNat + 2 ^ 48 * f.needRows + 2 ^ 56 * f.needBytes)

/-- Its cause: reasons from 0x11 on are TILE_FORMAT (R269). -/
def Fit.cause (f : Fit) : Nat := if f.reason < 0x10 then cTileShape else cTileFormat

/-- A register number beyond the mode's count (R243). -/
def badReg (role reg : Nat) : Fit := ⟨role, 0x01, reg, Tag.zero, 0, 0⟩

/-- A check that fails raises its cause. -/
def State.fits (s : State) (f : Option Fit) (k : State → Done) : Done :=
  match f with
  | some f => .exc s f.cause f.addr
  | none => k s

/-- The group of a register as a list: none beyond the mode's count. -/
def State.tileGroup (s : State) (r : Nat) : List Nat := (groupOf s.mx.mode.toNat r).toList

/-- The first failure of a list of checks. -/
def firstFit : List (Bool × Fit) → Option Fit
  | [] => none
  | (true, f) :: _ => some f
  | (false, _) :: r => firstFit r

end Sys2Proof.Machine
end

