-- ==== Sys2Proof/Machine/VecOps.lean ====
section
/-! DEFINITION. Lane arithmetic of the vector unit, 2^x and 1/x, and the shape of a vector instruction (R297 to R303, R310 to
R312). -/

namespace Sys2Proof.Machine

/-! ### Lanes (R297) -/

/-- Lane width and lane count of a type. -/
def laneBits (t : Nat) : Nat := if t = 0 then 8 else if t = 2 then 16 else 32
def laneCount (t : Nat) : Nat := 1024 / laneBits t

/-- Is a type BF16 or FP32? -/
def isFloatT (t : Nat) : Bool := 2 ≤ t

/-- The float format of a float type. -/
def laneFmt (t : Nat) : FFmt := if t = 2 then bf16 else fp32

/-- Lane `e` of a register. -/
def lane (t v e : Nat) : Nat := bits v (laneBits t * e) (laneBits t)

/-- The lanes of a register, ascending. -/
def lanes (t v : Nat) : List Nat := (List.range (laneCount t)).map (lane t v)

/-- A register of lanes of `w` bits, lane 0 first. -/
def packLanes (w : Nat) : List Nat → Nat
  | [] => 0
  | x :: r => x % 2 ^ w + 2 ^ w * packLanes w r

/-- Register `r`. -/
def State.vec (s : State) (r : BitVec 5) : Nat := (tget 0 s.mx.vreg r.toNat).toNat

/-- The group of a register (R314). -/
def vecGroup (r : BitVec 5) : Nat := if r.toNat < 16 then 5 else 6

/-- Write a register. -/
def State.setVec (s : State) (r : BitVec 5) (v : Nat) : State :=
  State.dirty { s with mx := { s.mx with vreg := tput 0 s.mx.vreg r.toNat (BitVec.ofNat 1024 v) } } [vecGroup r]

/-- The bytes of a register. -/
def State.vecBytes (s : State) (r : BitVec 5) : List Byte := toLe 128 (s.vec r)

/-! ### Element operations (R299, R300) -/

/-- A float operation with one rounding. -/
def fl2 (t : Nat) (f : FV → FV → FV) (x y : Nat) : Nat :=
  ((laneFmt t).enc (f ((laneFmt t).dec x) ((laneFmt t).dec y))).code

/-- A float operation on one operand. -/
def fl1 (t : Nat) (f : FV → FV) (x : Nat) : Nat := ((laneFmt t).enc (f ((laneFmt t).dec x))).code

/-- An integer operation that wraps. -/
def int2 (t : Nat) (f : Int → Int → Int) (x y : Nat) : Nat :=
  unsigned (laneBits t) (f (signed (laneBits t) x) (signed (laneBits t) y))

/-- VADD. -/
def vAdd (t x y : Nat) : Nat := if isFloatT t then fl2 t FV.add x y else int2 t (· + ·) x y
/-- VSUB. -/
def vSub (t x y : Nat) : Nat := if isFloatT t then fl2 t (fun a b => a.add b.neg) x y else int2 t (· - ·) x y
/-- VMUL. -/
def vMul (t x y : Nat) : Nat := if isFloatT t then fl2 t FV.mul x y else int2 t (· * ·) x y

/-- The canonical NaN of a float type. -/
def nanCode (t : Nat) : Nat := (laneFmt t).nan.getD 0

/-- Order of two float codes: none where one is NaN. -/
def flLt (t x y : Nat) : Option Bool :=
  let a := (laneFmt t).dec x
  let b := (laneFmt t).dec y
  if a.isNan || b.isNan then none else some (a.lt b)

/-- VMIN: -0 is below +0. -/
def vMin (t x y : Nat) : Nat :=
  if isFloatT t then
    match flLt t x y, flLt t y x with
    | some true, _ => x
    | _, some true => y
    | some _, some _ => x ||| y
    | _, _ => nanCode t
  else int2 t min x y

/-- VMAX. -/
def vMax (t x y : Nat) : Nat :=
  if isFloatT t then
    match flLt t x y, flLt t y x with
    | some true, _ => y
    | _, some true => x
    | some _, some _ => x &&& y
    | _, _ => nanCode t
  else int2 t max x y

/-- The lane a compare writes. -/
def maskLane (t : Nat) (b : Bool) : Nat := if b then 2 ^ laneBits t - 1 else 0

/-- VCMPEQ. -/
def vEq (t x y : Nat) : Nat :=
  maskLane t (if isFloatT t then ((laneFmt t).dec x).eq ((laneFmt t).dec y) else x = y)
/-- VCMPLT. -/
def vLt (t x y : Nat) : Nat :=
  maskLane t (if isFloatT t then flLt t x y = some true else signed (laneBits t) x < signed (laneBits t) y)
/-- VCMPLE. -/
def vLe (t x y : Nat) : Nat :=
  maskLane t (if isFloatT t then flLt t y x = some false else signed (laneBits t) x ≤ signed (laneBits t) y)

/-- VADDS: the sum held within the type's range. -/
def vAdds (t x y : Nat) : Nat :=
  let w := laneBits t
  let lo : Int := -(2 ^ (w - 1) : Nat)
  let hi : Int := (2 ^ (w - 1) : Nat) - 1
  int2 t (fun a b => max lo (min hi (a + b))) x y

/-- Shift counts come from the low 3 or 5 bits of the lane. -/
def vCount (t y : Nat) : Nat := y % laneBits t
def vShl (t x y : Nat) : Nat := x * 2 ^ vCount t y % 2 ^ laneBits t
def vShr (t x y : Nat) : Nat := x / 2 ^ vCount t y
def vSar (t x y : Nat) : Nat := unsigned (laneBits t) (signed (laneBits t) x / (2 ^ vCount t y : Nat))

/-- VFMA on a lane: x × y + z, rounded once. -/
def vFma (t x y z : Nat) : Nat :=
  let f := laneFmt t
  if isFloatT t then (f.enc (((f.dec x).mul (f.dec y)).add (f.dec z))).code
  else int2 t (fun a b => a * b + signed (laneBits t) z) x y

/-- VFNMA on a lane: z - x × y. -/
def vFnma (t x y z : Nat) : Nat :=
  let f := laneFmt t
  if isFloatT t then (f.enc (((f.dec x).mul (f.dec y)).neg.add (f.dec z))).code
  else int2 t (fun a b => signed (laneBits t) z - a * b) x y

/-- VNEG and VABS (R219: a NaN written is the canonical one). DEDUCED (assumption 51). -/
def vNeg (t x : Nat) : Nat := if isFloatT t then fl1 t FV.neg x else int2 t (fun a _ => -a) x 0
def vAbs (t x : Nat) : Nat := if isFloatT t then fl1 t FV.abs x else int2 t (fun a _ => a.natAbs) x 0

/-- VMOV writes a NaN as the canonical one (R219). -/
def vMov (t x : Nat) : Nat := if isFloatT t then fl1 t (fun v => v) x else x

/-! ### VEXP2 and VRCP (R302) -/

/-- The greatest number whose square is at most `n`, for n below 2^(2k). -/
def isqrt (n : Nat) : Nat → Nat → Nat
  | 0, r => r
  | k + 1, r => let q := r + 2 ^ k; if q * q ≤ n then isqrt n k q else isqrt n k r

/-- Fraction bits of the fixed-point numbers used for 2^x. -/
def expBits : Nat := 160

/-- 2^(2^-i) for i = 1, 2, …, in fixed point. -/
def expRoots : Nat → Nat → List Nat
  | 0, _ => []
  | k + 1, c => let r := isqrt (c * 2 ^ expBits) (expBits + 2) 0; r :: expRoots k r

/-- 2^f for a fraction f in fixed point, rounded down. -/
def expFrac (f : Nat) : Nat :=
  ((expRoots expBits (2 ^ (expBits + 1))).zipIdx).foldl (fun a e =>
    if bit f (expBits - 1 - e.2) then a * e.1 / 2 ^ expBits else a) (2 ^ expBits)

/-- 2^x as a value that rounds, to nearest and down, as the exact one does: an odd last bit stands for a remainder. -/
def exp2 : FV → FV
  | .nan => .nan
  | .inf false => .inf false
  | .inf true => .fin false 0 0
  | .fin neg m e =>
    if m = 0 then .fin false 1 0
    else if expOf m e ≥ 20 then (if neg then .fin false 1 (-1000) else .fin false 1 1000)
    else
      let x : Int := (if neg then -1 else 1) * (m * 2 ^ (e + expBits).toNat / 2 ^ (-(e + expBits)).toNat : Nat)
      let rest := decide (e + expBits < 0) && m % 2 ^ (-(e + expBits)).toNat ≠ 0
      let x := if neg && rest then x - 1 else x
      let n := x / (2 ^ expBits : Nat)
      let f := (x % (2 ^ expBits : Nat)).toNat
      if f = 0 ∧ rest = false then .fin false 1 n else .fin false (2 * expFrac f + 1) (n - expBits - 1)

/-- 1/x in the same form. -/
def rcp : FV → FV
  | .nan => .nan
  | .inf a => .fin a 0 0
  | .fin a m e =>
    if m = 0 then .inf a
    else
      let q := 2 ^ 200 / m
      .fin a (2 * q + b2n (2 ^ 200 % m ≠ 0)) (-e - 201)

/-- The code below a magnitude, and whether it is exact. -/
def FFmt.floorCode (f : FFmt) (m : Nat) (e : Int) : Nat × Bool :=
  if m = 0 then (0, true)
  else
    let x := f.expAt m e
    let k := e - (x - f.mb)
    (f.codeAt x (truncShift m k), decide (0 ≤ k) || m % 2 ^ (-k).toNat = 0)

/-- The value of a positive FP32 code in units of 2^b, for b ≤ -149; the code of infinity stands for 2^128. -/
def codeUnits (k : Nat) (b : Int) : Nat :=
  if k / 2 ^ 23 = 0 then k * 2 ^ (-149 - b).toNat
  else (2 ^ 23 + k % 2 ^ 23) * 2 ^ ((k / 2 ^ 23 : Nat) - 150 - b).toNat

/-- The FP32 codes within 2 ulp of the magnitude m × 2^e, around its floor code `c`, ascending. -/
def ulpCodes (m : Nat) (e : Int) (c : Nat) : List Nat :=
  let b := min e (-149)
  let v := m * 2 ^ (e - b).toNat
  let u := 2 ^ (fp32.expAt m e - fp32.mb - b).toNat
  (List.range 8).filterMap fun i =>
    let k := c + i - 4
    if 4 ≤ c + i ∧ k ≤ fp32.infCode ∧ ((codeUnits k b : Int) - v).natAbs ≤ 2 * u then some k else none

/-- The FP32 code of 2^x or 1/x: one within 2 ulp of the exact value, which of them is open (assumption 30). -/
def ulpCode (isRcp : Bool) (x : Nat) (v : FV) : Nat :=
  match v with
  | .fin a m e =>
    let c := fp32.floorCode m e
    if c.1 ≥ fp32.infCode then (fp32.enc v).code
    else if m = 0 then (fp32.enc v).code
    else
      let l := ulpCodes m e c.1
      fp32.signed a (l.getD (Config.ulpError isRcp (BitVec.ofNat 32 x) % l.length) c.1)
  | v => (fp32.enc v).code

/-- VEXP2 and VRCP on a lane. DESIGN CHOICE (assumption 30). -/
def vExp2 (t x : Nat) : Nat := if t = 2 then fl1 2 exp2 x else ulpCode false x (exp2 (fp32.dec x))
def vRcp (t x : Nat) : Nat := if t = 2 then fl1 2 rcp x else ulpCode true x (rcp (fp32.dec x))

/-! ### Reductions (R303) -/

/-- Combine neighbours. -/
def pairUp (f : Nat → Nat → Nat) : List Nat → List Nat
  | x :: y :: r => f x y :: pairUp f r
  | l => l

/-- The fixed pairwise tree. -/
def vTree (f : Nat → Nat → Nat) : Nat → List Nat → List Nat
  | 0, l => l
  | n + 1, l => if l.length ≤ 1 then l else vTree f n (pairUp f l)

/-- The value a reduction leaves in lane 0. -/
def vReduce (f : Nat → Nat → Nat) (l : List Nat) : Nat := (vTree f 7 l).headD 0

/-! ### Conversion and quantisation (R310 to R312) -/

/-- N of VCVT. -/
def cvtCount (a b : Nat) : Nat :=
  if a = 7 ∨ a = 2 ∨ b = 7 ∨ b = 2 then 32 else if a = 6 ∨ b = 6 then 64 else 128

/-- Is a format one VCVT converts, and does block `q` of it lie in a register? -/
def cvtOk (fmt other q : Nat) : Bool := fmt < 8 && q < 1024 / (fmtBits fmt * cvtCount fmt other)

/-- Put bytes into a list at an index. -/
def splice (l : List Byte) (at0 : Nat) (d : List Byte) : List Byte := l.take at0 ++ d ++ l.drop (at0 + d.length)

/-- Set FMTSTAT flags; group 7 is then written (R168, R231). DEDUCED (assumption 51). -/
def State.fmtFlags (s : State) (ovf inv : Bool) : State :=
  if ovf || inv then s.setMx { s.mx with ovf := s.mx.ovf || ovf, inv := s.mx.inv || inv } [7] else s

/-- emax of a quantisation target (R235). -/
def mxEmax (fmt : Nat) : Int := if fmt = 4 then 8 else if fmt = 5 then 15 else if fmt = 3 then 2 else 0

/-- One block of R235: element codes, scale, OVF. -/
def mxBlock (fmt : Nat) (vs : List FV) : List Nat × Nat × Bool :=
  let special (v : FV) : Bool := match v with | .fin _ _ _ => false | _ => true
  let ex (v : FV) : Option Int := match v with
    | .fin _ m e => if m = 0 then none else some (expOf m e)
    | _ => none
  if vs.any special then (vs.map fun _ => 0, 0xFF, false)
  else
    match (vs.filterMap ex) with
    | [] => (vs.map fun _ => 0, 0, false)
    | x :: r =>
      let e := r.foldl max x - mxEmax fmt
      let hi := decide (e > 127)
      let e := max (-127) (min 127 e)
      let k := (if fmt = 1 then 6 else 0) - e
      let cs := vs.map fun v => fmtEnc fmt (v.scale2 k)
      (cs.map fun c => c.code, (e + 127).toNat, hi || cs.any fun c => c.ovf)

/-! ### Instructions -/

/-- A 32-bit vector instruction; `ok` is its type and zero fields (R304). -/
def encV (major op : Nat) (ok : Bool) (a : FrameV) : Enc :=
  { parcel := a.parcel major op, len := 4, cond := a.cond, legal := ok, level := 0, mx := true }

/-- A 64-bit vector instruction (R305). -/
def encW (vop : Nat) (ok : Bool) (a : FrameW) : Enc :=
  { parcel := a.parcel vop, len := 8, cond := a.cond, legal := a.zero = 0 && ok, level := 0, mx := true }

/-- A vector instruction counts as issued (R486), whether or not its transfers then fail. -/
def State.vecIssued (s : State) : State := s.perf 0x14 1 (some s.core.cur)

/-- It ends without a transfer. -/
def State.vecDone (s : State) : Done := .next s.vecIssued

/-- Vd = op(Va, Vb) lane by lane. -/
def State.vec2 (s : State) (op : Nat) (types : Nat → Bool) (a : FrameV) (f : Nat → Nat → Nat → Nat) : State :=
  let t := a.t.toNat
  s.issue (encV 0x60 op (types t) a) fun s =>
    s.owned [vecGroup a.vd, vecGroup a.va, vecGroup a.vb] fun s =>
      (s.setVec a.vd (packLanes (laneBits t) (List.zipWith (f t) (lanes t (s.vec a.va)) (lanes t (s.vec a.vb))))).vecDone

/-- Vd = op(Va, Vb, Vd) lane by lane. -/
def State.vec3 (s : State) (op : Nat) (a : FrameV) (f : Nat → Nat → Nat → Nat → Nat) : State :=
  let t := a.t.toNat
  s.issue (encV 0x61 op true a) fun s =>
    s.owned [vecGroup a.vd, vecGroup a.va, vecGroup a.vb] fun s =>
      let l := (List.range (laneCount t)).map fun e => f t (lane t (s.vec a.va) e) (lane t (s.vec a.vb) e) (lane t (s.vec a.vd) e)
      (s.setVec a.vd (packLanes (laneBits t) l)).vecDone

/-- Vd = op(Va), given the lanes; the Vb field is 0. -/
def State.vec1 (s : State) (op : Nat) (types : Nat → Bool) (a : FrameV) (f : Nat → List Nat → List Nat) : State :=
  let t := a.t.toNat
  s.issue (encV 0x62 op (types t && a.vb = 0) a) fun s =>
    s.owned [vecGroup a.vd, vecGroup a.va] fun s =>
      (s.setVec a.vd (packLanes (laneBits t) (f t (lanes t (s.vec a.va))))).vecDone

/-- Every type, the integer types, the float types. -/
def anyT (_ : Nat) : Bool := true
def intT (t : Nat) : Bool := t < 2
def floatT (t : Nat) : Bool := 2 ≤ t

end Sys2Proof.Machine
end

