-- ==== Sys2Proof/Machine/Vector.lean ====
section
/-! DEFINITION. The vector instructions (R304, R305, R307 to R314). -/

namespace Sys2Proof.Machine

/-- VADD (R304). -/
def execVadd (a : FrameV) (s : State) : Host.Outcome State Fault Refusal := .next (s.vec2 0x00 anyT a vAdd)
/-- VSUB (R304). -/
def execVsub (a : FrameV) (s : State) : Host.Outcome State Fault Refusal := .next (s.vec2 0x01 anyT a vSub)
/-- VMUL (R304). -/
def execVmul (a : FrameV) (s : State) : Host.Outcome State Fault Refusal := .next (s.vec2 0x02 anyT a vMul)
/-- VMIN (R299). -/
def execVmin (a : FrameV) (s : State) : Host.Outcome State Fault Refusal := .next (s.vec2 0x03 anyT a vMin)
/-- VMAX (R299). -/
def execVmax (a : FrameV) (s : State) : Host.Outcome State Fault Refusal := .next (s.vec2 0x04 anyT a vMax)
/-- VAND (R304). -/
def execVand (a : FrameV) (s : State) : Host.Outcome State Fault Refusal := .next (s.vec2 0x05 intT a fun _ x y => x &&& y)
/-- VOR (R304). -/
def execVor (a : FrameV) (s : State) : Host.Outcome State Fault Refusal := .next (s.vec2 0x06 intT a fun _ x y => x ||| y)
/-- VXOR (R304). -/
def execVxor (a : FrameV) (s : State) : Host.Outcome State Fault Refusal := .next (s.vec2 0x07 intT a fun _ x y => x ^^^ y)
/-- VSHL (R300). -/
def execVshl (a : FrameV) (s : State) : Host.Outcome State Fault Refusal := .next (s.vec2 0x08 intT a vShl)
/-- VSHR (R300). -/
def execVshr (a : FrameV) (s : State) : Host.Outcome State Fault Refusal := .next (s.vec2 0x09 intT a vShr)
/-- VSAR (R300). -/
def execVsar (a : FrameV) (s : State) : Host.Outcome State Fault Refusal := .next (s.vec2 0x0A intT a vSar)
/-- VCMPEQ (R300). -/
def execVcmpeq (a : FrameV) (s : State) : Host.Outcome State Fault Refusal := .next (s.vec2 0x0B anyT a vEq)
/-- VCMPLT (R300). -/
def execVcmplt (a : FrameV) (s : State) : Host.Outcome State Fault Refusal := .next (s.vec2 0x0C anyT a vLt)
/-- VCMPLE (R300). -/
def execVcmple (a : FrameV) (s : State) : Host.Outcome State Fault Refusal := .next (s.vec2 0x0D anyT a vLe)
/-- VADDS (R300). -/
def execVadds (a : FrameV) (s : State) : Host.Outcome State Fault Refusal := .next (s.vec2 0x0E intT a vAdds)

/-- VFMA (R299). -/
def execVfma (a : FrameV) (s : State) : Host.Outcome State Fault Refusal := .next (s.vec3 0x00 a vFma)
/-- VFNMA (R304). -/
def execVfnma (a : FrameV) (s : State) : Host.Outcome State Fault Refusal := .next (s.vec3 0x01 a vFnma)

/-- VSEL (R304): T is 0b00. -/
def execVsel (a : FrameV) (s : State) : Host.Outcome State Fault Refusal :=
  .next (s.issue (encV 0x61 0x02 (a.t = 0) a) fun s =>
    s.owned [vecGroup a.vd, vecGroup a.va, vecGroup a.vb] fun s =>
      let d : BitVec 1024 := BitVec.ofNat 1024 (s.vec a.vd)
      let x : BitVec 1024 := BitVec.ofNat 1024 (s.vec a.va)
      let y : BitVec 1024 := BitVec.ofNat 1024 (s.vec a.vb)
      (s.setVec a.vd ((d &&& x) ||| (~~~d &&& y)).toNat).vecDone)

/-- VMOV (R304). -/
def execVmov (a : FrameV) (s : State) : Host.Outcome State Fault Refusal := .next (s.vec1 0x00 anyT a fun t l => l.map (vMov t))
/-- VNEG (R304). -/
def execVneg (a : FrameV) (s : State) : Host.Outcome State Fault Refusal := .next (s.vec1 0x01 anyT a fun t l => l.map (vNeg t))
/-- VABS (R304). -/
def execVabs (a : FrameV) (s : State) : Host.Outcome State Fault Refusal := .next (s.vec1 0x02 anyT a fun t l => l.map (vAbs t))
/-- VEXP2 (R302). -/
def execVexp2 (a : FrameV) (s : State) : Host.Outcome State Fault Refusal := .next (s.vec1 0x03 floatT a fun t l => l.map (vExp2 t))
/-- VRCP (R302). -/
def execVrcp (a : FrameV) (s : State) : Host.Outcome State Fault Refusal := .next (s.vec1 0x04 floatT a fun t l => l.map (vRcp t))
/-- VREDSUM (R303). -/
def execVredsum (a : FrameV) (s : State) : Host.Outcome State Fault Refusal :=
  .next (s.vec1 0x05 anyT a fun t l => [vReduce (vAdd t) l])
/-- VREDMAX (R303). -/
def execVredmax (a : FrameV) (s : State) : Host.Outcome State Fault Refusal :=
  .next (s.vec1 0x06 anyT a fun t l => [vReduce (vMax t) l])
/-- VREDMIN (R303). -/
def execVredmin (a : FrameV) (s : State) : Host.Outcome State Fault Refusal :=
  .next (s.vec1 0x07 anyT a fun t l => [vReduce (vMin t) l])

/-- VBCAST (R304): Va names a scalar register; bits [11:7] are 0. -/
def execVbcast (a : FrameV) (s : State) : Host.Outcome State Fault Refusal :=
  let t := a.t.toNat
  .next (s.issue (encV 0x63 0x00 (a.vb = 0) a) fun s =>
    s.owned [vecGroup a.vd] fun s =>
      (s.setVec a.vd (packLanes (laneBits t) (List.replicate (laneCount t) (s.r a.va).toNat))).vecDone)

/-- VGET (R304): Vd and Vb name scalar registers. -/
def execVget (a : FrameV) (s : State) : Host.Outcome State Fault Refusal :=
  let t := a.t.toNat
  .next (s.issue (encV 0x63 0x01 true a) fun s =>
    s.owned [vecGroup a.va] fun s =>
      let x := lane t (s.vec a.va) ((s.r a.vb).toNat % laneCount t)
      let v : Word := if isFloatT t then BitVec.ofNat 64 x else BitVec.ofInt 64 (signed (laneBits t) x)
      (s.w a.vd v).vecDone)

/-! ### Memory (R306 to R309) -/

/-- LEN of VLD and VST. -/
def vecLen (a : FrameW) : Nat := bits a.p2.toNat 0 7 + 1

/-- VLD (R307). -/
def execVld (a : FrameW) (s : State) : Host.Outcome State Fault Refusal :=
  .next (s.issue (encW 0x00 (bits a.p2.toNat 7 25 = 0) a) fun s =>
    s.owned [vecGroup a.v] fun s =>
      let p := s.r a.x
      if p.toNat % 8 ≠ 0 then .exc s cAlign p
      else
        match s.vecIssued.unitRead reqVector (blockPieces p (vecLen a)) with
        | (.error c, s) => unitFail s c
        | (.ok d, s) => .next (s.setVec a.v (leNat d)))

/-- VST (R307). -/
def execVst (a : FrameW) (s : State) : Host.Outcome State Fault Refusal :=
  .next (s.issue (encW 0x01 (bits a.p2.toNat 7 25 = 0) a) fun s =>
    s.owned [vecGroup a.v] fun s =>
      let p := s.r a.x
      if p.toNat % 8 ≠ 0 then .exc s cAlign p
      else
        match s.vecIssued.unitWrite reqVector (blockPieces p (vecLen a)) ((s.vecBytes a.v).take (vecLen a)) with
        | (some c, s) => unitFail s c
        | (none, s) => .next s)

/-- Vi, element bytes and SC of a gather or scatter. -/
def laneVi (a : FrameW) : BitVec 5 := BitVec.ofNat 5 a.p2.toNat
def laneBytes (a : FrameW) : Nat := if bit a.p2.toNat 5 then 2 else 4

/-- The lanes of a gather or scatter with their addresses (R308). -/
def State.laneList (s : State) (a : FrameW) : List Lane :=
  (List.range 32).map fun l =>
    (l, s.r a.x + ((BitVec.ofInt 64 (signed 32 (lane 1 (s.vec (laneVi a)) l))) <<< bits a.p2.toNat 6 2))

/-- The lanes, grouped by transfer, or the first misaligned address. -/
def State.laneGroups (s : State) (a : FrameW) : Except Word (List (List Lane)) :=
  match (s.laneList a).find? fun e => e.2.toNat % laneBytes a ≠ 0 with
  | some e => .error e.2
  | none => .ok ((s.laneList a).foldr joinLanes [])

/-- VGATHER (R308). -/
def execVgather (a : FrameW) (s : State) : Host.Outcome State Fault Refusal :=
  .next (s.issue (encW 0x02 (bits a.p2.toNat 8 24 = 0) a) fun s =>
    s.owned [vecGroup a.v, vecGroup (laneVi a)] fun s =>
      match s.laneGroups a with
      | .error p => .exc s cAlign p
      | .ok gs =>
        match s.vecIssued.gatherLanes (laneBytes a) gs with
        | (.error c, s) => unitFail s c
        | (.ok vs, s) => .next (s.setVec a.v (packLanes (8 * laneBytes a) (vs.map fun e => e.2))))

/-- VSCATTER (R308). -/
def execVscatter (a : FrameW) (s : State) : Host.Outcome State Fault Refusal :=
  .next (s.issue (encW 0x03 (bits a.p2.toNat 8 24 = 0) a) fun s =>
    s.owned [vecGroup a.v, vecGroup (laneVi a)] fun s =>
      match s.laneGroups a with
      | .error p => .exc s cAlign p
      | .ok gs =>
        match s.vecIssued.scatterLanes (laneBytes a) (fun l => bits (s.vec a.v) (8 * laneBytes a * l) (8 * laneBytes a)) gs with
        | (some c, s) => unitFail s c
        | (none, s) => .next s)

/-! ### Conversion, widening and quantisation (R310 to R312) -/

/-- VCVT (R310). -/
def execVcvt (a : FrameW) (s : State) : Host.Outcome State Fault Refusal :=
  let x := a.p2.toNat
  let from' := bits x 0 4
  let to' := bits x 4 4
  let sq := bits x 8 3
  let dq := bits x 11 3
  let n := cvtCount from' to'
  .next (s.issue (encW 0x04 (bits x 14 18 = 0 && cvtOk from' to' sq && cvtOk to' from' dq) a) fun s =>
    s.owned [vecGroup a.v, vecGroup a.x] fun s =>
      let src := s.vecBytes a.x
      let cs := (List.range n).map fun i => fmtEnc to' (fmtDec from' (elemAt src (fmtBits from') (sq * n + i)))
      let d := splice (s.vecBytes a.v) (dq * n * fmtBits to' / 8) (packElems (fmtBits to') (cs.map fun c => c.code))
      ((s.setVec a.v (leNat d)).fmtFlags (cs.any fun c => c.ovf) (cs.any fun c => c.inv)).vecDone)

/-- VWID6 (R311). -/
def execVwid6 (a : FrameW) (s : State) : Host.Outcome State Fault Refusal :=
  let x := a.p2.toNat
  let to' := bits x 0 4
  let kind := if bit x 4 then e2m3 else e3m2
  let sq := bits x 5 3
  let n := if to' = 6 then 64 else 32
  let ok := bits x 8 24 = 0 && ((to' = 6 && sq ≤ 1) || (to' = 7 && sq ≤ 4))
  .next (s.issue (encW 0x05 ok a) fun s =>
    s.owned [vecGroup a.v, vecGroup a.x] fun s =>
      let src := s.vec a.x
      let cs := (List.range n).map fun i => (fmtEnc to' (kind.dec (bits src (6 * (sq * n + i)) 6))).code
      (s.setVec a.v (packLanes (fmtBits to') cs)).vecDone)

/-- VQMX (R312). -/
def execVqmx (a : FrameW) (s : State) : Host.Outcome State Fault Refusal :=
  let x := a.p2.toNat
  let vc : BitVec 5 := BitVec.ofNat 5 x
  let to' := bits x 5 4
  let src32 := bit x 9
  let q := bits x 10 3
  let b := bits x 13 7
  let nb := if src32 then 1 else 2
  let ok := bits x 20 12 = 0 && (to' = 4 || to' = 5 || to' = 3 || to' = 1)
    && q + nb ≤ (if to' = 3 then 8 else 4) && b + nb ≤ 128
  .next (s.issue (encW 0x06 ok a) fun s =>
    s.owned [vecGroup a.v, vecGroup a.x, vecGroup vc] fun s =>
      let src := s.vec a.x
      let vals := if src32 then (lanes 3 src).map fp32.dec else (lanes 2 src).map bf16.dec
      let blocks := (pieces 32 vals).map (mxBlock to')
      let eb := fmtBits to'
      let elems := blocks.flatMap fun k => packElems eb k.1
      let s1 := s.setVec a.v (leNat (splice (s.vecBytes a.v) (32 * q * eb / 8) elems))
      let scales := blocks.map fun k => BitVec.ofNat 8 k.2.1
      let s2 := s1.setVec vc (leNat (splice (s1.vecBytes vc) b scales))
      (s2.fmtFlags (blocks.any fun k => k.2.2) false).vecDone)

/-! ### Tile-row moves (R313) -/

/-- The checks of a tile-row move: register, row, and for VTWR its bytes. -/
def State.rowFit (s : State) (t row bpr : Nat) : Option Fit :=
  let k := s.mx.mode.toNat
  firstFit [(decide (regCount k ≤ t), badReg 0 t),
            (decide (rowCount k ≤ row) || decide (rowCap k < bpr), ⟨0, 0x02, t, Tag.zero, row + 1, bpr⟩)]

/-- VTRD (R313). -/
def execVtrd (a : FrameW) (s : State) : Host.Outcome State Fault Refusal :=
  .next (s.issue (encW 0x07 (bits a.p2.toNat 5 27 = 0) a) fun s =>
    s.owned (vecGroup a.v :: s.tileGroup a.x.toNat) fun s =>
      let row := (s.r (BitVec.ofNat 5 a.p2.toNat)).toNat % 64
      s.fits (s.rowFit a.x.toNat row 0) fun s =>
        (s.setVec a.v (leNat (s.mx.row a.x.toNat row (rowCap s.mx.mode.toNat)))).vecDone)

/-- The tag VTWR leaves (R313). -/
def rowTag (old : Tag) (row bpr fmt : Nat) : Tag :=
  let same := old.bpr.toNat = bpr ∧ old.fmt.toNat = fmt
  ⟨BitVec.ofNat 7 (if same then max old.rows.toNat (row + 1) else row + 1), BitVec.ofNat 8 bpr, BitVec.ofNat 4 fmt⟩

/-- VTWR (R313). -/
def execVtwr (a : FrameW) (s : State) : Host.Outcome State Fault Refusal :=
  let x := a.p2.toNat
  let bpr := bits x 5 7 + 1
  let fmt := bits x 12 4
  .next (s.issue (encW 0x08 (bits x 16 16 = 0 && fmt ≤ 8) a) fun s =>
    let t := a.x.toNat
    s.owned (vecGroup a.v :: s.tileGroup t) fun s =>
      let row := (s.r (BitVec.ofNat 5 x)).toNat % 64
      s.fits (s.rowFit t row bpr) fun s =>
        let k := s.mx.mode.toNat
        let d := (s.vecBytes a.v).take bpr ++ List.replicate (rowCap k - bpr) 0
        let m := { s.mx with file := s.mx.file.write (t * regSize k + row * rowCap k) d,
                             tags := tput Tag.zero s.mx.tags t (rowTag (s.mx.tag t) row bpr fmt) }
        (s.setMx m (s.tileGroup t)).vecDone)

end Sys2Proof.Machine
end

