-- ==== Sys2Proof/Machine/Matrix.lean ====
section
/-! DEFINITION. The tile and matrix instructions (R248 to R273), the two events of a drain (R288), and the write-back
and scrubbing of ECC words (R189, R192). -/

namespace Sys2Proof

/-- T, Ta (R249, R250). -/
def FrameM.t (m : FrameM) : Nat := Machine.bits m.p1.toNat 8 5
/-- Tb (R250). -/
def FrameM.tb (m : FrameM) : Nat := Machine.bits m.p1.toNat 3 5
/-- rs1 of the memory and image forms. -/
def FrameM.rs1 (m : FrameM) : BitVec 5 := BitVec.ofNat 5 (m.p1.toNat / 8)
/-- rs2 of the memory form. -/
def FrameM.rs2 (m : FrameM) : BitVec 5 := BitVec.ofNat 5 m.p2.toNat
/-- ROWS of the memory form. -/
def FrameM.rows (m : FrameM) : Nat := Machine.bits m.p2.toNat 5 6 + 1
/-- BPR of the memory form. -/
def FrameM.bpr (m : FrameM) : Nat := Machine.bits m.p2.toNat 11 7 + 1
/-- FMT of the memory form. -/
def FrameM.fmt (m : FrameM) : Nat := Machine.bits m.p2.toNat 18 4
/-- ACC16 (R250). -/
def FrameM.acc16 (m : FrameM) : Bool := m.p1.getLsbD 2
/-- K (R250). -/
def FrameM.kLen (m : FrameM) : Nat := Machine.bits m.p2.toNat 9 8 + 1
/-- Ts (R250). -/
def FrameM.ts (m : FrameM) : Nat := Machine.bits m.p2.toNat 17 5
/-- FMTA and FMTB (R250). -/
def FrameM.fmtA (m : FrameM) : Nat := Machine.bits m.p2.toNat 22 4
def FrameM.fmtB (m : FrameM) : Nat := Machine.bits m.p2.toNat 26 4

end Sys2Proof

namespace Sys2Proof.Machine

/-! ### Encodings (R248 to R253) -/

/-- A matrix instruction with opcode MOP. -/
def encM (mop : Nat) (ok : Bool) (m : FrameM) : Enc :=
  { parcel := m.parcel mop, len := 8, cond := m.cond, legal := ok, level := 0, mx := true }

/-- The memory form is legal. -/
def memFormOk (m : FrameM) : Bool :=
  bits m.p1.toNat 0 3 = 0 && bits m.p2.toNat 22 10 = 0 && m.fmt ≤ 8

/-- The product form is legal. -/
def productFormOk (m : FrameM) : Bool :=
  bits m.p1.toNat 0 2 = 0 && bits m.p2.toNat 30 2 = 0 && m.fmtA ≤ 8 && m.fmtB ≤ 8

/-- The drain form is legal. -/
def drainFormOk (m : FrameM) : Bool :=
  bits m.p1.toNat 0 2 = 0 && bits m.p2.toNat 13 19 = 0 && m.dFmt < 8 && (!m.sr || m.dFmt = 6) && (m.sen || m.sn = 0)

/-- The image form is legal. -/
def imageFormOk (m : FrameM) : Bool := bits m.p1.toNat 0 3 = 0 && bits m.p1.toNat 8 5 = 0 && m.p2 = 0

/-- Every field is 0 (R252). -/
def zeroFormOk (m : FrameM) : Bool := m.p1 = 0 && m.p2 = 0

/-! ### Fit checks (R267) -/

/-- The accumulation mode a pair of formats selects (R221), none for a pair that is not permitted. -/
def pairMode (mmas acc16 : Bool) (a b : Nat) : Option Nat :=
  let f8 (x : Nat) : Bool := x = 4 || x = 5
  if f8 a && f8 b && !acc16 then some 1
  else if a ≠ b then none
  else if a = 0 ∧ mmas = false then some (if acc16 then 3 else 2)
  else if acc16 then none
  else if a = 3 then some 1
  else if a = 1 then some (if mmas then 1 else 2)
  else if a = 6 ∧ mmas = false then some 1
  else none

/-- Bytes K elements of a format take in a row. -/
def rowBytes (fmt k : Nat) : Nat := (k * fmtBits fmt + 7) / 8

/-- The checks that one tag has the rows and bytes needed. -/
def sizeChecks (role reg : Nat) (t : Tag) (rows n : Nat) : List (Bool × Fit) :=
  [(decide (t.rows.toNat < rows), ⟨role, 0x03, reg, t, rows, n⟩), (decide (t.bpr.toNat < n), ⟨role, 0x04, reg, t, rows, n⟩)]

/-- The checks of the product form. -/
def State.productFit (s : State) (mmas : Bool) (m : FrameM) : Option Fit :=
  let k := s.mx.mode.toNat
  let ta := s.mx.tag m.t
  let tb := s.mx.tag m.tb
  let ts := s.mx.tag m.ts
  let kb := rowBytes m.fmtA m.kLen
  let mode := pairMode mmas m.acc16 m.fmtA m.fmtB
  let acc := s.mx.acc.mode.toNat
  let scale (b : Bool) : Bool := mmas && b
  firstFit ([(decide (regCount k ≤ m.t), badReg 1 m.t), (decide (regCount k ≤ m.tb), badReg 2 m.tb),
      (scale (decide (regCount k ≤ m.ts)), badReg 3 m.ts),
      (mode.isNone, ⟨6, 0x12, 0, Tag.zero, 0, 0⟩),
      (decide (ta.fmt.toNat ≠ m.fmtA), ⟨1, 0x11, m.t, ta, 0, 0⟩),
      (decide (tb.fmt.toNat ≠ m.fmtB), ⟨2, 0x11, m.tb, tb, 0, 0⟩),
      (scale (decide (ts.fmt.toNat ≠ 8)), ⟨3, 0x13, m.ts, ts, 0, 0⟩),
      (decide (acc ≠ 0) && mode ≠ some acc, ⟨4, 0x14, 0, ⟨0, 0, BitVec.ofNat 4 acc⟩, 0, 0⟩),
      (decide (rowCap k < kb), ⟨6, 0x05, 0, Tag.zero, 0, rowCap k⟩),
      (scale (decide (m.kLen % 32 ≠ 0)), ⟨6, 0x06, 0, Tag.zero, 0, 0⟩)]
    ++ sizeChecks 1 m.t ta m.mRows kb ++ sizeChecks 2 m.tb tb m.nCols kb
    ++ (if mmas then sizeChecks 3 m.ts ts (max m.mRows m.nCols) (32 + m.kLen / 32) else []))

/-- The checks of the memory form; `tst` adds those of TST. -/
def State.memFit (s : State) (tst : Bool) (m : FrameM) : Option Fit :=
  let k := s.mx.mode.toNat
  let t := s.mx.tag m.t
  firstFit ([(decide (regCount k ≤ m.t), badReg 0 m.t),
      (decide (rowCount k < m.rows) || decide (rowCap k < m.bpr), ⟨0, 0x02, m.t, Tag.zero, m.rows, m.bpr⟩)]
    ++ (if tst then (decide (t.fmt.toNat ≠ m.fmt), ⟨0, 0x15, m.t, t, 0, 0⟩) :: sizeChecks 0 m.t t m.rows m.bpr else []))

/-- The check of MDRAIN. -/
def State.drainFit (s : State) (m : FrameM) : Option Fit :=
  firstFit [(decide (regCount s.mx.mode.toNat ≤ m.td), badReg 0 m.td)]

/-! ### Memory form (R254 to R259) -/

/-- ALIGN of the memory form (R255). -/
def State.tileAligned (s : State) (m : FrameM) (k : State → Done) : Done :=
  let a := s.r m.rs1
  let d := s.r m.rs2
  if a.toNat % 8 ≠ 0 then .exc s cAlign a else if d.toNat % 8 ≠ 0 then .exc s cAlign d else k s

/-- The transfers of the memory form. -/
def State.tileTransfers (s : State) (m : FrameM) : List (List Piece) :=
  rowTransfers (s.r m.rs1) (s.r m.rs2) m.rows m.bpr

/-- The tag of the memory form. -/
def FrameM.newTag (m : FrameM) : Tag := ⟨BitVec.ofNat 7 m.rows, BitVec.ofNat 8 m.bpr, BitVec.ofNat 4 m.fmt⟩

/-- TLD (R257). -/
def execTld (m : FrameM) (s : State) : Host.Outcome State Fault Refusal :=
  .next (s.issue (encM 0x00 (memFormOk m) m) fun s =>
    s.owned (s.tileGroup m.t) fun s => s.fits (s.memFit false m) fun s => s.tileAligned m fun s =>
      let ts := s.tileTransfers m
      match s.unitRead reqMatrix (ts.map xferOf) with
      | (.error c, s) => tileFail s ts c
      | (.ok d, s) => .next (s.setMx (s.mx.setTile m.t (pieces m.bpr (toRows ts d)) (FrameM.newTag m)) (s.tileGroup m.t)))

/-- TST (R258). -/
def execTst (m : FrameM) (s : State) : Host.Outcome State Fault Refusal :=
  .next (s.issue (encM 0x01 (memFormOk m) m) fun s =>
    s.owned (s.tileGroup m.t) fun s => s.fits (s.memFit true m) fun s => s.tileAligned m fun s =>
      let d := (List.range m.rows).flatMap fun i => s.mx.row m.t i m.bpr
      let ts := s.tileTransfers m
      match s.unitWrite reqMatrix (ts.map xferOf) (toTransfers ts d) with
      | (some c, s) => tileFail s ts c
      | (none, s) => .next s)

/-- TZERO (R259): rs1 and rs2 are 0. -/
def execTzero (m : FrameM) (s : State) : Host.Outcome State Fault Refusal :=
  .next (s.issue (encM 0x02 (memFormOk m && m.rs1 = 0 && m.rs2 = 0) m) fun s =>
    s.owned (s.tileGroup m.t) fun s => s.fits (s.memFit false m) fun s =>
      .next (s.setMx (s.mx.setTile m.t [] (FrameM.newTag m)) (s.tileGroup m.t)))

/-! ### Products (R225, R226, R261) -/

/-- MZ (R260, R286). -/
def execMz (m : FrameM) (s : State) : Host.Outcome State Fault Refusal :=
  .next (s.issue (encM 0x04 (zeroFormOk m) m) fun s =>
    s.owned [4] fun s => .next (s.setMx { s.mx with acc := s.mx.acc.clear } [4]))

/-- The elements of the first `n` rows of a register along K. -/
def Mx.elems (x : Mx) (mx : Bool) (reg n k fmt : Nat) : List (List FV) :=
  (List.range n).map fun i =>
    let d := x.row reg i (rowBytes fmt k)
    (List.range k).map fun e => operand mx fmt (elemAt d (fmtBits fmt) e)

/-- Element e of row i of decoded elements. -/
def elemOf (l : List (List FV)) (i : Nat) : List FV := l.getD i []

/-- The scale code of block `b` at byte `at0` of row `i` of the scale tile (R225). -/
def Mx.scaleCode (x : Mx) (ts i at0 b : Nat) : Nat := leNat (x.file.read (ts * regSize x.mode.toNat + i * rowCap x.mode.toNat + at0 + b) 1)

/-- The products of cell (i, j) along K. -/
def Mx.cellProducts (x : Mx) (mmas : Bool) (m : FrameM) (a b : List (List FV)) (i j : Nat) : List Product :=
  if mmas then
    (((elemOf a i).zip (elemOf b j)).zipIdx).map fun e =>
      scaledProduct e.1.1 e.1.2 (x.scaleCode m.ts i 0 (e.2 / 32)) (x.scaleCode m.ts j 32 (e.2 / 32))
  else ((elemOf a i).zip (elemOf b j)).map fun e => product e.1 e.2

/-- The set after MMA or MMAS, with the repetitions it took. -/
def Mx.mma (x : Mx) (mmas : Bool) (m : FrameM) : AccSet × Nat :=
  let a := x.elems mmas m.t m.mRows m.kLen m.fmtA
  let b := x.elems mmas m.tb m.nCols m.kLen m.fmtB
  let mode := (pairMode mmas m.acc16 m.fmtA m.fmtB).getD 1
  x.acc.mma mode m.mRows m.nCols (groupLen m.fmtA) (x.cellProducts mmas m a b)

/-- Commit an MMA or MMAS. -/
def State.mmaDone (s : State) (mmas : Bool) (m : FrameM) : Done :=
  let r := s.mx.mma mmas m
  let s := s.setMx { s.mx with acc := r.1 } [4]
  .next (if r.2 = 0 then s else s.perf 0x11 r.2 none)

/-- MMA (R261): Ts is 0. -/
def execMma (m : FrameM) (s : State) : Host.Outcome State Fault Refusal :=
  .next (s.issue (encM 0x05 (productFormOk m && m.ts = 0) m) fun s =>
    s.owned (s.tileGroup m.t ++ s.tileGroup m.tb ++ [4, 7]) fun s =>
      s.fits (s.productFit false m) fun s => s.mmaDone false m)

/-- MMAS (R226). -/
def execMmas (m : FrameM) (s : State) : Host.Outcome State Fault Refusal :=
  .next (s.issue (encM 0x06 (productFormOk m) m) fun s =>
    s.owned (s.tileGroup m.t ++ s.tileGroup m.tb ++ s.tileGroup m.ts ++ [4, 7]) fun s =>
      s.fits (s.productFit true m) fun s => s.mmaDone true m)

/-! ### Drain (R263, R287, R288) -/

/-- MDRAIN is issued, and control goes on: its copy and its completion are events of their own. Where no asynchronous entry is
taken in front of it, none abandons it (R113, R153). -/
def execMdrain (m : FrameM) (s : State) : Host.Outcome State Fault Refusal :=
  .next (s.issue (encM 0x08 (drainFormOk m) m) fun s =>
    s.owned (s.tileGroup m.td ++ [4, 7]) fun s => s.fits (s.drainFit m) fun s =>
      let x := s.cx
      let s := { s with mx := { s.mx with
        drain := some { m := m, ctx := s.core.cur, pc := x.pc, firm := x.afterEret || !x.prods.isEmpty, copied := false, set := AccSet.reset } } }
      .wait (s.setCx { x.age with pc := x.pc + 8, afterEret := false }))

/-- The copy into the drain set (R288). -/
def execMdrainCopy (s : State) : Host.Outcome State Fault Refusal := .next (if s.nodeRuns then s.drainCopy else s)

/-- The drain completes (R234). -/
def execMdrainComplete (s : State) : Host.Outcome State Fault Refusal := .next (if s.nodeRuns then s.drainComplete else s)

/-! ### Images (R264, R265) -/

/-- ALIGN of the image form. -/
def State.imageAligned (s : State) (m : FrameM) (k : State → Done) : Done :=
  if (s.r m.rs1).toNat % 64 ≠ 0 then .exc s cAlign (s.r m.rs1) else k s

/-- MSAVE (R264). -/
def execMsave (m : FrameM) (s : State) : Host.Outcome State Fault Refusal :=
  .next (s.issue (encM 0x0A (imageFormOk m) m) fun s =>
    s.owned [4] fun s => s.imageAligned m fun s =>
      match s.unitWrite reqMatrix (blockPieces (s.r m.rs1) 7232) (accImage s.mx.acc) with
      | (some c, s) => unitFail s c
      | (none, s) => .next s)

/-- MREST (R265). -/
def execMrest (m : FrameM) (s : State) : Host.Outcome State Fault Refusal :=
  .next (s.issue (encM 0x0B (imageFormOk m) m) fun s =>
    s.owned [4] fun s => s.imageAligned m fun s =>
      match s.unitRead reqMatrix (blockPieces (s.r m.rs1) 7232) with
      | (.error c, s) => unitFail s c
      | (.ok d, s) =>
        s.fits (firstFit [(!accImageOk d, ⟨5, 0x17, 0, Tag.zero, 0, 0⟩)]) fun s =>
          .next (s.setMx { s.mx with acc := accOfImage d } [4]))

/-- MHCLR (R266). -/
def execMhclr (m : FrameM) (s : State) : Host.Outcome State Fault Refusal :=
  .next (s.issue (encM 0x0C (zeroFormOk m) m) fun s =>
    s.owned [7] fun s => .next (s.setMx { s.mx with ehist := [] } [7]))

/-! ### Write-back and scrubbing (R189, R192) -/

/-- A corrected ECC word is written back. -/
def execEccWriteback (w : BitVec 19) (s : State) : Host.Outcome State Fault Refusal :=
  .next (if s.nodeRuns && s.eccOf w.toNat = .corrected then { s with ecc := tput .good s.ecc w.toNat .good } else s)

/-- The scrubber reads its next block, PERIOD ticks after the last. -/
def execScrubBlock (s : State) : Host.Outcome State Fault Refusal :=
  .next (if s.nodeRuns && s.g F.scrubPeriod ≠ 0 && s.g F.scrubPeriod ≤ s.spn.scrubTicks then
    let b := s.g F.scrubNext
    let ws := (List.range 32).map fun i => 32 * b + i
    let s := (State.put { s with spn := { s.spn with scrubTicks := 0 } } F.scrubNext ((b + 1) % 16384))
    (match s.eccFail ws with
    | some w => s.eccFailed reqScrub none w
    | none => s.eccCorrect ws).refresh
  else s)

end Sys2Proof.Machine
end

