-- ==== Sys2Proof/Machine/Arrivals.lean ====
section
/-! DEFINITION. Mesh ports: credits and wakes, packets as they arrive, and the router's own events (R46 to R49, R76, R317, R337,
R339, R343, R348, R455, R459). -/

namespace Sys2Proof.Machine

/-! ### Mesh ports -/

/-- A port whose mesh bundles are active (R54). -/
def State.meshPort (s : State) (p : Port) : Bool := p ≠ .l && (s.portMode p = 0 || s.portMode p = 3)

/-- CREDIT_RETURN (R46). -/
def execCreditReturn (p : Port) (vc : BitVec 2) (s : State) : Host.Outcome State Fault Refusal :=
  let k := 4 * p.num + vc.toNat
  .next (if s.pins.porstN && s.meshPort p then
    { s with rtr := { s.rtr with credits := tput 0 s.rtr.credits k (tget 0 s.rtr.credits k + 1) },
             up := { s.up with creditSeen := BitVec.ofNat 4 (setBits s.up.creditSeen.toNat p.num 1 1) } }
  else s)

/-- WAKE_IN (R49): WAKE stays high over the pulse's AON ticks. DEDUCED (assumption 15). -/
def execWakeIn (w : WakePulse) (s : State) : Host.Outcome State Fault Refusal :=
  .next (if s.pins.porstN && s.meshPort w.port then
    let s := s.meshBusy
    { s with rtr := { s.rtr with
        wakeIn := BitVec.ofNat 4 (setBits s.rtr.wakeIn.toNat w.port.num 1 1),
        wakeLeft := tput 0 s.rtr.wakeLeft w.port.num (max w.ticks (tget 0 s.rtr.wakeLeft w.port.num)) } }
  else s)

/-- An edge adapter and its router give one another the credits of their buffers (R316, R354). -/
def State.adapterCredits (s : State) (p : Port) : State :=
  let s := forN 4 (fun v s => s.credit p (BitVec.ofNat 2 v) 8) s
  { s with rtr := { s.rtr with credits := (List.range 4).foldl (fun t v => tput 0 t (4 * p.num + v) 8) s.rtr.credits } }

/-- The node returns 8 credits on each channel of its active mesh ports (R47), and to its edge adapters. -/
def State.firstCredits (s : State) : State :=
  [Port.n, .e, .s, .w].foldl (fun s p =>
    if s.meshPort p then forN 4 (fun v s => s.credit p (BitVec.ofNat 2 v) 8) s
    else if s.isLink p then s.adapterCredits p else s) s

/-! ### Start-up at the ports (R76) -/

/-- COORD_TIMEOUT (R76): 2,500 ticks after router-ready, once. -/
def execCoordTimeout (s : State) : Host.Outcome State Fault Refusal :=
  .next (if s.up.ready && s.up.readyTicks = 2500 then
    let s := { s with up := { s.up with readyTicks := 2501 } }
    let s := if s.is F.coordValid then s else s.startUpFault 5
    [Port.n, .e, .s, .w].foldl (fun s p =>
      if s.meshPort p && !s.up.creditSeen.getLsbD p.num then s.startUpFault (8 + p.num) else s) s |>.refresh
  else s)

/-! ### Packets -/

/-- Does a port take packets: an active mesh port of a ready router? -/
def State.listens (s : State) (p : Port) : Bool := s.pins.porstN && s.up.ready && s.meshPort p

/-- The packet of an arrival row: of the row's type, unless its TYPE is reserved; on a host port marked under R337.
DEDUCED (assumption 12). -/
def State.arrived (s : State) (ty : BitVec 5) (a : Arrival) : Packet :=
  let p := if typeDefined a.pkt.ty then { a.pkt with ty := ty } else a.pkt
  if s.portMode a.port = 3 then
    { p with host := true, shost := true, sport := BitVec.ofNat 2 a.port.num, src := s.self }
  else p

/-- A packet arrives on a listening port (R48, R459). DEDUCED (assumption 12). DEDUCED (assumption 23). -/
def State.arrive (s : State) (ty : BitVec 5) (a : Arrival) : State :=
  let p := s.arrived ty a
  let free := s.credit a.port p.vc (wireFlits p)
  let where' := a.port.num + 4 * p.vc.toNat
  if s.rtr.draining.getLsbD a.port.num then free
  else
    match a.err with
    | .clean => s.takeFlits a.port p (wireFlits p)
    | .corrected n => (s.sat F.flitCorr n).takeFlits a.port p (wireFlits p)
    | .body n =>
      let s := (free.sat F.flitCorr n).record { source := 0x02, cls := 2, ctx := none, info := where', addr := p.dst.toNat }
      if s.routable && isRequest p then s.sendError p stData else s
    | .header n =>
      let s := (free.sat F.flitCorr n).record { source := 0x03, cls := 4, ctx := none, info := where', addr := 0 }
      let s := s.put F.portFail (setBits (s.g F.portFail) a.port.num 1 1)
      { s with rtr := { s.rtr with
          draining := BitVec.ofNat 4 (setBits s.rtr.draining.toNat a.port.num 1 1),
          drainEnd := BitVec.ofNat 4 (setBits s.rtr.drainEnd.toNat a.port.num 1 0) } }

/-- A packet row: no port carries a payload whose length is not LEN. DEDUCED (assumption 12). -/
def State.arrival (s : State) (name : String) (ty : BitVec 5) (a : Arrival) : Host.Outcome State Fault Refusal :=
  if a.pkt.payload.length ≠ a.pkt.len.toNat ∧ a.pkt.len.toNat ≤ 256 then .fault (.illFormed name)
  else if s.listens a.port then .next (s.meshBusy.arrive ty a).settle
  else .next s

/-- COORD (R75). -/
def execCoord (a : Arrival) (s : State) : Host.Outcome State Fault Refusal := s.arrival "COORD" 0x11 a
/-- ENUM (R79). -/
def execEnum (a : Arrival) (s : State) : Host.Outcome State Fault Refusal := s.arrival "ENUM" 0x10 a
/-- READ (R322). -/
def execRead (a : Arrival) (s : State) : Host.Outcome State Fault Refusal := s.arrival "READ" 0x01 a
/-- READ_DATA (R322). -/
def execReadData (a : Arrival) (s : State) : Host.Outcome State Fault Refusal := s.arrival "READ_DATA" 0x02 a
/-- WRITE (R322). -/
def execWrite (a : Arrival) (s : State) : Host.Outcome State Fault Refusal := s.arrival "WRITE" 0x03 a
/-- WRITE_ACK (R322). -/
def execWriteAck (a : Arrival) (s : State) : Host.Outcome State Fault Refusal := s.arrival "WRITE_ACK" 0x04 a
/-- ATOMIC (R211). -/
def execAtomic (a : Arrival) (s : State) : Host.Outcome State Fault Refusal := s.arrival "ATOMIC" 0x05 a
/-- DOORBELL (R386). -/
def execDoorbell (a : Arrival) (s : State) : Host.Outcome State Fault Refusal := s.arrival "DOORBELL" 0x06 a
/-- MSG (R412). -/
def execMsg (a : Arrival) (s : State) : Host.Outcome State Fault Refusal := s.arrival "MSG" 0x07 a
/-- MSG_DROPPED (R414). -/
def execMsgDropped (a : Arrival) (s : State) : Host.Outcome State Fault Refusal := s.arrival "MSG_DROPPED" 0x08 a
/-- FENCED (R340). -/
def execFenced (a : Arrival) (s : State) : Host.Outcome State Fault Refusal := s.arrival "FENCED" 0x09 a
/-- FENCE_CMD (R465). -/
def execFenceCmd (a : Arrival) (s : State) : Host.Outcome State Fault Refusal := s.arrival "FENCE_CMD" 0x0A a
/-- MC_WRITE (R342). -/
def execMcWrite (a : Arrival) (s : State) : Host.Outcome State Fault Refusal := s.arrival "MC_WRITE" 0x0B a
/-- MC_DROP (R345). -/
def execMcDrop (a : Arrival) (s : State) : Host.Outcome State Fault Refusal := s.arrival "MC_DROP" 0x0C a
/-- PLY (R347). -/
def execPly (a : Arrival) (s : State) : Host.Outcome State Fault Refusal := s.arrival "PLY" 0x0D a
/-- SKEIN (R475). -/
def execSkein (a : Arrival) (s : State) : Host.Outcome State Fault Refusal := s.arrival "SKEIN" 0x0E a
/-- BUDGET (R440). -/
def execBudget (a : Arrival) (s : State) : Host.Outcome State Fault Refusal := s.arrival "BUDGET" 0x0F a
/-- FAULT_REPORT (R456). -/
def execFaultReport (a : Arrival) (s : State) : Host.Outcome State Fault Refusal := s.arrival "FAULT_REPORT" 0x12 a

/-! ### The router's own events -/

/-- Does a port send packets: a mesh port that listens, or an edge adapter's (R317)? -/
def State.sends (s : State) (p : Port) : Bool := s.listens p || (s.pins.porstN && s.up.ready && s.isLink p)

/-- PACKET_SEND (R317, R326): an output sends what it grants. -/
def execPacketSend (p : Port) (s : State) : Host.Outcome State Fault Refusal :=
  .next (if s.sends p then (s.sendOne p).settle else s)

/-- The first branch of an output that has lacked its credits for the whole hold time, and lacks them still (R343). -/
def State.expiredBranch (s : State) (p : Port) : Option Held :=
  s.rtr.held.find? fun h => h.out = p && h.branch && h.sent = 0 && max 1 (s.g F.mcHold) < h.ticks && !s.canSend h

/-- MC_BRANCH_HOLD_EXPIRY (R343). -/
def execMcBranchHoldExpiry (p : Port) (s : State) : Host.Outcome State Fault Refusal :=
  .next (match s.expiredBranch p with
    | none => s
    | some h =>
      let s := (s.dropHeld h).sat F.mcDrop 1
      (s.inject (respondTo h.pkt 0x0C 2 0 (BitVec.ofNat 64 h.drop) [])).settle)

/-- PLY_TIMEOUT (R348); TIMEOUT 0 is 1 (R353). -/
def execPlyTimeout (entry : BitVec 5) (inst : BitVec 16) (s : State) : Host.Outcome State Fault Refusal :=
  .next (match s.rtr.ply.find? fun h => h.entry = entry.toNat && h.inst = inst && max 1 (bits h.conf.toNat 32 16) ≤ h.age with
    | none => s
    | some h =>
      match s.plyForward h with
      | (s, none) => s.settle
      | (s, some p) => (State.toL .l (s, some (p, 0))).settle)

/-- DUP_ENTRY_EXPIRY (R339). -/
def execDupEntryExpiry (s : State) : Host.Outcome State Fault Refusal :=
  .next { s with rtr := { s.rtr with dup := s.rtr.dup.filter fun e => e.age < s.g F.dupWin } }

/-- The unsent stored record with the lowest NUM (R455). -/
def State.unsent (s : State) : Option Nat :=
  ((List.range 32).filter fun i => s.is (F.recValid i) && !s.is (F.recSent i)).foldl
    (fun b i => match b with
      | none => some i
      | some j => if s.g (F.recNum i) < s.g (F.recNum j) then some i else some j) none

/-- Send one record as a FAULT_REPORT (R455, R456). DEDUCED (assumption 25). -/
def State.reportOne (s : State) : State :=
  match s.unsent with
  | none => s
  | some i =>
    let d := (List.range 4).flatMap fun k => toLe 8 (s.g (F.rec i k))
    let p := Packet.mk' 0x12 2 (nodeAddr (BitVec.ofNat 22 (s.g F.rptNode)) 0) 0 0 d
    (s.inject { p with tohost := s.is F.rptToHost, hport := BitVec.ofNat 2 (s.g F.rptHport) }).put (F.recSent i) 1

/-- FAULT_REPORT_SEND (R455): every unsent record, in ascending NUM. -/
def execFaultReportSend (s : State) : Host.Outcome State Fault Refusal :=
  .next (if s.is F.rptValid && s.is F.dieValid && s.up.ready then (forN 32 (fun _ s => s.reportOne) s).settle else s)

/-- PORT_DRAINING_END (R459): the input receives no flit in a cycle after its RTR_PORTFAIL bit was cleared. -/
def execPortDrainingEnd (p : Port) (s : State) : Host.Outcome State Fault Refusal :=
  .next (if p ≠ .l ∧ s.rtr.drainEnd.getLsbD p.num ∧ !bit (s.g F.portFail) p.num then
    { s with rtr := { s.rtr with
        draining := BitVec.ofNat 4 (setBits s.rtr.draining.toNat p.num 1 0),
        drainEnd := BitVec.ofNat 4 (setBits s.rtr.drainEnd.toNat p.num 1 0) } }
  else s)

end Sys2Proof.Machine
end

