-- ==== Sys2Proof/Machine/Resets.lean ====
section
/-! DEFINITION. Power-on, fuses and repair, bring-up of the router and of the node domain, boot, node-domain reset,
PWR_WARN_N, and test access (R42 to R49, R54 to R67, R70 to R91, R426, R427, R468, R504). -/

namespace Sys2Proof.Machine

/-! ### PORST_N and the fuse transfer -/

/-- PORST_N_ASSERT (R43): every register takes its reset value. -/
def execPorstNAssert (s : State) : Host.Outcome State Fault Refusal :=
  .next { State.reset with pending := s.pending, fresh := s.fresh }

/-- ID_STRAP of straps (R94). -/
def strapWord (t : Straps) : Word :=
  BitVec.ofNat 64 (t.pmN.toNat + 4 * t.pmE.toNat + 16 * t.pmS.toNat + 64 * t.pmW.toNat + 256 * t.hint.toNat)

/-- PORST_N_RELEASE (R43, R63, R70): the straps are latched, STAGE is FUSE and FUSE_REQ rises. -/
def execPorstNRelease (st : Straps) (s : State) : Host.Outcome State Fault Refusal :=
  .next (if s.pins.porstN then s
    else
      let s := (s.setReg 0x28 (strapWord st)).put F.stage 0
      { s with pins := { s.pins with porstN := true, fuseReq := true }, up := { s.up with fuseTicks := 0 } })

/-- The CRC-32 of a fuse image and the one it carries (R62). -/
def fuseCrcOk (b : List Byte) : Bool :=
  leNat (slice b 252 4) = (crc32 Config.fuseCrcInit Config.fuseCrcReflect Config.fuseCrcXor (b.take 252)).toNat

/-- Repair entry `e` of macro `m` (R71). -/
def repairEntry (b : List Byte) (m e : Nat) : Nat := bits (leNat b) (11 * (16 * m + e)) 11

/-- No column. -/
def noCol : BitVec 10 := 0x3FF

/-- Columns a macro has replaced. -/
def State.repaired (s : State) (m : Nat) : List (BitVec 10) :=
  ((List.range 16).map fun e => tget noCol s.up.repair (16 * m + e)).filter fun c => c ≠ noCol

/-- Spare `e` of macro `m` replaces a column; ID_REPAIR.USED counts it. -/
def State.useSpare (s : State) (m e : Nat) (col : BitVec 10) : State :=
  let s := { s with up := { s.up with repair := tput noCol s.up.repair (16 * m + e) col } }
  s.put (F.repairUsed m) (s.repaired m).length

/-- Apply one entry (R72). -/
def State.repairOne (b : List Byte) (m e : Nat) (s : State) : State :=
  let x := repairEntry b m e
  let col := BitVec.ofNat 10 x
  if !bit x 10 ∨ 576 ≤ col.toNat ∨ (s.repaired m).contains col then s else s.useSpare m e col

/-- Is some valid entry out of range (R72)? -/
def repairRange (b : List Byte) : Bool :=
  (List.range 128).any fun k => bit (repairEntry b 0 k) 10 && 576 ≤ repairEntry b 0 k % 1024

/-- NODE_INIT begins: the LDO comes on and VLOG goes to the OPP7 level (R39, R80). -/
def State.initStarts (s : State) : State := (s.put F.vTarget 550).ldo true

/-- An image is accepted (R69, R72, R73). -/
def State.fuseAccept (s : State) (b : List Byte) : State :=
  let s := { s with up := { s.up with fuse := b } }
  let s := forN 8 (fun m s => forN 16 (State.repairOne b m) s) s
  let s := s.put F.fuseOk 1
  let s := if s.g F.stage = 0 then (s.put F.stage 1).initStarts else s
  if repairRange b then s.startUpFault 2 else s

/-- FUSE_IMAGE (R63). DESIGN CHOICE (assumption 11). DEDUCED (assumption 61). -/
def execFuseImage (bytes : List Byte) (s : State) : Host.Outcome State Fault Refusal :=
  if bytes.length ≠ 256 then .fault (.illFormed "FUSE_IMAGE")
  else
    .next (if s.pins.porstN && s.pins.fuseReq then
      if fuseCrcOk bytes then State.fuseAccept { s with pins := { s.pins with fuseReq := false } } bytes
      else if s.up.fuseFailed then State.startUpFault { s with pins := { s.pins with fuseReq := false } } 0
      else { s with up := { s.up with fuseFailed := true, fuseTicks := 0 } }
    else s)

/-- FUSE_TIMEOUT (R63): 25,000 ticks after FUSE_REQ rose. FUSE_REQ falls with it, so that a late image is ignored.
DESIGN CHOICE (assumption 89). -/
def execFuseTimeout (s : State) : Host.Outcome State Fault Refusal :=
  .next (if s.pins.porstN && s.pins.fuseReq && 25000 ≤ s.up.fuseTicks then
    State.startUpFault { s with pins := { s.pins with fuseReq := false } } 1
  else s)

/-! ### Clock and router -/

/-- PLL_REF_LOSS (R42). -/
def execPllRefLoss (s : State) : Host.Outcome State Fault Refusal :=
  .next (if s.pins.porstN && !s.up.pllLost then
    let s := State.checkstop { s with up := { s.up with pllLost := true } }
      { source := 0x21, cls := 3, ctx := none, info := 0, addr := 0 }
    s.settle
  else s)

/-- ROUTER_READY (R47, R70, R75, R76). -/
def execRouterReady (s : State) : Host.Outcome State Fault Refusal :=
  .next (if s.pins.porstN && !s.up.ready then
    let edge (p : Port) : Bool := s.portMode p ≠ 0
    let s := State.firstCredits { s with up := { s.up with ready := true, readyTicks := 0, xKnown := edge .w, yKnown := edge .s } }
    let s := if s.up.xKnown then s.put F.coordX 0 else s
    let s := if s.up.yKnown then s.put F.coordY 0 else s
    s.coordsKnown.linksReady.settle
  else s)

/-! ### The node domain (R80, R83, R85, R86) -/

/-- Every page tag back at 0b11, remote access denied. -/
def State.pagesClosed (s : State) : State := forN 32 (fun i s => s.setReg (0x50100 + 8 * i) 0x0303030303030303) s

/-- NODE_INIT runs (R69, R80, R90). -/
def State.initRuns (s : State) : Bool :=
  s.pins.porstN && s.g F.stage = 1 && s.up.phase = .off && !s.isFenced && !s.is F.memReady

/-- MEM_READY (R80). -/
def execMemReady (s : State) : Host.Outcome State Fault Refusal :=
  .next (if s.initRuns then
    let s := State.pagesClosed { s with mem := [], ecc := [] }
    let s := (s.put F.memReady 1).put F.oppCur 7
    s.tryBootWait.settle
  else s)

/-- ID_BOOT_GO (R83, R85). -/
def execIdBootGo (w : RegWr) (s : State) : Host.Outcome State Fault Refusal := .next (s.regCommand w 0x68).settle

/-- MEASUREMENT_DONE (R85, R86): the bytes are hashed as they stand, whatever their check bits. DESIGN CHOICE (assumption 91).
DEDUCED (assumption 55). -/
def execMeasurementDone (s : State) : Host.Outcome State Fault Refusal :=
  .next (if s.g F.stage = 3 && s.nodeOn && !s.isFenced then
    let a := s.g F.bootBase * 0x4000
    let s := (s.extend 0 (sha384 (s.mem.read a (s.g F.bootLen)))).put F.stage 4
    State.refresh { s with core := { s.core with c0 := { s.core.c0 with pc := BitVec.ofNat 64 a } } }
  else s)

/-- ID_DESC_SEL_WRITE (R89). -/
def execIdDescSelWrite (w : RegWr) (s : State) : Host.Outcome State Fault Refusal := .next (s.regCommand w 0x20).settle

/-! ### Node-domain reset (R44, R82, R90, R91, R506) -/

/-- NODE_RST_N (R44): the pin stays low until the release. DEDUCED (assumption 16). -/
def execNodeRstN (ticks : Nat) (s : State) : Host.Outcome State Fault Refusal :=
  .next (if s.pins.porstN && 2 ≤ ticks then State.requestReset { s with pins := { s.pins with nodeRstN := false } } else s)

/-- Registers of the windows an offset test names go back to reset. -/
def State.resetRegs (s : State) (gone : Nat → Bool) : State := { s with ctrl := s.ctrl.filter fun e => !gone e.1 }

/-- LM_ and SEC_ registers but the fence key's. -/
def lmSec (o : Nat) : Bool := o / 0x10000 = 5 || (o / 0x10000 = 9 && !(0x90100 ≤ o && o < 0x90200))

/-- ID_SUFAULT holds a fault no node-domain reset clears (R82). -/
def State.suHeld (s : State) : Bool := bits (s.g F.suFault) 0 6 ≠ 0 || bit (s.g F.suFault) 7

/-- Ring `n` emptied: it keeps the level that SPN_RINGn shows (R448). -/
def State.ringKept (s : State) (n : Nat) : Tab Ring :=
  tput Ring.reset [] n { Ring.reset with level := (s.ring n).level }

/-- What a node-domain reset loses (R91). MEM_READY falls in one that R82 holds as well. DESIGN CHOICE (assumption 66). -/
def State.resetLoses (s : State) : State :=
  let rings := (List.range 16).flatMap s.ringKept
  let s := (s.resetRegs fun o => o / 0x10000 = 2 || lmSec o).loseLogic.put F.memReady 0
  { s with qe := { Queue.reset with tags := s.qe.tags, rings := rings } }

/-- A packet the node itself puts on L: a request, or the answer to one it has served. -/
def nodesOwn (p : Packet) : Bool :=
  p.ty = 1 || p.ty = 3 || p.ty = 5 || p.ty = 6 || p.ty = 7 || p.ty = 0x0B || ((p.ty = 2 || p.ty = 4) && p.status = stOk)

/-- The packets at L that the node has not begun are discarded (R90). DESIGN CHOICE (assumption 88). -/
def State.dropUnbegun (s : State) : State :=
  let r := s.rtr
  let waits (e : Port × Packet × Nat) : Bool := e.1 = .l && (nodesOwn e.2.1 || e.2.1.ty = 0x0D)
  { s with rtr := { r with
      inq := r.inq.filter fun e => !waits e,
      plyWait := r.plyWait.filter fun e => !waits e,
      held := r.held.filter fun h => !(h.inp = .l && h.sent = 0 && !h.branch && nodesOwn h.pkt),
      ingress := [] } }

/-- NODE_DOMAIN_RESET (R90): ticks 0 and 1. SPN_ keeps its values (R448, R506). Without PLL_REF the ADPLLs hold their setting
(R42). -/
def execNodeDomainReset (s : State) : Host.Outcome State Fault Refusal :=
  .next (if s.up.phase = .requested then
    let s := (s.fence 5).stopEngines
    let held := s.suHeld
    let s := if held then s else s.put F.stage 1
    let s := (s.resetLoses.put F.psState 0).put F.oppBusy 0
    let s := if s.up.pllLost then s else s.put F.oppCur 7
    let s := (State.dropUnbegun { s with spn := { s.spn with wakeSrc := 0, dwell := 0 } }).ldo false
    State.settle { s with up := { s.up with phase := if held then .off else .holding } }
  else s)

/-- A reset held at tick 1 may be released: the thermal hold has passed, and no start-up fault (R82) and no fence of another kind
holds it. DEDUCED (assumption 16). -/
def State.releasable (s : State) : Bool :=
  (s.up.phase = .holding || (s.up.phase = .fenced && s.g F.reason = 2))
    && (s.g F.reason ≠ 2 || 10 ≤ s.spn.cool) && !s.suHeld && !s.up.pllLost && !s.up.testMode

/-- NODE_RESET_RELEASE (R59, R90, R468). DEDUCED (assumption 16). -/
def execNodeResetRelease (s : State) : Host.Outcome State Fault Refusal :=
  let s := { s with pins := { s.pins with nodeRstN := s.pins.porstN || s.pins.nodeRstN } }
  .next (if s.releasable then
    let s := ((s.put F.fenced 0).put F.reason 0).initStarts
    { s with pins := { s.pins with faultOutN := true, thermTripN := true }, up := { s.up with phase := .off } }
  else s)

/-! ### PWR_WARN_N (R58, R426, R427) -/

/-- The emergency floor takes effect: the point is OPP7 at once, and VLOG follows (R420, R426). Without PLL_REF the core ADPLL
holds its setting (R42). -/
def State.floorOn (s : State) : State :=
  let s := if s.is F.floor then s else (s.put F.floor 1).hwSet (F.spnEvt 2)
  if s.up.pllLost then s
  else
    let s := (s.put F.oppCur 7).put F.oppBusy (b2n (s.g F.vTarget ≠ 550))
    { s with spn := { s.spn with oppTarget := 7 } }

/-- PWR_WARN (R58): the pin is low for `ns` nanoseconds from here. DEDUCED (assumption 15). -/
def execPwrWarn (ns : Nat) (s : State) : Host.Outcome State Fault Refusal :=
  .next (if s.pins.porstN && 10 ≤ ns then
    let s := { s with pins := { s.pins with pwrWarnN := false },
                      spn := { s.spn with holdTicks := 0, warnLeft := max ns s.spn.warnLeft } }
    if 2 ≤ s.power then { s with spn := { s.spn with pwrLow := true } } else s.floorOn.refresh
  else s)

/-- FLOOR_EXIT (R427). DEDUCED (assumption 15). -/
def execFloorExit (s : State) : Host.Outcome State Fault Refusal :=
  .next (if s.is F.floor && s.pins.pwrWarnN && s.g F.hold ≤ s.spn.holdTicks then
    ((s.put F.floor 0).hwSet (F.spnEvt 3)).refresh
  else s)

/-! ### Test (R64 to R67, R504) -/

/-- The next state of the TAP controller on a TCK edge. PRESUMED (assumption 75). -/
def Tap.next : Tap → Bool → Tap
  | .testLogicReset, tms => if tms then .testLogicReset else .runTestIdle
  | .runTestIdle, tms => if tms then .selectDr else .runTestIdle
  | .selectDr, tms => if tms then .selectIr else .captureDr
  | .captureDr, tms => if tms then .exit1Dr else .shiftDr
  | .shiftDr, tms => if tms then .exit1Dr else .shiftDr
  | .exit1Dr, tms => if tms then .updateDr else .pauseDr
  | .pauseDr, tms => if tms then .exit2Dr else .pauseDr
  | .exit2Dr, tms => if tms then .updateDr else .shiftDr
  | .updateDr, tms => if tms then .selectDr else .runTestIdle
  | .selectIr, tms => if tms then .testLogicReset else .captureIr
  | .captureIr, tms => if tms then .exit1Ir else .shiftIr
  | .shiftIr, tms => if tms then .exit1Ir else .shiftIr
  | .exit1Ir, tms => if tms then .updateIr else .pauseIr
  | .pauseIr, tms => if tms then .exit2Ir else .pauseIr
  | .exit2Ir, tms => if tms then .updateIr else .shiftIr
  | .updateIr, tms => if tms then .selectDr else .runTestIdle

/-- What an edge does in the state the controller leaves: a bit moves from TDI into the register between TDI and TDO and one out
of it, Capture-IR loads 0b0001, and Test-Logic-Reset selects BYPASS. PRESUMED (assumption 75). -/
def Pins.shift (p : Pins) (tdi : Bool) : Pins :=
  match p.tap with
  | .shiftDr =>
    { p with dr := (p.dr >>> 1) ||| BitVec.ofNat 128 (2 ^ 127 * b2n tdi),
             shifted := (p.shifted >>> 1) ||| BitVec.ofNat 128 (2 ^ 127 * b2n (p.dr.getLsbD 0)) }
  | .shiftIr => { p with ir := (p.ir >>> 1) ||| BitVec.ofNat 4 (8 * b2n tdi) }
  | .captureIr => { p with ir := 1 }
  | .testLogicReset => { p with ir := 15 }
  | _ => p

/-- One TCK edge with TMS and TDI; a low TRST_N holds the controller in Test-Logic-Reset (R64). TDO then gives the register's
bit 0 in the two states that drive it. -/
def Pins.tck (p : Pins) (e : Bool × Bool) : Pins :=
  if p.trstN then
    let q := { p.shift e.2 with tap := p.tap.next e.1, tdi := e.2 }
    { q with tdo := if q.tap = .shiftDr then some (q.dr.getLsbD 0) else if q.tap = .shiftIr then some (q.ir.getLsbD 0) else none }
  else { p with tap := .testLogicReset, ir := 15, tdo := none }

/-- TMS and TDI that shift the low `n` bits of `d` in, and leave the Shift state with the last. -/
def shiftIn (n d : Nat) : List (Bool × Bool) := (List.range n).map fun i => (i + 1 = n, bit d i)

/-- TMS and TDI from any state by Test-Logic-Reset to Capture-DR, with the instruction of the test network loaded.
PRESUMED (assumption 75). -/
def toCapture : List (Bool × Bool) :=
  [(true, false), (true, false), (true, false), (true, false), (true, false), (false, false), (true, false), (true, false),
    (false, false), (false, false)] ++ shiftIn 4 Config.tapNetwork.toNat ++ [(true, false), (true, false), (false, false)]

/-- A scan of the test network: the value `v` is captured and shifted out by TDO while `d` comes in by TDI (R64). -/
def State.testOut (s : State) (v d : Nat) : State :=
  let p := { toCapture.foldl Pins.tck s.pins with dr := BitVec.ofNat 128 v }
  { s with pins := ((false, false) :: shiftIn 128 d ++ [(true, false), (false, false)]).foldl Pins.tck p }

/-- The data an access brings in. -/
def testData : TestAcc → Nat
  | .regWrite _ v => v.toNat
  | .memWrite _ v => v.toNat
  | .tileWrite _ v => v.toNat
  | .accWrite _ v an => v.toNat + 2 ^ 96 * an.toNat
  | _ => 0

/-- TEST_MODE_RISE (R66). DEDUCED (assumption 27). -/
def execTestModeRise (s : State) : Host.Outcome State Fault Refusal :=
  .next (if s.pins.porstN then
    let s := (s.keyClear 0).keyClear 1
    let s := s.resetRegs fun o => 0x90200 ≤ o && o < 0x902C0
    let s := s.fence 1
    State.settle { s with up := { s.up with testMode := true } }
  else s)

/-- The gate of R65: open until the first firmware instruction, and then while EN is set. DEDUCED (assumption 57). -/
def State.gateOpen (s : State) : Bool := s.pins.porstN && (!s.up.ran || s.is F.dbgEn)

/-- Registers an open instrument reads: ID_, performance counters (R65), and the FLT_ block, fault records included (R472). -/
def openReg (off : Nat) : Bool :=
  off < 0x10000 || (0x80200 ≤ off && off < 0x80400) || (0xA0000 ≤ off && off < 0xB0000)

/-- What a read through the test network gives; a gated one behind a closed gate gives 0 (R65, R504).
DEDUCED (assumption 57). -/
def State.testRead (s : State) : TestAcc → Nat
  | .regRead off => if openReg off || s.gateOpen then (s.readReg .test off).1.toNat else 0
  | .sysRead c n => if s.gateOpen then (s.sysRead c n.toNat).toNat else 0
  | .memRead a => if s.gateOpen && a < 0x400000 && s.power ≠ 4 then (s.mem.byte a).toNat else 0
  | .tileRead a => if s.gateOpen && a < 0x10000 && s.domainOn then (s.mx.file.byte a).toNat else 0
  | .accRead i =>
    let c := tget AccCell.zero s.mx.acc.cells i
    if s.gateOpen && i < 512 && s.domainOn then c.v.toNat + 2 ^ 96 * c.anchor.toNat else 0
  | .fuseRead i => (s.up.fuse.getD i 0).toNat
  | _ => 0

/-- What a write through the test network does with the gate open: a register's own rule holds (R83), its level does not
(R504), and a key slot that is not VALID takes the write. A byte of an uncorrectable word is no write of all eight, and fails
(R191). Arrays of a domain that is off take nothing (R26). DESIGN CHOICE (assumption 73). DEDUCED (assumption 57). -/
def State.testWrite (s : State) : TestAcc → State
  | .regWrite off v =>
    if s.mayWrite .test off && !s.ownRefuses off v.toNat [(off, v.toNat)] then (s.writeReg .test off v).settle else s
  | .memWrite a v =>
    if a < 0x400000 && s.power ≠ 4 && s.eccOf (a / 8) ≠ .bad then
      { s with mem := s.mem.put a v, ecc := tput .good s.ecc (a / 8) .good }
    else s
  | .tileWrite a v => if a < 0x10000 && s.domainOn then { s with mx := { s.mx with file := s.mx.file.put a v } } else s
  | .accWrite i v an =>
    if i < 512 && s.domainOn then { s with mx := { s.mx with acc := { s.mx.acc with cells := tput AccCell.zero s.mx.acc.cells i ⟨v, an⟩ } } } else s
  | _ => s

/-- TEST_ACCESS (R64, R504). -/
def execTestAccess (t : TestAcc) (s : State) : Host.Outcome State Fault Refusal :=
  .next (if s.pins.porstN && s.pins.trstN then
    let s := s.testOut (s.testRead t) (testData t)
    if s.gateOpen then s.testWrite t else s
  else s)

/-- A free byte. -/
def freeByte (i : Nat) : Byte := (Config.freeWord i).setWidth 8

/-- `n` bytes at 0 left with contents the spec does not give, numbered from `i`. DESIGN CHOICE (assumption 46). -/
def freeMem (n i : Nat) : Mem := ((List.range n).map fun k => (k, freeByte (i + k))).filter fun e => e.2 ≠ 0

/-- Check states the spec does not give. DESIGN CHOICE (assumption 46). -/
def freeMarks (n i : Nat) : Tab EccMark :=
  ((List.range n).map fun k =>
    (k, (match (Config.freeWord (i + k)).toNat % 4 with
      | 0 => EccMark.good
      | 1 => .single
      | 2 => .corrected
      | _ => .bad))).filter fun e => e.2 ≠ .good

/-- A failing column MBIST found takes the macro's lowest free spare; with none free it is left.
DESIGN CHOICE (assumption 65). -/
def State.mbistCol (s : State) (m : Nat) (col : BitVec 10) : State :=
  if 576 ≤ col.toNat ∨ (s.repaired m).contains col then s
  else
    match (List.range 16).find? fun e => tget noCol s.up.repair (16 * m + e) = noCol with
    | some e => s.useSpare m e col
    | none => s

/-- An array has power (R26). -/
def State.arrayOn (s : State) : MbistArray → Bool
  | .localMem => s.power ≠ 4
  | .tile => s.domainOn
  | .other => true

/-- MBIST_RUN (R67). DESIGN CHOICE (assumption 46). The columns of every run go into the repair shadow of the local memory
macros, and a run over another array leaves its contents. DESIGN CHOICE (assumption 65). -/
def execMbistRun (arr : MbistArray) (cols : List (BitVec 3 × BitVec 10)) (s : State) : Host.Outcome State Fault Refusal :=
  .next (if s.gateOpen && s.arrayOn arr then
    let s := match arr with
      | .localMem =>
        { s with mem := freeMem 0x400000 s.fresh, ecc := freeMarks 0x80000 (s.fresh + 0x400000), fresh := s.fresh + 0x480000 }
      | .tile => { s with mx := { s.mx with file := freeMem 0x10000 s.fresh }, fresh := s.fresh + 0x10000 }
      | .other => s
    cols.foldl (fun s e => s.mbistCol e.1.toNat e.2) s
  else s)

end Sys2Proof.Machine
end

