-- ==== Sys2Proof/Machine/LinkRows.lean ====
section
/-! DEFINITION. The commands of the edge adapters: frames, alignment, timers, PHY events and LNK_CTL writes
(R358 to R379). -/

namespace Sys2Proof.Machine

/-- A change of an adapter, where the port has one, and the router's work after it. -/
def State.onLink (s : State) (p : Port) (f : State → State) : Host.Outcome State Fault Refusal :=
  .next (if s.pins.porstN && s.isLink p then (f s).settle else s)

/-- The same, of an adapter in state `st` whose state timer has reached `n` ticks (R368). -/
def State.onLinkAfter (s : State) (p : Port) (st n : Nat) (f : State → State) : Host.Outcome State Fault Refusal :=
  s.onLink p fun s => if s.linkSt p = st ∧ n ≤ (s.lnk p).timer then f s else s

/-- What the lanes bring of a received frame over some PHY cycles (R356, R361, R363). -/
def State.onFrame (s : State) (p : Port) (rx : List (List LaneWord)) : Host.Outcome State Fault Refusal :=
  s.onLink p fun s => s.rxFrame p rx

/-- FRAME_SEND (R362). -/
def execFrameSend (p : Port) (s : State) : Host.Outcome State Fault Refusal := s.onLink p fun s => s.frameSend p
/-- DATA_FRAME (R363). -/
def execDataFrame (p : Port) (rx : List (List LaneWord)) (s : State) : Host.Outcome State Fault Refusal := s.onFrame p rx
/-- NULL_FRAME (R361). -/
def execNullFrame (p : Port) (rx : List (List LaneWord)) (s : State) : Host.Outcome State Fault Refusal := s.onFrame p rx
/-- CAP_FRAME (R367). -/
def execCapFrame (p : Port) (rx : List (List LaneWord)) (s : State) : Host.Outcome State Fault Refusal := s.onFrame p rx
/-- DETACH_FRAME (R375). -/
def execDetachFrame (p : Port) (rx : List (List LaneWord)) (s : State) : Host.Outcome State Fault Refusal := s.onFrame p rx

/-- ALIGN_WORD (R369). -/
def execAlignWord (p : Port) (rx : List LaneWord) (s : State) : Host.Outcome State Fault Refusal :=
  s.onLink p fun s => s.alignWord p rx

/-- LNK_TMO.REPTO, 0 taken as 1 (R363, R364). -/
def State.repTo (s : State) (p : Port) : Nat := max 1 (s.g (F.lRepTo p.num))

/-- NAK_TIMER_EXPIRY (R363). -/
def execNakTimerExpiry (p : Port) (s : State) : Host.Outcome State Fault Refusal :=
  s.onLink p fun s =>
    let x := s.lnk p
    if s.linkSt p = 5 ∧ x.nakOut ∧ s.repTo p ≤ x.nakAge then s.setLnk p { x with nakSend := true, nakAge := 0 } else s

/-- REPLAY_TIMER_EXPIRY (R364). -/
def execReplayTimerExpiry (p : Port) (s : State) : Host.Outcome State Fault Refusal :=
  s.onLink p fun s =>
    let x := s.lnk p
    if s.linkSt p = 5 ∧ x.replay ≠ [] ∧ s.repTo p ≤ x.repAge then (s.setLnk p x.replayAll).sat (F.lReplay p.num) 1 else s

/-- RETTO_EXPIRY (R372); a detach waits for the same time itself (R375). -/
def execRettoExpiry (p : Port) (s : State) : Host.Outcome State Fault Refusal :=
  s.onLink p fun s =>
    let x := s.lnk p
    match x.replay.head? with
    | some f => if (s.linkSt p = 5 ∨ s.linkSt p = 6) ∧ s.g (F.lRetTo p.num) ≤ f.age ∧ !x.detaching then s.retireChannel p else s
    | none => s

/-- ERROR_WINDOW_END (R371, R372). -/
def execErrorWindowEnd (p : Port) (s : State) : Host.Outcome State Fault Refusal := s.onLink p fun s => s.windowEnd p
/-- FEC_UNCORRECTABLE (R371). -/
def execFecUncorrectable (p : Port) (lane : BitVec 2) (s : State) : Host.Outcome State Fault Refusal :=
  s.onLink p fun s => s.fecUnc p lane
/-- FEC_CORRECTED (R371). -/
def execFecCorrected (p : Port) (lane : BitVec 2) (count : BitVec 8) (s : State) : Host.Outcome State Fault Refusal :=
  s.onLink p fun s => s.fecCor p lane count.toNat
/-- LANE_HEALTH_LOSS (R371, R372, R375): PHY_LSTAT bits that are 0 in `lstat` fall. -/
def execLaneHealthLoss (p : Port) (lstat : BitVec 16) (s : State) : Host.Outcome State Fault Refusal :=
  s.onLink p fun s => s.laneLoss p lstat

/-- WAIT_PHY: PHY_RST_N rises and every lane is enabled (R368). -/
def State.linkWaitPhy (s : State) (p : Port) : State :=
  let s := s.linkEnter p 2
  s.setLnk p { s.lnk p with rstN := true, laneEn := 0xF }

/-- LINK_RESET_DONE (R368). -/
def execLinkResetDone (p : Port) (s : State) : Host.Outcome State Fault Refusal :=
  s.onLinkAfter p 1 25 fun s => s.linkWaitPhy p

/-- ALIGN, on the healthy lanes that are not retired (R368, R369). -/
def State.linkAlign (s : State) (p : Port) : State :=
  let s := s.linkEnter p 3
  let x := s.lnk p
  s.setLnk p { x with laneEn := x.healthy &&& ~~~x.retired, matched := 0 }

/-- A lane that may be used has been healthy for 25 ticks (R368). -/
def LinkPort.longHealthy (x : LinkPort) : Bool :=
  (lanesOf (x.healthy &&& ~~~x.retired)).any fun l => 25 ≤ tget 0 x.okTicks l

/-- PHY_HEALTHY (R368): PHY_LSTAT bits that are 1 in `lstat` rise; WAIT_PHY ends when a lane that is not retired has been
healthy for 25 ticks. -/
def execPhyHealthy (p : Port) (lstat : BitVec 16) (s : State) : Host.Outcome State Fault Refusal :=
  s.onLink p fun s =>
    if !(s.lnk p).rstN then s
    else
      let s := s.lanesShow p ((s.lnk p).lstat ||| lstat)
      if s.linkSt p = 2 && (s.lnk p).longHealthy then s.linkAlign p else s

/-- ALIGN_TIMEOUT (R368). -/
def execAlignTimeout (p : Port) (s : State) : Host.Outcome State Fault Refusal :=
  s.onLinkAfter p 3 250 fun s => s.linkReset p
/-- CAP_TIMEOUT (R368). -/
def execCapTimeout (p : Port) (s : State) : Host.Outcome State Fault Refusal :=
  s.onLinkAfter p 4 2500 fun s => s.linkFailed p
/-- RETRAIN_TIMEOUT (R368, R372). -/
def execRetrainTimeout (p : Port) (s : State) : Host.Outcome State Fault Refusal :=
  s.onLinkAfter p 6 2750 fun s => s.retireChannel p
/-- DETACHED_DONE (R368). -/
def execDetachedDone (p : Port) (s : State) : Host.Outcome State Fault Refusal :=
  s.onLinkAfter p 7 25 fun s => s.linkWaitPhy p

/-- WIDTH_CHANGE_TIMEOUT (R377): RETRAIN at the requested mask. -/
def execWidthChangeTimeout (p : Port) (s : State) : Host.Outcome State Fault Refusal :=
  s.onLink p fun s =>
    let x := s.lnk p
    if s.linkSt p = 5 ∧ x.wreq ∧ 25 ≤ x.wAge then s.linkRetrain p x.wmask else s

/-- A write of LNK_CTL. -/
def State.lnkCtlWrite (s : State) (p : Port) (w : RegWr) (v : Word) : Host.Outcome State Fault Refusal :=
  s.onLink p fun s => s.regCommand { w with v := v } (F.lk p.num 0)

/-- LNK_CTL_EN (R368, R375). -/
def execLnkCtlEn (p : Port) (w : RegWr) (s : State) : Host.Outcome State Fault Refusal := s.lnkCtlWrite p w w.v
/-- REARM (R368): the value with REARM set. -/
def execRearm (p : Port) (w : RegWr) (s : State) : Host.Outcome State Fault Refusal := s.lnkCtlWrite p w (w.v ||| 4)
/-- RETIRE (R371). -/
def execRetire (p : Port) (w : RegWr) (s : State) : Host.Outcome State Fault Refusal := s.lnkCtlWrite p w w.v

end Sys2Proof.Machine
end

