-- ==== Sys2Proof/Machine/QueueRows.lean ====
section
/-! DEFINITION. The commands of the queue engine: doorbells, fetch, the start of each descriptor type, completion, the
watchdog, and the QE_ registers with rows of their own (R384 to R415). -/

namespace Sys2Proof.Machine

/-- The queue engine's engines run: RUN stage, not fenced, node-logic domain on and not in N2 (R387, R429). -/
def State.engRuns (s : State) : Bool := s.inRun && s.nodeRuns

/-- DOORBELL_APPLY (R387, R415). -/
def execDoorbellApply (s : State) : Host.Outcome State Fault Refusal :=
  .next (if s.engRuns then
      let s := s.purge
      (match s.qe.db with
       | [] => s
       | e :: r => ((State.restart { s with qe := { s.qe with db := r } } 0).applyTail e.1.toNat e.2.toNat).refresh)
    else s)

/-- DESCRIPTOR_FETCH (R391). -/
def execDescriptorFetch (ring : BitVec 4) (s : State) : Host.Outcome State Fault Refusal :=
  .next (if s.engRuns && s.canFetch ring.toNat then (s.fetchHead ring.toNat).settle else s)

/-- Start the descriptor in execution of a ring, when it is of the row's type and has not started. -/
def State.descRow (s : State) (ring : BitVec 4) (ty : Nat) : State :=
  let n := ring.toNat
  match (s.ring n).exec with
  | none => s
  | some x =>
    if s.engRuns && dType x.desc = ty && !x.eng.started && x.ended.isNone then (s.startDesc n x).settle else s

/-- DESC_NOP (R388). -/
def execDescNop (ring : BitVec 4) (s : State) : Host.Outcome State Fault Refusal := .next (s.descRow ring 0)
/-- DESC_KERNEL (R396). -/
def execDescKernel (ring : BitVec 4) (s : State) : Host.Outcome State Fault Refusal := .next (s.descRow ring 1)
/-- DESC_DMA (R398). -/
def execDescDma (ring : BitVec 4) (s : State) : Host.Outcome State Fault Refusal := .next (s.descRow ring 2)
/-- DESC_RESHARD (R404). -/
def execDescReshard (ring : BitVec 4) (s : State) : Host.Outcome State Fault Refusal := .next (s.descRow ring 3)
/-- DESC_MULTICAST (R400). -/
def execDescMulticast (ring : BitVec 4) (s : State) : Host.Outcome State Fault Refusal := .next (s.descRow ring 4)
/-- DESC_PLY (R401). -/
def execDescPly (ring : BitVec 4) (s : State) : Host.Outcome State Fault Refusal := .next (s.descRow ring 5)
/-- DESC_BARRIER (R402). -/
def execDescBarrier (ring : BitVec 4) (s : State) : Host.Outcome State Fault Refusal := .next (s.descRow ring 6)
/-- DESC_SKEIN (R395). -/
def execDescSkein (ring : BitVec 4) (s : State) : Host.Outcome State Fault Refusal := .next (s.descRow ring 7)

/-- DESCRIPTOR_COMPLETE (R407): of a descriptor that has ended. -/
def execDescriptorComplete (ring : BitVec 4) (s : State) : Host.Outcome State Fault Refusal :=
  .next (match (s.ring ring.toNat).exec with
    | none => s
    | some x =>
      match x.ended with
      | none => s
      | some e => if s.engRuns then (s.finish ring.toNat e).settle else s)

/-- What a watchdog ending reports (R393, R398, R400). -/
def watchEnd (x : Exec) : DescEnd :=
  let t := dType x.desc
  if t = 2 ∨ t = 3 then mkEnd 0x06 0 x.eng.rowsDone
  else if t = 4 then { mkEnd 0x06 x.eng.drops x.eng.missed with dovf := x.eng.dovf }
  else mkEnd 0x06 0 0

/-- The energy of an expired KERNEL stays in KENERGY. DEDUCED (assumption 45). -/
def State.keepEnergy (s : State) (c : CtxId) (e : Nat) : State :=
  let v := BitVec.ofNat 32 (min (e / 256) (2 ^ 32 - 1))
  match c with
  | .c0 => { s with core := { s.core with kenergy0 := v } }
  | .c1 => { s with core := { s.core with kenergy1 := v } }

/-- WATCHDOG (R393, R397): a KERNEL's slot stays full and EXPIRED. -/
def execWatchdog (ring : BitVec 4) (s : State) : Host.Outcome State Fault Refusal :=
  let n := ring.toNat
  .next (match (s.ring n).exec with
    | none => s
    | some x =>
      if s.engRuns && dWexp x.desc ≠ 0 && 2 ^ dWexp x.desc ≤ x.ticks && x.ended.isNone then
        let c := if dType x.desc = 1 then s.kernelCtx n x else s.ringCtx n
        let s := s.record { source := 0x06, cls := 2, ctx := some c, info := n + 2 ^ 16 * x.index.toNat, addr := (dCrec x.desc).toNat }
        let s := if dType x.desc = 1 then (s.put (F.kExpired c.num) 1).keepEnergy c x.energy else s
        (s.finish n (watchEnd x)).settle
      else s)

/-! ### Registers -/

/-- QE_KDONE (R397). -/
def execQeKdone (c : CtxId) (w : RegWr) (s : State) : Host.Outcome State Fault Refusal :=
  .next (s.regCommand w (F.qc c.num 0x50)).settle
/-- KSLOT_TAKEN (R396): the value with TAKEN set. -/
def execKslotTaken (c : CtxId) (w : RegWr) (s : State) : Host.Outcome State Fault Refusal :=
  .next (s.regCommand { w with v := w.v ||| 2 } (F.qc c.num 0x40)).settle
/-- QE_CQPOP (R411). -/
def execQeCqpop (c : CtxId) (r : RegRd) (s : State) : Host.Outcome State Fault Refusal :=
  .next (s.readCommand r.who (F.qc c.num 0x18) r.req).settle
/-- QE_MBOX_ACK (R409). -/
def execQeMboxAck (w : RegWr) (s : State) : Host.Outcome State Fault Refusal := .next (s.regCommand w 0x20018).settle
/-- RING_ENABLE (R384): the value with EN set. -/
def execRingEnable (ring : BitVec 4) (w : RegWr) (s : State) : Host.Outcome State Fault Refusal :=
  .next (s.regCommand { w with v := w.v ||| 1 } (F.qr ring.toNat 8)).settle
/-- RING_DISABLE (R384): the value with EN clear. -/
def execRingDisable (ring : BitVec 4) (w : RegWr) (s : State) : Host.Outcome State Fault Refusal :=
  .next (s.regCommand { w with v := w.v &&& ~~~1 } (F.qr ring.toNat 8)).settle
/-- TAIL_WRITE (R387). -/
def execTailWrite (ring : BitVec 4) (w : RegWr) (s : State) : Host.Outcome State Fault Refusal :=
  .next (s.regCommand w (F.qr ring.toNat 0x10)).settle

/-- Is a FIFO not empty, and its STALE bit: 0 doorbell FIFO, 1 and 2 IMQ, 3 and 4 completion FIFOs. -/
def State.fifoOf (s : State) : Nat → Option (Bool × Fld)
  | 0 => some (!s.qe.db.isEmpty, F.dbStale)
  | 1 => some (0 < s.imqCount .c0, F.imqStale 0)
  | 2 => some (0 < s.imqCount .c1, F.imqStale 1)
  | 3 => some (!s.qe.cq0.isEmpty, F.cqStale 0)
  | 4 => some (!s.qe.cq1.isEmpty, F.cqStale 1)
  | _ => none

/-- FIFO_STALE (R415). -/
def execFifoStale (q : BitVec 3) (s : State) : Host.Outcome State Fault Refusal :=
  .next (match s.fifoOf q.toNat with
    | none => s
    | some (full, f) =>
      if full && s.g F.staleTicks ≠ 0 && s.g F.staleTicks ≤ tget 0 s.qe.timers q.toNat then (s.put f 1).refresh else s)

end Sys2Proof.Machine
end

