-- ==== Sys2Proof/Machine/SpindleRows.lean ====
section
/-! DEFINITION. The Spindle: the AON tick with bucket, levels, reservations and admission; operating points, droop, LDO
and temperature; the power states; comparators and epochs (R418 to R449). -/

namespace Sys2Proof.Machine

/-! ### Operating points (R418 to R420) -/

/-- VLOG of an operating point, mV. -/
def oppVolt (p : Nat) : Nat := [850, 800, 750, 700, 660, 620, 580, 550].getD p 550

/-- Peak energy per AON tick, 0.1 nJ. -/
def oppPeak (p : Nat) : Nat := [1360, 1120, 908, 692, 544, 420, 316, 248].getD p 0

/-- The base point (R419). -/
def State.basePoint (s : State) : Nat :=
  let r := s.g F.oppReq
  if s.is F.oppAuto then
    ((List.range 8).find? fun p => r ≤ p && oppPeak p * 16 ≤ s.g F.fill * 10).getD 7
  else r

/-- The point R419 asks for. -/
def State.oppWanted (s : State) : Nat :=
  max (max s.basePoint (s.g F.thCeil)) (max (s.g F.dbCeil) (if s.is F.floor then 7 else 0))

/-- The LDO regulates and the core ADPLL runs, so that a change takes its ramp and its relock: not in N2 to N4 (R429, R430), nor
without PLL_REF (R42). -/
def State.oppMoves (s : State) : Bool := s.domainOn && s.power < 2 && !s.up.pllLost

/-- From RUN on, the point follows its terms (R419): a change starts unless one is in progress; where neither LDO nor ADPLL
runs, the point is taken at once. Without PLL_REF the ADPLL holds its setting (R42). DESIGN CHOICE (assumption 87). -/
def State.oppStart (s : State) : State :=
  let t := s.oppWanted
  if !s.inRun || s.up.pllLost then s
  else if !s.oppMoves then (s.put F.oppCur t).put F.oppBusy 0
  else if s.is F.oppBusy || t = s.g F.oppCur then s
  else { s.put F.oppBusy 1 with spn := { s.spn with oppTarget := BitVec.ofNat 3 t } }

/-- 10 mV from `v` towards `t`. -/
def ramp10 (v t : Nat) : Nat := if v < t then min t (v + 10) else max t (v - 10)

/-- One tick of a change (R420): downwards the relock comes first, and with it the point; then VLOG's target moves 10 mV.
DESIGN CHOICE (assumption 87). -/
def State.rampTick (s : State) : State :=
  let t := s.spn.oppTarget.toNat
  if !(s.is F.oppBusy && s.oppMoves) then s
  else if s.g F.oppCur < t then s.put F.oppCur t
  else s.put F.vTarget (ramp10 (s.g F.vTarget) (oppVolt t))

/-- OPP_CHANGE_DONE (R420): the ramp has come to its end, and upwards the relock. DEDUCED (assumption 26). -/
def execOppChangeDone (s : State) : Host.Outcome State Fault Refusal :=
  let t := s.spn.oppTarget.toNat
  .next (if s.is F.oppBusy && s.oppMoves && t ≤ s.g F.oppCur && s.g F.vTarget = oppVolt t then
      (((s.put F.oppCur t).put F.oppBusy 0).oppStart).refresh
    else s)

/-! ### Bucket, levels and reservations (R438, R439, R442) -/

/-- CAP and DEBT_MAX in 1/16 nJ. -/
def State.capUnits (s : State) : Nat := max 1 (s.g F.cap) * 256
def State.debtUnits (s : State) : Nat := s.g F.debtMax * 256

/-- B. -/
def State.bucketLevel (s : State) : Int := signed 56 (s.g F.bucket)

/-- DBCEIL rises when the clamp has acted and it has not risen in the last 24 ticks (R442). -/
def State.debtRise (s : State) (clamped : Bool) : State :=
  if clamped && 24 ≤ s.spn.sinceRise && s.g F.dbCeil < 7 then
    let s := ((s.put F.dbCeil (s.g F.dbCeil + 1)).hwSet (F.spnEvt 4)).hwAdd F.debtCnt 1
    { s with spn := { s.spn with sinceRise := 0 } }
  else { s with spn := { s.spn with sinceRise := min 24 (s.spn.sinceRise + 1) } }

/-- The bucket takes one tick. -/
def State.bucketTick (s : State) (e : Nat) : State :=
  let b := min (s.bucketLevel + (s.g F.fill : Int) - (e : Int)) (s.capUnits : Int)
  let floor : Int := -(s.debtUnits : Int)
  let past : Nat := if b < floor then (floor - b).toNat else 0
  let s := s.put F.bucket (unsigned 56 (max b floor))
  let d := s.spn.debtRem + past
  let s := s.put F.debtE ((s.g F.debtE + d / 16) % 2 ^ 48)
  let s := State.debtRise { s with spn := { s.spn with debtRem := d % 16 } } (decide (0 < past))
  if s.bucketLevel < 0 then s.perf 0x43 1 none else s

/-- The unit whose coefficient an activity counter takes: its event's, or an engine's. DESIGN CHOICE (assumption 61). -/
def actUnit (k : Nat) : Nat :=
  if k < 0x300 then k % 0x100 else if k < 0x400 then 0x100 else if k < 0x410 then 0x24 else if k < 0x420 then 0x3D else 0x21

/-- The coefficient of an activity counter, from the accepted fuse image (R62, R73, R436). -/
def State.coeff (s : State) (k : Nat) : Nat := (Config.energyCoeff (slice s.up.fuse 192 32) (actUnit k)).toNat

/-- The energy of the activity counters that `p` picks (R436). -/
def State.energyOf (s : State) (l : List (Nat × Nat)) (p : Nat → Bool) : Nat :=
  ((l.filter fun e => p e.1).map fun e => e.2 * s.coeff e.1).foldl (· + ·) 0

/-- Activity of the node-logic part, engines included, and of the rest of the node; what R437 attributes apart is in neither. -/
def logicAct (k : Nat) : Bool := (k < 0x300 && logicEvent (k % 0x100)) || k / 0x100 = 3
def aonAct (k : Nat) : Bool := k < 0x300 && !logicEvent (k % 0x100)

/-- Activity of the vector unit and the matrix array, with their local-memory transfers. -/
def unitAct (k : Nat) : Bool := k < 0x300 && ((0x10 ≤ k % 0x100 && k % 0x100 ≤ 0x15) || k = 0x22 || k = 0x23)

/-- Activity of a context's issue, with its local-memory transfers. -/
def issueAct (c : CtxId) (k : Nat) : Bool := (k / 0x100 = c.num + 1 && !unitAct k) || k = issueXfers c

/-- Activity of ring `n`'s engine, with its transfers and packet injections. -/
def engineAct (n k : Nat) : Bool := k = 0x300 + n || k = ringXfers n || k = ringFlits n

/-- The modelled energy of the node-logic part (R436). -/
def State.logicEnergy (s : State) (l : List (Nat × Nat)) : Nat := s.energyOf l logicAct

/-- Sensed to modelled energy over the ticks kept, clamped to 3/4 and 5/4 (R436). Nothing sensed and nothing modelled is 1.
DEDUCED (assumption 61). -/
def energyRatio (h : List (Nat × Nat)) : Nat × Nat :=
  let a : Nat := (h.map fun e => e.1).foldl (· + ·) 0
  let b : Nat := (h.map fun e => e.2).foldl (· + ·) 0
  if 4 * a < 3 * b then (3, 4) else if 5 * b < 4 * a then (5, 4) else if b = 0 then (1, 1) else (a, b)

/-- Modelled node-logic energy, scaled (R436). -/
def State.scaled (s : State) (n : Nat) : Nat := n * (energyRatio s.spn.eHist).1 / (energyRatio s.spn.eHist).2

/-- The tick's sensed and modelled energy join the last 256. -/
def State.noteEnergy (s : State) (sensed : Nat) (l : List (Nat × Nat)) : State :=
  { s with spn := { s.spn with eHist := ((sensed, s.logicEnergy l) :: s.spn.eHist).take 256 } }

/-- E: the energy the node used in the tick (R436). -/
def State.usedEnergy (s : State) (l : List (Nat × Nat)) : Nat := s.energyOf l aonAct + s.scaled (s.logicEnergy l)

/-- The part of E that R437 attributes to the descriptor in execution on ring `n`: to a KERNEL its context's issue, and the
vector and matrix units while MXOWN names that context; to another its engine. -/
def State.attributed (s : State) (l : List (Nat × Nat)) (n : Nat) : Nat :=
  match (s.ring n).exec with
  | none => 0
  | some x =>
    let c := s.kernelCtx n x
    s.scaled (s.energyOf l (if execIsKernel x then fun k => issueAct c k || (decide (s.core.mxOwner = c) && unitAct k) else engineAct n))

/-- One ring's descriptor, level and wait take one tick in which `e` was attributed to it. DEDUCED (assumption 32). -/
def State.ringTick (e : Nat) (n : Nat) (s : State) : State :=
  let r := s.ring n
  let r := match r.exec with
    | none => r
    | some x =>
      let x := { x with ticks := x.ticks + 1, energy := x.energy + e }
      { r with exec := some x, resv := x.est - x.energy }
  let share := s.g (F.rShare n)
  let lv := if share = 0 then r.level
    else max (min (r.level + ((s.g F.fill * share / 256 : Nat) : Int) - (e : Int)) ((s.capUnits * share / 256 : Nat) : Int))
      (-((s.debtUnits * share / 256 : Nat) : Int))
  let w := if s.is (F.rHeld n) then r.wait + 1 else r.wait
  let s := s.setRing n { r with level := lv, wait := w }
  (s.put (F.ringLevel n) (unsigned 40 lv)).put (F.ringWait n) (min w (2 ^ 24 - 1))

/-- R: the sum of the reservations. -/
def State.sumResv (s : State) : State :=
  s.put F.resv (((List.range 16).map fun n => (s.ring n).resv).foldl (· + ·) 0)

/-! ### Admission (R443 to R445) -/

/-- SPN_SCHED.AGE. -/
def State.ageTicks (s : State) : Nat := max 1 (s.g F.age)

/-- The held head of a ring. -/
def State.headOf (s : State) (n : Nat) : List Byte := (s.ring n).head.getD []

/-- Is a KERNEL of context `c` in execution? DEDUCED (assumption 58). -/
def State.kernelRuns (s : State) (c : CtxId) : Bool :=
  (List.range 16).any fun n =>
    match (s.ring n).exec with
    | some x => execIsKernel x && s.kernelCtx n x = c
    | none => false

/-- Is a ring a candidate (R443)? DEDUCED (assumption 58). -/
def State.candidate (s : State) (n : Nat) : Bool :=
  s.is (F.rEn n) && s.is (F.rHeld n) && !s.is (F.rBusy n) && (s.ring n).head.isSome
    && (if dType (s.headOf n) = 1 then !s.is (F.kFull (s.ringCtx n).num) && !s.kernelRuns (s.ringCtx n) else s.engBusy < 4)

/-- Effective class of a ring. -/
def State.effClass (s : State) (n : Nat) : Nat :=
  let c := s.g (F.rClass n)
  if c = 0 then 0 else max 1 (c - (s.ring n).wait / s.ageTicks)

/-- Has a ring that is not URGENT waited 4 × AGE? -/
def State.starving (s : State) (n : Nat) : Bool := s.g (F.rClass n) ≠ 0 && 4 * s.ageTicks ≤ (s.ring n).wait

/-- d(n): the head is deferred while the node is hot. -/
def State.deferred (s : State) (n : Nat) : Bool := s.spn.hot && s.g F.defCls ≤ dTherm (s.headOf n)

/-- fits(n) (R444). -/
def State.fitsRing (s : State) (n : Nat) : Bool :=
  let est := dEst (s.headOf n)
  let share := s.g (F.rShare n)
  decide ((min est s.capUnits : Nat) ≤ s.bucketLevel - (s.g F.resv : Int))
    && (share = 0 || decide ((min est (s.capUnits * share / 256) : Nat) ≤ (s.ring n).level - ((s.ring n).resv : Int)))

/-- The rings in turn after ring `r`. DEDUCED (assumption 32). -/
def ringsAfter (r : Nat) : List Nat := (List.range 16).map fun i => (r + 1 + i) % 16

/-- Put a ring into a list by falling wait; among equal waits the order the spec leaves open. -/
def State.byWait (s : State) (tie : Nat) : List Nat → List Nat
  | [] => []
  | n :: r =>
    let before (m : Nat) : Bool :=
      (s.ring n).wait < (s.ring m).wait || ((s.ring n).wait = (s.ring m).wait && (m + tie) % 16 < (n + tie) % 16)
    let l := s.byWait tie r
    l.filter before ++ n :: l.filter fun m => !before m

/-- admit(n) (R445). -/
def State.admitRing (s : State) (n : Nat) : State :=
  let d := s.headOf n
  let est := dEst d
  let w := (s.ring n).wait
  let s := { s with spn := { s.spn with rr := tput 0 s.spn.rr (s.effClass n) n } }
  let x : Exec := { desc := d, index := BitVec.ofNat 16 (s.g (F.rHead n)), ticks := 0, energy := 0, est := est,
                    eng := Engine.fresh, ended := none }
  let s := s.setRing n { s.ring n with head := none, wait := 0, resv := est, exec := some x }
  let s := ((s.put (F.rHeld n) 0).put (F.rBusy n) 1).put (F.ringWait n) 0
  let s := (s.put F.resv (s.g F.resv + est)).perf 0x40 1 none
  State.wakeBy (s.sample 0x01 (fun f => bit f n) w) 4

/-- The ring decide() admits (R445). -/
def State.decideRing (s : State) : Option Nat :=
  if s.bucketLevel - (s.g F.resv : Int) ≤ 0 then none
  else
    let c := (List.range 16).filter s.candidate
    let st := s.byWait ((Config.freeWord s.fresh).toNat % 16) (c.filter fun n => s.starving n && !s.deferred n)
    match st.find? s.fitsRing with
    | some n => some n
    | none =>
      match (ringsAfter (tget 0 s.spn.rr 0)).find? fun n => c.contains n && s.g (F.rClass n) = 0 with
      | some n => some n
      | none =>
        if !st.isEmpty then none
        else
          [1, 2, 3].findSome? fun ec =>
            (ringsAfter (tget 0 s.spn.rr ec)).find? fun n => c.contains n && s.effClass n = ec && !s.deferred n && s.fitsRing n

/-- decide(), up to `k` times. -/
def State.decides : Nat → State → State
  | 0, s => s
  | k + 1, s =>
    match s.decideRing with
    | none => s
    | some n => State.decides k (s.tick.admitRing n)

/-- Admission at a tick: in RUN, not fenced, not in N3 or N4. DESIGN CHOICE (assumption 33). -/
def State.admission (s : State) : State :=
  if s.inRun && !s.isFenced && s.power < 3 then State.decides 4 s else s

/-! ### Power states (R428 to R431) -/

/-- A request of a context is unanswered. DEDUCED (assumption 29). -/
def coreOwner : Owner → Bool
  | .store _ => true
  | .load _ => true
  | .atomic _ => true
  | .code _ _ => true
  | _ => false

/-- The conditions of R429 beside the dwell and MAXAUTO, in N0, N1 or N2. DEDUCED (assumption 29). -/
def State.atRest (s : State) : Bool :=
  s.inRun && !s.isFenced && s.power < 3 && s.cx.wait = .wfe && !s.cx.latch && s.engBusy = 0 && s.core.chestOp.isNone
    && s.mx.drain.isNone && !(s.qe.outst.any fun e => coreOwner e.2) && s.qe.db.isEmpty && s.rtr.ingress.isEmpty

/-- A node in N1 that may enter N2 (R429). -/
def State.n2Ready (s : State) : Bool := s.power < 2 && s.atRest

/-- VLOG and power state of a node leaving N2, N3 or N4; a floor recorded there applies now (R427). -/
def State.awake (s : State) : State :=
  let s := (((s.put F.psState 0).put F.psSrc s.spn.wakeSrc.toNat).put F.vTarget (oppVolt (s.g F.oppCur))).ldo true
  let low := s.spn.pwrLow
  let s := { s with spn := { s.spn with wakeSrc := 0, dwell := 0, pwrLow := false } }
  if low then s.floorOn else s

/-- N2_ENTRY (R429). -/
def execN2Entry (s : State) : Host.Outcome State Fault Refusal :=
  .next (if s.g F.maxAuto = 2 && s.n2Ready && s.g F.n2Dwell ≤ s.spn.dwell then
      let s := (s.put F.psState 2).put F.vTarget 500
      { s with spn := { s.spn with dwell := 0, wakeSrc := 0 } }
    else s)

/-- N2_WAKE (R429): a WFE whose latch is set completes. A fenced node stays as it is (R462). DEDUCED (assumption 29). -/
def execN2Wake (s : State) : Host.Outcome State Fault Refusal :=
  .next (if s.power = 2 && s.spn.wakeSrc ≠ 0 && !s.isFenced then
      let s := s.awake
      (if s.wfeReady then s.wfeDone else s).settle
    else s)

/-- PSCMD_N3 (R430). DEDUCED (assumption 28). -/
def execPscmdN3 (w : RegWr) (s : State) : Host.Outcome State Fault Refusal := .next (s.regCommand { w with v := 3 } 0x10010).settle
/-- PSCMD_N4 (R430). -/
def execPscmdN4 (w : RegWr) (s : State) : Host.Outcome State Fault Refusal := .next (s.regCommand { w with v := 4 } 0x10010).settle
/-- PSCMD_WITHDRAW (R430). -/
def execPscmdWithdraw (w : RegWr) (s : State) : Host.Outcome State Fault Refusal :=
  .next (s.regCommand { w with v := 0 } 0x10010).settle
/-- SPN_WAKE_GO (R430). -/
def execSpnWakeGo (w : RegWr) (s : State) : Host.Outcome State Fault Refusal :=
  .next (s.regCommand { w with v := w.v ||| 1 } 0x10028).settle

/-- DEEP_SLEEP_ENTRY (R430). DEDUCED (assumption 28). -/
def execDeepSleepEntry (s : State) : Host.Outcome State Fault Refusal :=
  .next (if s.is F.psPend && (s.g F.psCmd = 3 || s.g F.psCmd = 4) && s.atRest then
      let s := (((s.put F.psState (s.g F.psCmd)).put F.psPend 0).loseLogic).ldo false
      { s with spn := { s.spn with dwell := 0, wakeSrc := 0 } }
    else s)

/-- DEEP_WAKE (R430): from N3, C0 at SPN_RESUMEPC × 4 at M; from N4, the sequence of R90 from its release.
DEDUCED (assumption 28). -/
def execDeepWake (s : State) : Host.Outcome State Fault Refusal :=
  .next (if s.spn.wakeSrc ≠ 0 && !s.isFenced && s.power = 3 then
      let s := s.awake
      let pc := BitVec.ofNat 64 (s.g F.resumePc * 4)
      State.settle { s with core := { s.core with c0 := { s.core.c0 with pc := pc } } }
    else if s.spn.wakeSrc ≠ 0 && !s.isFenced && s.power = 4 then
      let s := ((s.resetRegs lmSec).put F.memReady 0).put F.stage 1
      ((s.put F.oppCur 7).put F.oppBusy 0).awake.settle
    else s)

/-- MESH_IDLE (R432, R483). DEDUCED (assumption 34). -/
def execMeshIdle (s : State) : Host.Outcome State Fault Refusal :=
  .next (if s.rtr.wakeIn = 0 && !s.meshKept && max 1 (s.g F.meshHold) ≤ s.rtr.idleTicks then { s with rtr := { s.rtr with idle := true } } else s)

/-! ### Droop, LDO and temperature (R421 to R425) -/

/-- DROOP_DETECT (R422). -/
def execDroopDetect (sensed : BitVec 10) (s : State) : Host.Outcome State Fault Refusal :=
  .next (if s.domainOn && !s.spn.stretch && sensed.toNat + s.g F.droopTh < s.g F.vTarget then
      let s := (s.hwAdd F.droopCnt 1).perf 0x44 1 none
      { s with spn := { s.spn with stretch := true } }
    else s)

/-- DROOP_END (R422). -/
def execDroopEnd (s : State) : Host.Outcome State Fault Refusal := .next { s with spn := { s.spn with stretch := false } }

/-- VLOG is more than 60 mV off its target, outside a ramp, since droop stretching began (R421). -/
def State.ldoOff (s : State) (v : Nat) : Bool :=
  s.spn.stretch && !s.is F.oppBusy && (s.g F.vTarget + 60 < v || v + 60 < s.g F.vTarget)

/-- The ticks for which VLOG has been off its target (R421). -/
def State.ldoTick (s : State) (v : Nat) : State :=
  { s with spn := { s.spn with devTicks := if s.domainOn && s.ldoOff v then s.spn.devTicks + 1 else 0 } }

/-- LDO_FAULT (R421): four ticks off the target, or too much current; the LDO's output goes to zero. -/
def execLdoFault (sensed : BitVec 10) (overcurrent : Bool) (s : State) : Host.Outcome State Fault Refusal :=
  let v := sensed.toNat
  .next (if s.domainOn && (overcurrent || (4 ≤ s.spn.devTicks && s.ldoOff v)) then
      let s := (s.record { source := 0x24, cls := 3, ctx := none, info := v + 2 ^ 16 * s.g F.vTarget, addr := 0 }).fence 3
      (if s.domainOn then s.loseLogic.ldo false else s).settle
    else s)

/-- SOFT: the node becomes hot, or stops being so (R424, R425). DEDUCED (assumption 26). -/
def State.softTick (s : State) (m : Int) : State :=
  let soft : Int := s.g F.soft
  let s := { s with spn := { s.spn with cool := if m < soft then s.spn.cool + 1 else 0 } }
  if soft ≤ m then
    let s := if s.spn.hot then s else s.hwSet (F.spnEvt 0)
    { s with spn := { s.spn with hot := true } }
  else if m < soft - 8 then { s with spn := { s.spn with hot := false } }
  else s

/-- HARD: THCEIL rises at each sample, and falls every ten samples below HARD - 5 °C (R424, R425). -/
def State.hardTick (s : State) (m : Int) : State :=
  let hard : Int := s.g F.hard
  let c := s.g F.thCeil
  let s := if hard ≤ m ∧ c < 7 then (s.put F.thCeil (c + 1)).hwSet (F.spnEvt 1) else s
  let b := if m < hard - 20 then s.spn.below + 1 else 0
  if 10 ≤ b then { s.put F.thCeil (c - 1) with spn := { s.spn with below := 0 } }
  else { s with spn := { s.spn with below := b } }

/-- TRIP: the second sample in a row fences (R424), and any after it on a node since released. -/
def State.tripTick (s : State) (m : Int) : State :=
  let run := if (s.g F.trip : Int) ≤ m then s.spn.tripRun + 1 else 0
  let s := { s with spn := { s.spn with tripRun := run } }
  if run = 2 ∨ (2 < run ∧ (!s.isFenced ∨ s.g F.reason = 5)) then
    let s := (s.record { source := 0x23, cls := 3, ctx := none, info := s.g F.tMax, addr := 0 }).fence 2
    { s with pins := { s.pins with thermTripN := false }, spn := { s.spn with tripped := true } }
  else s

/-- The sensors differ by more than 10 °C on 16 samples in a row (R423). -/
def State.diffTick (s : State) (a b : Int) : State :=
  let run := if 40 < a - b ∨ 40 < b - a then s.spn.diffRun + 1 else 0
  let s := { s with spn := { s.spn with diffRun := run } }
  if run = 16 then
    (s.hwSet (F.spnEvt 8)).record { source := 0x0A, cls := 2, ctx := none, info := s.g F.t0 + 2 ^ 16 * s.g F.t1, addr := 0 }
  else s

/-- THERMAL_SAMPLE (R423, R424). -/
def execThermalSample (t0 t1 : BitVec 12) (s : State) : Host.Outcome State Fault Refusal :=
  .next (if s.pins.porstN then
      let m := max t0.toInt t1.toInt
      let s := ((s.put F.t0 t0.toNat).put F.t1 t1.toNat).put F.tMax (unsigned 12 m)
      let s := s.sample 0x10 (fun _ => true) m
      ((((s.softTick m).hardTick m).diffTick t0.toInt t1.toInt).tripTick m).settle
    else s)

/-! ### Comparators and epochs (R434, R435) -/

/-- COMPARATOR_MATCH (R434). DEDUCED (assumption 31). -/
def execComparatorMatch (i : BitVec 2) (s : State) : Host.Outcome State Fault Refusal :=
  let k := i.toNat
  let lt := s.g F.ltime
  let v := s.g (F.cmpVal k)
  .next (if s.pins.porstN && s.is (F.cmpEn k) && v ≤ lt && !s.spn.matched.getLsbD k then
      let per := s.g (F.cmpPeriod k)
      let s := s.hwSet (F.cmpHit k)
      let s := if per = 0 then { s with spn := { s.spn with matched := s.spn.matched ||| (1 <<< k) } }
        else (s.put (F.cmpVal k) ((v + per * ((lt - v) / per + 1)) % 2 ^ 64)).hwAdd (F.cmpMiss k) ((lt - v) / per)
      let wake := s.power = 2 || (s.is (F.cmpWake k) && s.is F.wakeCmp)
      (if wake then s.wakeBy 5 else s).refresh
    else s)

/-- CMP_VAL_WRITE (R434). DEDUCED (assumption 31). -/
def execCmpValWrite (i : BitVec 2) (w : RegWr) (s : State) : Host.Outcome State Fault Refusal :=
  .next (s.regCommand w (0x10100 + 0x10 * i.toNat)).settle

/-- EPOCH_END (R435, R442). -/
def execEpochEnd (s : State) : Host.Outcome State Fault Refusal :=
  .next (if s.pins.porstN && max 25 (s.g F.epoch) ≤ s.spn.epochTicks then
      let s := (s.put F.epochE (s.spn.epochE / 16 % 2 ^ 48)).hwSet (F.spnEvt 7)
      let s := if 0 < s.bucketLevel then s.put F.dbCeil (s.g F.dbCeil - 1) else s
      State.refresh { s with spn := { s.spn with epochE := 0, epochTicks := 0 } }
    else s)

/-- SPN_EPOCH_WRITE (R435). -/
def execSpnEpochWrite (w : RegWr) (s : State) : Host.Outcome State Fault Refusal := .next (s.regCommand w 0x10040).settle

/-! ### The AON tick (R433, R436, R439) -/

/-- Incoming WAKE signals that stay high after a tick (R49): WAKE of port `p` in bit `p`. -/
def wakesLeft (w : BitVec 4) (t : Tab Nat) : BitVec 4 :=
  BitVec.ofNat 4 ((List.range 4).foldl (fun a p => a + 2 ^ p * b2n (w.getLsbD p && 0 < tget 0 t p)) 0)

/-- Outgoing FVALID and WAKE fall: a tick is longer than the flits sent since the last (R49). -/
def bundlesQuiet (t : Tab Bundle) : Tab Bundle :=
  (List.range 4).foldl (fun t p => tput Bundle.quiet t p { tget Bundle.quiet t p with fvalid := false, wake := false }) t

/-- Timers outside the Spindle's own arithmetic. What hardware does to registers from here on is of the new tick (R18). -/
def State.timersTick (s : State) : State :=
  let s := s.put F.ltime ((s.g F.ltime + 1) % 2 ^ 64)
  let s := [Port.n, .e, .s, .w].foldl State.linkTick s
  let r := s.rtr
  { s with
    up := { s.up with
      aonSet := [], aonAdd := [], tickRecs := [],
      readyTicks := if s.up.ready && s.up.readyTicks < 2500 then s.up.readyTicks + 1 else s.up.readyTicks,
      fuseTicks := if s.pins.fuseReq then s.up.fuseTicks + 1 else s.up.fuseTicks },
    rtr := { r with
      dup := r.dup.map (fun e => { e with age := e.age + 1 }),
      ply := r.ply.map (fun e => { e with age := e.age + 1 }),
      held := r.held.map (fun e => { e with ticks := if s.canSend e then 0 else e.ticks + 1 }),
      idleTicks := if r.wakeIn = 0 then r.idleTicks + 1 else 0,
      wakeIn := wakesLeft r.wakeIn r.wakeLeft,
      wakeLeft := (List.range 4).foldl (fun t p => tput 0 t p (tget 0 t p - 1)) r.wakeLeft,
      bundle := bundlesQuiet r.bundle },
    qe := { s.qe with timers := (List.range 5).foldl (fun t q => tput 0 t q (tget 0 t q + 1)) s.qe.timers },
    pins := { s.pins with pwrWarnN := s.spn.warnLeft ≤ 40 },
    spn := { s.spn with
      warnLeft := s.spn.warnLeft - 40,
      scrubTicks := s.spn.scrubTicks + 1,
      holdTicks := if s.pins.pwrWarnN then s.spn.holdTicks + 1 else 0,
      dwell := if s.g F.maxAuto = 2 && s.n2Ready then s.spn.dwell + 1 else 0 } }

/-- The tick's energy: SPN_ENERGY and the epoch's sum (R435, R436). DEDUCED (assumption 61). -/
def State.energyTick (s : State) (e : Nat) : State :=
  let t := s.spn.energyRem + e
  let s := s.put F.energy ((s.g F.energy + t / 16) % 2 ^ 64)
  { s with spn := { s.spn with energyRem := t % 16, epochE := s.spn.epochE + e, epochTicks := s.spn.epochTicks + 1 } }

/-- Entries of the FIFO a FILTER of source 0x12 names (R482). -/
def State.depthOf (s : State) (q : Nat) : Nat :=
  match q with
  | 0 => s.qe.db.length
  | 1 => s.imqCount .c0
  | 2 => s.imqCount .c1
  | 3 => s.qe.cq0.length
  | 4 => s.qe.cq1.length
  | 5 => s.fltRx.length
  | _ => 0

/-- The samples taken at each tick (R482). -/
def State.tickSamples (s : State) : State :=
  let depths : List Sample := (List.range 8).map fun q => (0x12, fun f => decide (f % 8 = q), (s.depthOf q : Int))
  s.samples ((0x11, fun _ => true, (s.g F.vSensed : Int)) :: (0x13, fun _ => true, s.bucketLevel / 256) :: depths)

/-- AON_TICK (R439): the activity counters of the tick are read and start again. DEDUCED (assumption 26). DEDUCED (assumption 61). -/
def execAonTick (e : TickEnergy) (s : State) : Host.Outcome State Fault Refusal :=
  .next (if s.pins.porstN then
      let l := s.act ++ e.counts
      let s := ((State.timersTick { s with act := [] }).put F.vSensed e.vlog.toNat).ldoTick e.vlog.toNat
      let s := s.noteEnergy e.sensed l
      let used := s.usedEnergy l
      let s := (s.energyTick used).bucketTick used
      let s := (forN 16 (fun n s => s.ringTick (s.attributed l n) n) s).sumResv
      s.tickSamples.rampTick.oppStart.admission.settle
    else s)

end Sys2Proof.Machine
end

