-- ==== Sys2Proof/Machine/RegRows.lean ====
section
/-! DEFINITION. The remaining register commands: the fault block, the security block, observability, reads that clear, and
writes of registers without a row of their own (R16, R177 to R180, R456, R467, R468, R478, R485, R496 to R505). -/

namespace Sys2Proof.Machine

/-- A write of one register by a requester, and what follows from it. -/
def State.regRow (s : State) (w : RegWr) (off : Nat) : Host.Outcome State Fault Refusal := .next (s.regCommand w off).settle

/-- FLT_NRST (R468): the value with GO set. -/
def execFltNrst (w : RegWr) (s : State) : Host.Outcome State Fault Refusal := s.regRow { w with v := w.v ||| 1 } 0xA0028
/-- FLT_RXPOP (R456): the value with POP set. -/
def execFltRxpop (w : RegWr) (s : State) : Host.Outcome State Fault Refusal := s.regRow { w with v := w.v ||| 1 } 0xA0060
/-- SEC_KEY_WRITE (R177). -/
def execSecKeyWrite (c : CtxId) (j : BitVec 2) (w : RegWr) (s : State) : Host.Outcome State Fault Refusal :=
  s.regRow w (0x90040 + 0x20 * c.num + 8 * j.toNat)
/-- SEC_KEYCLR (R177). -/
def execSecKeyclr (w : RegWr) (s : State) : Host.Outcome State Fault Refusal := s.regRow w 0x90010
/-- SEC_EXTGO (R178): the value with GO set. -/
def execSecExtgo (w : RegWr) (s : State) : Host.Outcome State Fault Refusal := s.regRow { w with v := w.v ||| 0x100 } 0x90020

/-- SEC_EXTDATA as 48 bytes. -/
def State.extBytes (s : State) : List Byte := (List.range 6).flatMap fun j => toLe 8 (s.g (F.extData j))

/-- EXTENSION_DONE (R178). -/
def execExtensionDone (s : State) : Host.Outcome State Fault Refusal :=
  .next (if s.is F.extBusy then (s.extend s.up.extIdx.toNat s.extBytes).put F.extBusy 0 else s)

/-- SEC_DBGCTL_WRITE (R179). -/
def execSecDbgctlWrite (w : RegWr) (s : State) : Host.Outcome State Fault Refusal := s.regRow w 0x90018
/-- SEC_FCKEY_WRITE (R467). -/
def execSecFckeyWrite (j : BitVec 2) (w : RegWr) (s : State) : Host.Outcome State Fault Refusal := s.regRow w (0x90100 + 8 * j.toNat)
/-- SEC_FCCLR (R467): the value with CLR set. -/
def execSecFcclr (w : RegWr) (s : State) : Host.Outcome State Fault Refusal := s.regRow { w with v := w.v ||| 1 } 0x90128
/-- OBS_SWTRIG (R478): the value with GO set. -/
def execObsSwtrig (w : RegWr) (s : State) : Host.Outcome State Fault Refusal := s.regRow { w with v := w.v ||| 0x10000 } 0x80040
/-- MONITOR_CLR (R485): the value with CLR set. -/
def execMonitorClr (i : BitVec 3) (w : RegWr) (s : State) : Host.Outcome State Fault Refusal :=
  s.regRow { w with v := w.v ||| 2 } (F.mo i.toNat 0)

/-- RC_READ (R16). -/
def execRcRead (r : RegRd) (off : BitVec 20) (s : State) : Host.Outcome State Fault Refusal :=
  .next (s.readCommand r.who off.toNat r.req).settle

/-- REGISTER_WRITE (R502). -/
def execRegisterWrite (off : BitVec 20) (w : RegWr) (s : State) : Host.Outcome State Fault Refusal := s.regRow w off.toNat

end Sys2Proof.Machine
end

