-- ==== Sys2Proof/Machine/Outputs.lean ====
section
/-! DEFINITION. The outputs of the block as the state drives them (R35, R37, R45, R51, R61, R64). -/

namespace Sys2Proof.Machine

/-- An outgoing mesh bundle. MCLK_O: 0 stopped low, 275 MHz or 2.2 GHz, in units of 25 MHz. CRED_O: per channel, credits
returned since PORST_N. -/
structure MeshOut where
  mclk : Nat
  bundle : Bundle
  cred : List Nat
  deriving DecidableEq, Repr

/-- The PHY bundle of a port: the words of PHY_TXD per lane with PHY_TXV high, and the control bits. -/
structure PhyOut where
  txd : List (List (BitVec 256))
  rate : Bool
  laneEn : BitVec 4
  rstN : Bool
  deriving DecidableEq, Repr

/-- Every output of R35; the ports in the order N, E, S, W. -/
structure Outputs where
  mesh : List MeshOut
  phy : List PhyOut
  thermTripN : Bool
  faultOutN : Bool
  idVersion : Byte
  fuseReq : Bool
  tdo : Option Bool
  scanOut : Word32
  deriving DecidableEq, Repr

/-- The outgoing bundle of a port; of an inactive one, its reset value (R37). -/
def State.meshOut (s : State) (p : Port) : MeshOut :=
  if s.pins.porstN && s.up.ready && s.meshPort p then
    { mclk := if s.rtr.idle then 11 else 88, bundle := tget Bundle.quiet s.rtr.bundle p.num,
      cred := (List.range 4).map fun v => tget 0 s.rtr.creditsOut (4 * p.num + v) }
  else { mclk := 0, bundle := Bundle.quiet, cred := [0, 0, 0, 0] }

/-- The PHY bundle of a port; of an inactive one, its reset value (R37, R52). Retired lanes of PHY_LANE_EN read 0 (R51). -/
def State.phyOut (s : State) (p : Port) : PhyOut :=
  let x := s.lnk p
  if s.isLink p then
    { txd := (List.range 4).map fun l => tget [] x.txd l, rate := x.rate, laneEn := x.laneEn &&& ~~~x.retired, rstN := x.rstN }
  else { txd := [[], [], [], []], rate := false, laneEn := 0, rstN := false }

/-- What stands at the outputs. -/
def State.outputs (s : State) : Outputs :=
  let ports := [Port.n, .e, .s, .w]
  { mesh := ports.map s.meshOut, phy := ports.map s.phyOut, thermTripN := s.pins.thermTripN, faultOutN := s.pins.faultOutN,
    idVersion := s.pins.idVersion, fuseReq := s.pins.fuseReq, tdo := s.pins.tdo, scanOut := s.pins.scanOut }

end Sys2Proof.Machine
end

