-- ==== Sys2Proof/Machine/Scalar.lean ====
section
/-! DEFINITION. Integer instructions, the exposed multiplier, division and immediates (R112 to R115, R118, R122, R123). -/

namespace Sys2Proof.Machine

/-- A frame-A instruction with a .f form: `op` gives result and flags of rs1, rs2. -/
def State.aluF (s : State) (op : Nat) (a : FrameA) (f : State → Word → Word → Word × Flags) : State :=
  s.issue (encF 1 op a) fun s => s.result a.f a.rd (f s (s.r a.rs1) (s.r a.rs2))

/-- A frame-A instruction without a .f form. -/
def State.aluN (s : State) (op : Nat) (ok : Bool) (a : FrameA) (f : State → Word → Word → Word) : State :=
  s.issue (encA 1 op 0 ok a) fun s => s.value a.rd (f s (s.r a.rs1) (s.r a.rs2))

/-- ADD (R123). -/
def execAdd (a : FrameA) (s : State) : Host.Outcome State Fault Refusal :=
  .next (s.aluF 0x00 a fun _ x y => addFlags x y false)
/-- SUB, and CMP with rd = 0 (R123). -/
def execSub (a : FrameA) (s : State) : Host.Outcome State Fault Refusal :=
  .next (s.aluF 0x01 a fun _ x y => subFlags x y false)
/-- ADC (R123). -/
def execAdc (a : FrameA) (s : State) : Host.Outcome State Fault Refusal :=
  .next (s.aluF 0x02 a fun s x y => addFlags x y s.cx.cf)
/-- SBC (R123): the borrow-in is 1 - C. -/
def execSbc (a : FrameA) (s : State) : Host.Outcome State Fault Refusal :=
  .next (s.aluF 0x03 a fun s x y => subFlags x y (!s.cx.cf))
/-- AND (R123). -/
def execAnd (a : FrameA) (s : State) : Host.Outcome State Fault Refusal :=
  .next (s.aluF 0x04 a fun _ x y => logicFlags (x &&& y))
/-- OR (R123). -/
def execOr (a : FrameA) (s : State) : Host.Outcome State Fault Refusal :=
  .next (s.aluF 0x05 a fun _ x y => logicFlags (x ||| y))
/-- XOR (R123). -/
def execXor (a : FrameA) (s : State) : Host.Outcome State Fault Refusal :=
  .next (s.aluF 0x06 a fun _ x y => logicFlags (x ^^^ y))
/-- ANDN (R123). -/
def execAndn (a : FrameA) (s : State) : Host.Outcome State Fault Refusal :=
  .next (s.aluF 0x07 a fun _ x y => logicFlags (x &&& ~~~y))
/-- SHL (R123). -/
def execShl (a : FrameA) (s : State) : Host.Outcome State Fault Refusal :=
  .next (s.aluF 0x08 a fun _ x y => shiftFlags .shl x (y.toNat % 64))
/-- SHR (R123). -/
def execShr (a : FrameA) (s : State) : Host.Outcome State Fault Refusal :=
  .next (s.aluF 0x09 a fun _ x y => shiftFlags .shr x (y.toNat % 64))
/-- SAR (R123). -/
def execSar (a : FrameA) (s : State) : Host.Outcome State Fault Refusal :=
  .next (s.aluF 0x0A a fun _ x y => shiftFlags .sar x (y.toNat % 64))
/-- ROR (R123). -/
def execRor (a : FrameA) (s : State) : Host.Outcome State Fault Refusal :=
  .next (s.aluF 0x0B a fun _ x y => shiftFlags .ror x (y.toNat % 64))
/-- SLT (R123). -/
def execSlt (a : FrameA) (s : State) : Host.Outcome State Fault Refusal :=
  .next (s.aluN 0x0C true a fun _ x y => if x.slt y then 1 else 0)
/-- SLTU (R123). -/
def execSltu (a : FrameA) (s : State) : Host.Outcome State Fault Refusal :=
  .next (s.aluN 0x0D true a fun _ x y => if x.ult y then 1 else 0)
/-- MIN (R123). -/
def execMin (a : FrameA) (s : State) : Host.Outcome State Fault Refusal :=
  .next (s.aluN 0x0E true a fun _ x y => if x.slt y then x else y)
/-- MAX (R123). -/
def execMax (a : FrameA) (s : State) : Host.Outcome State Fault Refusal :=
  .next (s.aluN 0x0F true a fun _ x y => if x.slt y then y else x)
/-- MINU (R123). -/
def execMinu (a : FrameA) (s : State) : Host.Outcome State Fault Refusal :=
  .next (s.aluN 0x10 true a fun _ x y => if x.ult y then x else y)
/-- MAXU (R123). -/
def execMaxu (a : FrameA) (s : State) : Host.Outcome State Fault Refusal :=
  .next (s.aluN 0x11 true a fun _ x y => if x.ult y then y else x)

/-- Leading zeros of a word, 0 to 64. -/
def leadingZeros (x : Word) : Nat := if x = 0 then 64 else 63 - Nat.log2 x.toNat

/-- Set bits of a word. -/
def setCount (x : Word) : Nat := ((List.range 64).filter fun i => x.getLsbD i).length

/-- CLZ (R123); rs2 is 0. -/
def execClz (a : FrameA) (s : State) : Host.Outcome State Fault Refusal :=
  .next (s.aluN 0x12 (a.rs2 = 0) a fun _ x _ => BitVec.ofNat 64 (leadingZeros x))
/-- POPC (R123); rs2 is 0. -/
def execPopc (a : FrameA) (s : State) : Host.Outcome State Fault Refusal :=
  .next (s.aluN 0x13 (a.rs2 = 0) a fun _ x _ => BitVec.ofNat 64 (setCount x))
/-- SEL (R123). -/
def execSel (a : FrameA) (s : State) : Host.Outcome State Fault Refusal :=
  .next (s.aluN 0x14 true a fun s x y => if s.cx.p then x else y)

/-! ### Multiply and divide (R112, R115) -/

/-- A 128-bit product is produced; it becomes visible to the third instruction after this one. -/
def State.produce (s : State) (p : Int) : Done :=
  let u := unsigned 128 p
  .next (s.setCx { s.cx with prods := s.cx.prods ++
    [{ age := 0, lo := some (BitVec.ofNat 64 u), hi := some (BitVec.ofNat 64 (u / 2 ^ 64)) }] })

/-- MUL (R112); rd is 0. -/
def execMul (a : FrameA) (s : State) : Host.Outcome State Fault Refusal :=
  .next (s.issue (encA 2 0 0 (a.rd = 0) a) fun s => s.produce ((s.r a.rs1).toInt * (s.r a.rs2).toInt))
/-- MULU (R112); rd is 0. -/
def execMulu (a : FrameA) (s : State) : Host.Outcome State Fault Refusal :=
  .next (s.issue (encA 2 1 0 (a.rd = 0) a) fun s => s.produce ((s.r a.rs1).toNat * (s.r a.rs2).toNat : Nat))

/-- Quotients and remainders, with R115's results for a zero divisor and for -2^63 by -1. -/
def divS (x y : Word) : Word := if y = 0 then BitVec.allOnes 64 else BitVec.ofInt 64 (x.toInt.tdiv y.toInt)
def divU (x y : Word) : Word := if y = 0 then BitVec.allOnes 64 else BitVec.ofNat 64 (x.toNat / y.toNat)
def remS (x y : Word) : Word := if y = 0 then x else BitVec.ofInt 64 (x.toInt.tmod y.toInt)
def remU (x y : Word) : Word := if y = 0 then x else BitVec.ofNat 64 (x.toNat % y.toNat)

/-- DIV (R115). -/
def execDiv (a : FrameA) (s : State) : Host.Outcome State Fault Refusal :=
  .next (s.issue (encA 2 2 0 true a) fun s => s.value a.rd (divS (s.r a.rs1) (s.r a.rs2)))
/-- DIVU (R115). -/
def execDivu (a : FrameA) (s : State) : Host.Outcome State Fault Refusal :=
  .next (s.issue (encA 2 3 0 true a) fun s => s.value a.rd (divU (s.r a.rs1) (s.r a.rs2)))
/-- REM (R115). -/
def execRem (a : FrameA) (s : State) : Host.Outcome State Fault Refusal :=
  .next (s.issue (encA 2 4 0 true a) fun s => s.value a.rd (remS (s.r a.rs1) (s.r a.rs2)))
/-- REMU (R115). -/
def execRemu (a : FrameA) (s : State) : Host.Outcome State Fault Refusal :=
  .next (s.issue (encA 2 5 0 true a) fun s => s.value a.rd (remU (s.r a.rs1) (s.r a.rs2)))

/-! ### Immediates (R118, R122, R123) -/

/-- A frame-B instruction that writes rd and no flag. -/
def State.immN (s : State) (major : Nat) (b : FrameB) (f : Word → Word) : State :=
  s.issue (encB major 0 true b) fun s => s.value b.rd (f (s.r b.rs1))

/-- ADDI, and ADDI.f at major 0x05 (R123). -/
def execAddi (f : Bool) (b : FrameB) (s : State) : Host.Outcome State Fault Refusal :=
  .next (s.issue (encB (if f then 5 else 4) 0 true b) fun s => s.result f b.rd (addFlags (s.r b.rs1) b.simm false))
/-- SUBI.f, and CMPI with rd = 0 (R123). -/
def execSubi (b : FrameB) (s : State) : Host.Outcome State Fault Refusal :=
  .next (s.issue (encB 6 0 true b) fun s => s.result true b.rd (subFlags (s.r b.rs1) b.simm false))
/-- ANDI (R123). -/
def execAndi (b : FrameB) (s : State) : Host.Outcome State Fault Refusal := .next (s.immN 7 b fun x => x &&& b.uimm)
/-- ORI (R123). -/
def execOri (b : FrameB) (s : State) : Host.Outcome State Fault Refusal := .next (s.immN 8 b fun x => x ||| b.uimm)
/-- XORI (R123). -/
def execXori (b : FrameB) (s : State) : Host.Outcome State Fault Refusal := .next (s.immN 9 b fun x => x ^^^ b.uimm)

/-- A shift immediate of a kind (R123). -/
def State.shiftImm (s : State) (k : ShiftKind) (code : Nat) (b : FrameSh) : State :=
  s.issue { parcel := b.parcel code, len := 4, cond := b.cond, legal := b.rsv = 0, level := 0, mx := false }
    fun s => s.result b.f b.rd (shiftFlags k (s.r b.rs1) b.count.toNat)

/-- SHLI (R123). -/
def execShli (b : FrameSh) (s : State) : Host.Outcome State Fault Refusal := .next (s.shiftImm .shl 0 b)
/-- SHRI (R123). -/
def execShri (b : FrameSh) (s : State) : Host.Outcome State Fault Refusal := .next (s.shiftImm .shr 1 b)
/-- SARI (R123). -/
def execSari (b : FrameSh) (s : State) : Host.Outcome State Fault Refusal := .next (s.shiftImm .sar 2 b)
/-- RORI (R123). -/
def execRori (b : FrameSh) (s : State) : Host.Outcome State Fault Refusal := .next (s.shiftImm .ror 3 b)
/-- SLTI (R123). -/
def execSlti (b : FrameB) (s : State) : Host.Outcome State Fault Refusal :=
  .next (s.immN 0x0B b fun x => if x.slt b.simm then 1 else 0)
/-- SLTIU (R118): the sign-extended immediate, compared unsigned. -/
def execSltiu (b : FrameB) (s : State) : Host.Outcome State Fault Refusal :=
  .next (s.immN 0x0C b fun x => if x.ult b.simm then 1 else 0)

/-- The value MOVHn gives rd (R118). -/
def movhValue (e : FrameE) (old : Word) : Word :=
  BitVec.ofNat 64 (setBits (if e.keep then old.toNat else 0) (16 * e.n.toNat) 16 e.imm.toNat)

/-- MOVH0 to MOVH3 (R118). -/
def execMovh (e : FrameE) (s : State) : Host.Outcome State Fault Refusal :=
  .next (s.issue { parcel := e.parcel, len := 4, cond := e.cond, legal := true, level := 0, mx := false }
    fun s => s.value e.rd (movhValue e (s.r e.rd)))

/-- The encoding of LIW and LIWH (R122). -/
def encL (h : Nat) (l : FrameL) : Enc :=
  { parcel := l.parcel h, len := 8, cond := l.cond, legal := l.zero = 0, level := 0, mx := false }

/-- LIW (R122). -/
def execLiw (l : FrameL) (s : State) : Host.Outcome State Fault Refusal :=
  .next (s.issue (encL 0 l) fun s => s.value l.rd (sext l.imm))
/-- LIWH (R122). -/
def execLiwh (l : FrameL) (s : State) : Host.Outcome State Fault Refusal :=
  .next (s.issue (encL 1 l) fun s => s.value l.rd (BitVec.ofNat 64 (setBits (s.r l.rd).toNat 32 32 l.imm.toNat)))

end Sys2Proof.Machine
end

