-- ==== Sys2Proof/Machine/Dispatch.lean ====
section
/-! DEFINITION. One arm per command: the meaning it calls. -/

namespace Sys2Proof.Machine

/-- The effect of a command on everything but the queue. -/
def exec (i : Instr) (s : State) : Host.Outcome State Fault Refusal :=
  match i with
  | .porstNAssert => Sys2Proof.Machine.execPorstNAssert s
  | .porstNRelease st => Sys2Proof.Machine.execPorstNRelease st s
  | .fuseImage bytes => Sys2Proof.Machine.execFuseImage bytes s
  | .fuseTimeout => Sys2Proof.Machine.execFuseTimeout s
  | .pllRefLoss => Sys2Proof.Machine.execPllRefLoss s
  | .routerReady => Sys2Proof.Machine.execRouterReady s
  | .creditReturn p vc => Sys2Proof.Machine.execCreditReturn p vc s
  | .wakeIn w => Sys2Proof.Machine.execWakeIn w s
  | .coord a => Sys2Proof.Machine.execCoord a s
  | .coordTimeout => Sys2Proof.Machine.execCoordTimeout s
  | .enum a => Sys2Proof.Machine.execEnum a s
  | .memReady => Sys2Proof.Machine.execMemReady s
  | .idBootGo w => Sys2Proof.Machine.execIdBootGo w s
  | .measurementDone => Sys2Proof.Machine.execMeasurementDone s
  | .idDescSelWrite w => Sys2Proof.Machine.execIdDescSelWrite w s
  | .nodeRstN ticks => Sys2Proof.Machine.execNodeRstN ticks s
  | .nodeDomainReset => Sys2Proof.Machine.execNodeDomainReset s
  | .nodeResetRelease => Sys2Proof.Machine.execNodeResetRelease s
  | .pwrWarn ns => Sys2Proof.Machine.execPwrWarn ns s
  | .floorExit => Sys2Proof.Machine.execFloorExit s
  | .testModeRise => Sys2Proof.Machine.execTestModeRise s
  | .testAccess t => Sys2Proof.Machine.execTestAccess t s
  | .mbistRun arr cols => Sys2Proof.Machine.execMbistRun arr cols s
  | .add a => Sys2Proof.Machine.execAdd a s
  | .sub a => Sys2Proof.Machine.execSub a s
  | .adc a => Sys2Proof.Machine.execAdc a s
  | .sbc a => Sys2Proof.Machine.execSbc a s
  | .and a => Sys2Proof.Machine.execAnd a s
  | .or a => Sys2Proof.Machine.execOr a s
  | .xor a => Sys2Proof.Machine.execXor a s
  | .andn a => Sys2Proof.Machine.execAndn a s
  | .shl a => Sys2Proof.Machine.execShl a s
  | .shr a => Sys2Proof.Machine.execShr a s
  | .sar a => Sys2Proof.Machine.execSar a s
  | .ror a => Sys2Proof.Machine.execRor a s
  | .slt a => Sys2Proof.Machine.execSlt a s
  | .sltu a => Sys2Proof.Machine.execSltu a s
  | .min a => Sys2Proof.Machine.execMin a s
  | .max a => Sys2Proof.Machine.execMax a s
  | .minu a => Sys2Proof.Machine.execMinu a s
  | .maxu a => Sys2Proof.Machine.execMaxu a s
  | .clz a => Sys2Proof.Machine.execClz a s
  | .popc a => Sys2Proof.Machine.execPopc a s
  | .sel a => Sys2Proof.Machine.execSel a s
  | .mul a => Sys2Proof.Machine.execMul a s
  | .mulu a => Sys2Proof.Machine.execMulu a s
  | .div a => Sys2Proof.Machine.execDiv a s
  | .divu a => Sys2Proof.Machine.execDivu a s
  | .rem a => Sys2Proof.Machine.execRem a s
  | .remu a => Sys2Proof.Machine.execRemu a s
  | .addi f b => Sys2Proof.Machine.execAddi f b s
  | .subi b => Sys2Proof.Machine.execSubi b s
  | .andi b => Sys2Proof.Machine.execAndi b s
  | .ori b => Sys2Proof.Machine.execOri b s
  | .xori b => Sys2Proof.Machine.execXori b s
  | .shli b => Sys2Proof.Machine.execShli b s
  | .shri b => Sys2Proof.Machine.execShri b s
  | .sari b => Sys2Proof.Machine.execSari b s
  | .rori b => Sys2Proof.Machine.execRori b s
  | .slti b => Sys2Proof.Machine.execSlti b s
  | .sltiu b => Sys2Proof.Machine.execSltiu b s
  | .movh e => Sys2Proof.Machine.execMovh e s
  | .liw l => Sys2Proof.Machine.execLiw l s
  | .liwh l => Sys2Proof.Machine.execLiwh l s
  | .lb b => Sys2Proof.Machine.execLb b s
  | .lbu b => Sys2Proof.Machine.execLbu b s
  | .lh b => Sys2Proof.Machine.execLh b s
  | .lhu b => Sys2Proof.Machine.execLhu b s
  | .lw b => Sys2Proof.Machine.execLw b s
  | .lwu b => Sys2Proof.Machine.execLwu b s
  | .ld b => Sys2Proof.Machine.execLd b s
  | .sb b => Sys2Proof.Machine.execSb b s
  | .sh b => Sys2Proof.Machine.execSh b s
  | .sw b => Sys2Proof.Machine.execSw b s
  | .st b => Sys2Proof.Machine.execSt b s
  | .aadd a => Sys2Proof.Machine.execAadd a s
  | .acas a => Sys2Proof.Machine.execAcas a s
  | .b c => Sys2Proof.Machine.execB c s
  | .j d => Sys2Proof.Machine.execJ d s
  | .call d => Sys2Proof.Machine.execCall d s
  | .callr b => Sys2Proof.Machine.execCallr b s
  | .jr b => Sys2Proof.Machine.execJr b s
  | .ret d => Sys2Proof.Machine.execRet d s
  | .pset c => Sys2Proof.Machine.execPset c s
  | .sysc b => Sys2Proof.Machine.execSysc b s
  | .nop a => Sys2Proof.Machine.execNop a s
  | .eret a => Sys2Proof.Machine.execEret a s
  | .cswitch a => Sys2Proof.Machine.execCswitch a s
  | .wfe a => Sys2Proof.Machine.execWfe a s
  | .wfeWake => Sys2Proof.Machine.execWfeWake s
  | .brk a => Sys2Proof.Machine.execBrk a s
  | .isync a => Sys2Proof.Machine.execIsync a s
  | .fence a => Sys2Proof.Machine.execFence a s
  | .movs b => Sys2Proof.Machine.execMovs b s
  | .movc b => Sys2Proof.Machine.execMovc b s
  | .rdepthWrite b => Sys2Proof.Machine.execRdepthWrite b s
  | .ctxctlWrite b => Sys2Proof.Machine.execCtxctlWrite b s
  | .ctxstart b => Sys2Proof.Machine.execCtxstart b s
  | .tcfgWrite b => Sys2Proof.Machine.execTcfgWrite b s
  | .save b => Sys2Proof.Machine.execSave b s
  | .discard b => Sys2Proof.Machine.execDiscard b s
  | .handover b => Sys2Proof.Machine.execHandover b s
  | .spill b => Sys2Proof.Machine.execSpill b s
  | .fill b => Sys2Proof.Machine.execFill b s
  | .erase b => Sys2Proof.Machine.execErase b s
  | .chestOperationDone => Sys2Proof.Machine.execChestOperationDone s
  | .send a => Sys2Proof.Machine.execSend a s
  | .recv a => Sys2Proof.Machine.execRecv a s
  | .wspill a => Sys2Proof.Machine.execWspill a s
  | .wfill a => Sys2Proof.Machine.execWfill a s
  | .rspill a => Sys2Proof.Machine.execRspill a s
  | .rfill a => Sys2Proof.Machine.execRfill a s
  | .lmclaim a => Sys2Proof.Machine.execLmclaim a s
  | .lmclaima a => Sys2Proof.Machine.execLmclaima a s
  | .lmrel a => Sys2Proof.Machine.execLmrel a s
  | .dinvl b => Sys2Proof.Machine.execDinvl b s
  | .iinvl b => Sys2Proof.Machine.execIinvl b s
  | .dinva b => Sys2Proof.Machine.execDinva b s
  | .iinva b => Sys2Proof.Machine.execIinva b s
  | .mbput a => Sys2Proof.Machine.execMbput a s
  | .asyncEntry => Sys2Proof.Machine.execAsyncEntry s
  | .preempt => Sys2Proof.Machine.execPreempt s
  | .vadd a => Sys2Proof.Machine.execVadd a s
  | .vsub a => Sys2Proof.Machine.execVsub a s
  | .vmul a => Sys2Proof.Machine.execVmul a s
  | .vmin a => Sys2Proof.Machine.execVmin a s
  | .vmax a => Sys2Proof.Machine.execVmax a s
  | .vand a => Sys2Proof.Machine.execVand a s
  | .vor a => Sys2Proof.Machine.execVor a s
  | .vxor a => Sys2Proof.Machine.execVxor a s
  | .vshl a => Sys2Proof.Machine.execVshl a s
  | .vshr a => Sys2Proof.Machine.execVshr a s
  | .vsar a => Sys2Proof.Machine.execVsar a s
  | .vcmpeq a => Sys2Proof.Machine.execVcmpeq a s
  | .vcmplt a => Sys2Proof.Machine.execVcmplt a s
  | .vcmple a => Sys2Proof.Machine.execVcmple a s
  | .vadds a => Sys2Proof.Machine.execVadds a s
  | .vfma a => Sys2Proof.Machine.execVfma a s
  | .vfnma a => Sys2Proof.Machine.execVfnma a s
  | .vsel a => Sys2Proof.Machine.execVsel a s
  | .vmov a => Sys2Proof.Machine.execVmov a s
  | .vneg a => Sys2Proof.Machine.execVneg a s
  | .vabs a => Sys2Proof.Machine.execVabs a s
  | .vexp2 a => Sys2Proof.Machine.execVexp2 a s
  | .vrcp a => Sys2Proof.Machine.execVrcp a s
  | .vredsum a => Sys2Proof.Machine.execVredsum a s
  | .vredmax a => Sys2Proof.Machine.execVredmax a s
  | .vredmin a => Sys2Proof.Machine.execVredmin a s
  | .vbcast a => Sys2Proof.Machine.execVbcast a s
  | .vget a => Sys2Proof.Machine.execVget a s
  | .vld a => Sys2Proof.Machine.execVld a s
  | .vst a => Sys2Proof.Machine.execVst a s
  | .vgather a => Sys2Proof.Machine.execVgather a s
  | .vscatter a => Sys2Proof.Machine.execVscatter a s
  | .vcvt a => Sys2Proof.Machine.execVcvt a s
  | .vwid6 a => Sys2Proof.Machine.execVwid6 a s
  | .vqmx a => Sys2Proof.Machine.execVqmx a s
  | .vtrd a => Sys2Proof.Machine.execVtrd a s
  | .vtwr a => Sys2Proof.Machine.execVtwr a s
  | .tld m => Sys2Proof.Machine.execTld m s
  | .tst m => Sys2Proof.Machine.execTst m s
  | .tzero m => Sys2Proof.Machine.execTzero m s
  | .mz m => Sys2Proof.Machine.execMz m s
  | .mma m => Sys2Proof.Machine.execMma m s
  | .mmas m => Sys2Proof.Machine.execMmas m s
  | .mdrain m => Sys2Proof.Machine.execMdrain m s
  | .mdrainCopy => Sys2Proof.Machine.execMdrainCopy s
  | .mdrainComplete => Sys2Proof.Machine.execMdrainComplete s
  | .msave m => Sys2Proof.Machine.execMsave m s
  | .mrest m => Sys2Proof.Machine.execMrest m s
  | .mhclr m => Sys2Proof.Machine.execMhclr m s
  | .eccWriteback word => Sys2Proof.Machine.execEccWriteback word s
  | .scrubBlock => Sys2Proof.Machine.execScrubBlock s
  | .read a => Sys2Proof.Machine.execRead a s
  | .readData a => Sys2Proof.Machine.execReadData a s
  | .write a => Sys2Proof.Machine.execWrite a s
  | .writeAck a => Sys2Proof.Machine.execWriteAck a s
  | .atomic a => Sys2Proof.Machine.execAtomic a s
  | .doorbell a => Sys2Proof.Machine.execDoorbell a s
  | .doorbellApply => Sys2Proof.Machine.execDoorbellApply s
  | .msg a => Sys2Proof.Machine.execMsg a s
  | .msgDropped a => Sys2Proof.Machine.execMsgDropped a s
  | .fenced a => Sys2Proof.Machine.execFenced a s
  | .fenceCmd a => Sys2Proof.Machine.execFenceCmd a s
  | .mcWrite a => Sys2Proof.Machine.execMcWrite a s
  | .mcDrop a => Sys2Proof.Machine.execMcDrop a s
  | .mcBranchHoldExpiry p => Sys2Proof.Machine.execMcBranchHoldExpiry p s
  | .packetSend p => Sys2Proof.Machine.execPacketSend p s
  | .ply a => Sys2Proof.Machine.execPly a s
  | .plyTimeout entry inst => Sys2Proof.Machine.execPlyTimeout entry inst s
  | .dupEntryExpiry => Sys2Proof.Machine.execDupEntryExpiry s
  | .skein a => Sys2Proof.Machine.execSkein a s
  | .budget a => Sys2Proof.Machine.execBudget a s
  | .faultReport a => Sys2Proof.Machine.execFaultReport a s
  | .faultReportSend => Sys2Proof.Machine.execFaultReportSend s
  | .frameSend p => Sys2Proof.Machine.execFrameSend p s
  | .dataFrame p rx => Sys2Proof.Machine.execDataFrame p rx s
  | .nullFrame p rx => Sys2Proof.Machine.execNullFrame p rx s
  | .capFrame p rx => Sys2Proof.Machine.execCapFrame p rx s
  | .detachFrame p rx => Sys2Proof.Machine.execDetachFrame p rx s
  | .alignWord p rx => Sys2Proof.Machine.execAlignWord p rx s
  | .nakTimerExpiry p => Sys2Proof.Machine.execNakTimerExpiry p s
  | .replayTimerExpiry p => Sys2Proof.Machine.execReplayTimerExpiry p s
  | .rettoExpiry p => Sys2Proof.Machine.execRettoExpiry p s
  | .errorWindowEnd p => Sys2Proof.Machine.execErrorWindowEnd p s
  | .fecUncorrectable p lane => Sys2Proof.Machine.execFecUncorrectable p lane s
  | .fecCorrected p lane count => Sys2Proof.Machine.execFecCorrected p lane count s
  | .laneHealthLoss p lstat => Sys2Proof.Machine.execLaneHealthLoss p lstat s
  | .linkResetDone p => Sys2Proof.Machine.execLinkResetDone p s
  | .phyHealthy p lstat => Sys2Proof.Machine.execPhyHealthy p lstat s
  | .alignTimeout p => Sys2Proof.Machine.execAlignTimeout p s
  | .capTimeout p => Sys2Proof.Machine.execCapTimeout p s
  | .retrainTimeout p => Sys2Proof.Machine.execRetrainTimeout p s
  | .detachedDone p => Sys2Proof.Machine.execDetachedDone p s
  | .widthChangeTimeout p => Sys2Proof.Machine.execWidthChangeTimeout p s
  | .lnkCtlEn p w => Sys2Proof.Machine.execLnkCtlEn p w s
  | .rearm p w => Sys2Proof.Machine.execRearm p w s
  | .retire p w => Sys2Proof.Machine.execRetire p w s
  | .descriptorFetch ring => Sys2Proof.Machine.execDescriptorFetch ring s
  | .descNop ring => Sys2Proof.Machine.execDescNop ring s
  | .descKernel ring => Sys2Proof.Machine.execDescKernel ring s
  | .descDma ring => Sys2Proof.Machine.execDescDma ring s
  | .descReshard ring => Sys2Proof.Machine.execDescReshard ring s
  | .descMulticast ring => Sys2Proof.Machine.execDescMulticast ring s
  | .descPly ring => Sys2Proof.Machine.execDescPly ring s
  | .descBarrier ring => Sys2Proof.Machine.execDescBarrier ring s
  | .descSkein ring => Sys2Proof.Machine.execDescSkein ring s
  | .descriptorComplete ring => Sys2Proof.Machine.execDescriptorComplete ring s
  | .watchdog ring => Sys2Proof.Machine.execWatchdog ring s
  | .qeKdone c w => Sys2Proof.Machine.execQeKdone c w s
  | .kslotTaken c w => Sys2Proof.Machine.execKslotTaken c w s
  | .qeCqpop c r => Sys2Proof.Machine.execQeCqpop c r s
  | .qeMboxAck w => Sys2Proof.Machine.execQeMboxAck w s
  | .ringEnable ring w => Sys2Proof.Machine.execRingEnable ring w s
  | .ringDisable ring w => Sys2Proof.Machine.execRingDisable ring w s
  | .tailWrite ring w => Sys2Proof.Machine.execTailWrite ring w s
  | .fifoStale q => Sys2Proof.Machine.execFifoStale q s
  | .aonTick e => Sys2Proof.Machine.execAonTick e s
  | .oppChangeDone => Sys2Proof.Machine.execOppChangeDone s
  | .droopDetect sensed => Sys2Proof.Machine.execDroopDetect sensed s
  | .droopEnd => Sys2Proof.Machine.execDroopEnd s
  | .ldoFault sensed overcurrent => Sys2Proof.Machine.execLdoFault sensed overcurrent s
  | .thermalSample t0 t1 => Sys2Proof.Machine.execThermalSample t0 t1 s
  | .n2Entry => Sys2Proof.Machine.execN2Entry s
  | .n2Wake => Sys2Proof.Machine.execN2Wake s
  | .pscmdN3 w => Sys2Proof.Machine.execPscmdN3 w s
  | .pscmdN4 w => Sys2Proof.Machine.execPscmdN4 w s
  | .pscmdWithdraw w => Sys2Proof.Machine.execPscmdWithdraw w s
  | .deepSleepEntry => Sys2Proof.Machine.execDeepSleepEntry s
  | .spnWakeGo w => Sys2Proof.Machine.execSpnWakeGo w s
  | .deepWake => Sys2Proof.Machine.execDeepWake s
  | .meshIdle => Sys2Proof.Machine.execMeshIdle s
  | .comparatorMatch n => Sys2Proof.Machine.execComparatorMatch n s
  | .cmpValWrite k w => Sys2Proof.Machine.execCmpValWrite k w s
  | .epochEnd => Sys2Proof.Machine.execEpochEnd s
  | .spnEpochWrite w => Sys2Proof.Machine.execSpnEpochWrite w s
  | .fltNrst w => Sys2Proof.Machine.execFltNrst w s
  | .fltRxpop w => Sys2Proof.Machine.execFltRxpop w s
  | .secKeyWrite c j w => Sys2Proof.Machine.execSecKeyWrite c j w s
  | .secKeyclr w => Sys2Proof.Machine.execSecKeyclr w s
  | .secExtgo w => Sys2Proof.Machine.execSecExtgo w s
  | .extensionDone => Sys2Proof.Machine.execExtensionDone s
  | .secDbgctlWrite w => Sys2Proof.Machine.execSecDbgctlWrite w s
  | .secFckeyWrite j w => Sys2Proof.Machine.execSecFckeyWrite j w s
  | .secFcclr w => Sys2Proof.Machine.execSecFcclr w s
  | .obsSwtrig w => Sys2Proof.Machine.execObsSwtrig w s
  | .monitorClr k w => Sys2Proof.Machine.execMonitorClr k w s
  | .rcRead r off => Sys2Proof.Machine.execRcRead r off s
  | .registerWrite off w => Sys2Proof.Machine.execRegisterWrite off w s
  | .portDrainingEnd p => Sys2Proof.Machine.execPortDrainingEnd p s

end Sys2Proof.Machine
end

