-- ==== Sys2Proof/Machine/Step.lean ====
section
/-! DEFINITION. One step: the command at the front of the queue (assumption 1). -/

namespace Sys2Proof.Machine

/-- The command at the front, on the node with the queue's rest; an empty queue leaves the node as it is.
DESIGN CHOICE (assumption 1). DESIGN CHOICE (assumption 2). -/
def step (s : State) : Host.Outcome State Fault Refusal :=
  match s.pending with
  | [] => .next s
  | c :: r => exec c { s with pending := r }

/-- The command a table word spells, put at the front of the queue. DESIGN CHOICE (assumption 2). -/
def State.withFetchWord (s : State) (nbits w : Nat) : State :=
  match decodeTableWord nbits w with
  | some c => { s with pending := c :: s.pending }
  | none => s

end Sys2Proof.Machine
end

