-- ==== Sys2Proof/WellFormed.lean ====
section
/-! DEFINITION. Which commands a port or an encoding of the node can carry. Every other check the spec makes on a command is
the machine's. -/

namespace Sys2Proof

/-- A packet as R320 sends it: LEN names its payload. Of a packet whose LEN is above 256 no payload is known (R324). -/
def Packet.wf (p : Packet) : Bool := p.payload.length = p.len.toNat || 256 < p.len.toNat

/-- A PHY cycle brings something or nothing on each of the four lanes (R51). -/
def cycleWf (rx : List LaneWord) : Bool := rx.length = 4

/-- A command that the hardware can be given. DESIGN CHOICE (assumption 11). -/
def Instr.wf : Instr → Bool
  | .fuseImage bytes => bytes.length = 256
  | .coord x | .enum x | .read x | .readData x | .write x | .writeAck x | .atomic x | .doorbell x | .msg x
  | .msgDropped x | .fenced x | .fenceCmd x | .mcWrite x | .mcDrop x | .ply x | .skein x | .budget x
  | .faultReport x => x.pkt.wf
  | .dataFrame _ f | .nullFrame _ f | .capFrame _ f | .detachFrame _ f => f.all cycleWf
  | .alignWord _ f => cycleWf f
  | _ => true

end Sys2Proof
end

