-- ==== Sys2Proof/Safety.lean ====
section
/-! DEFINITION. The words in which claims are stated: what every step keeps, when an instruction runs, what its completion
leaves alone, and when the router has nothing to do. -/

namespace Sys2Proof.Machine

/-- Every waiting command is well formed. -/
def State.queueWf (s : State) : Prop := ∀ c ∈ s.pending, c.wf = true

/-- The canonical form of memory and registers: equal contents are equal data. -/
def State.canonical (s : State) : Prop := Mem.wf s.mem ∧ twf regReset s.ctrl = true ∧ twf (fun _ => EccMark.good) s.ecc = true

/-- The canonical form, and no FIFO of the ingress above its capacity: the doorbell FIFO (R384), the IMQ (R413) and the
completion FIFOs (R411). -/
def State.Inv (s : State) : Prop :=
  s.canonical ∧ s.qe.db.length ≤ 32 ∧ s.qe.imq.length ≤ 128 ∧ s.qe.cq0.length ≤ 32 ∧ s.qe.cq1.length ≤ 32

/-! ### What is left alone -/

/-- Two nodes that differ at most in the OBS_ registers, where events are counted and samples taken, in how many free values
have been used, in the activity counters of R436, and, where OBS_TRIG.BCAST is set, in the SKEINs that monitors' triggers have put on L (R478,
R482). -/
structure Like (u t : State) : Prop where
  pending : t.pending = u.pending
  pins : t.pins = u.pins
  up : t.up = u.up
  reg : ∀ off, off / 0x10000 ≠ 8 → off ≠ F.rtrSeq.off → t.reg off = u.reg off
  seq : u.is F.trigBcast = false → t.reg F.rtrSeq.off = u.reg F.rtrSeq.off
  bcast : t.is F.trigBcast = u.is F.trigBcast
  core : t.core = u.core
  mx : t.mx = u.mx
  mem : ∀ a, t.mem.byte a = u.mem.byte a
  ecc : t.ecc = u.ecc
  cache : t.cache = u.cache
  rtr : { t.rtr with inq := u.rtr.inq } = u.rtr
  skein : ∃ l, t.rtr.inq = u.rtr.inq ++ l ∧ (u.is F.trigBcast = false → l = []) ∧ ∀ e ∈ l, e.1 = .l ∧ e.2.1.ty = 0x0E
  links : t.lnkN = u.lnkN ∧ t.lnkE = u.lnkE ∧ t.lnkS = u.lnkS ∧ t.lnkW = u.lnkW
  qe : t.qe = u.qe
  spn : t.spn = u.spn
  fltRx : t.fltRx = u.fltRx ∧ t.fltRxLast = u.fltRxLast

/-- `t` is `u` after an instruction of its issuing context has retired with control going to `pc`: the context has aged by
one instruction (R112), and nothing else has changed. -/
def Retired (u t : State) (pc : Word) : Prop :=
  Like (u.setCx { u.cx.age with pc := pc, afterEret := false }) t

/-! ### When an instruction runs -/

/-- The core issues, and a Chest operation does not keep a matrix or vector instruction waiting (R162, R174). -/
def Issues (s : State) (e : Enc) : Prop := s.canIssue = true ∧ (e.mx = true → s.core.chestOp = none)

/-- An instruction comes to its own effect: issued, fetched, its parcels there, legal, privileged and not skipped (R109, R116, R120,
R137, R212). -/
structure Runs (s : State) (e : Enc) : Prop where
  issues : Issues s e
  fetched : (s.begun e.len).fetchCause e = none
  here : (s.begun e.len).fetchMiss e = none
  legal : e.legal = true
  level : e.level ≤ (s.begun e.len).cx.pl.toNat
  cond : (s.begun e.len).cx.cond e.cond = true

/-- An instruction of 4 bytes answers by making `y` its context's state, with control going to `pc`, and changes nothing else. -/
def Answers (i : Instr) (s : State) (y : Ctx) (pc : Word) : Prop :=
  ∃ t, exec i s = .next t ∧ Retired (s.begun.setCx y) t pc

/-- An instruction completes, leaves the node as `u`, and the next one follows `n` bytes on. -/
def Completes (i : Instr) (s u : State) (n : Nat) : Prop :=
  ∃ t, exec i s = .next t ∧ Retired u t (s.begun.cx.pc + BitVec.ofNat 64 n)

/-- An instruction raises a synchronous cause, saved PC its own address. -/
def Raises (i : Instr) (s : State) (e : Enc) (c : Nat) (a : Word) : Prop :=
  exec i s = .next (((s.begun e.len).raise c a s.begun.cx.pc (BitVec.ofNat 32 e.parcel)).taken)

/-- The issuing context may load and store `n` naturally aligned bytes at `a`, which lie in the node's own local memory or on
the Bench at offset `off`, and their check bits are good (R32, R124, R149, R189, R194). -/
def LocalAt (s : State) (a : Word) (n off : Nat) : Prop :=
  a.toNat % n = 0 ∧ (∀ w ∈ eccWords off n, s.eccOf w = .good) ∧
    ((s.place a = .lm off ∧ s.pageOk s.core.cur s.cx.pl.toNat (pageOf off) = true) ∨ (s.place a = .bench off ∧ s.cx.pl = 2))

/-- The issuing context may load and store at `a`, which is offset `off` of the node's own local memory, or of the Bench at M (R149,
R194). -/
def MayAt (s : State) (a : Word) (off : Nat) : Prop :=
  (s.place a = .lm off ∧ s.pageOk s.core.cur s.cx.pl.toNat (pageOf off) = true) ∨ (s.place a = .bench off ∧ s.cx.pl = 2)

/-- R31, R149, R194: a load or store of the issuing context at `a` is refused. -/
def RefusedAt (s : State) (a : Word) : Prop :=
  s.place a = .bad ∨ (∃ off, s.place a = .lm off ∧ s.pageOk s.core.cur s.cx.pl.toNat (pageOf off) = false)
    ∨ (∃ off, s.place a = .bench off ∧ s.cx.pl ≠ 2)

/-- `t` is `u` with memory and ECC words the bytes `d` at `off` have been stored into, and an instruction retired. -/
def Stored (u t : State) (off : Nat) (d : List Byte) (pc : Word) : Prop :=
  ∃ m e, (∀ a, Mem.byte m a = if off ≤ a ∧ a < off + d.length then d.getD (a - off) 0 else u.mem.byte a)
    ∧ (∀ w, tget EccMark.good e w = if w ∈ eccWords off d.length then .good else u.eccOf w)
    ∧ Retired { u with mem := m, ecc := e } t pc

/-- rd receives `r`; under `f` the flags are those of R107, with carry `c` and overflow `v`. -/
def Ctx.answer (x : Ctx) (f : Bool) (rd : BitVec 5) (r : Word) (c v : Bool) : Ctx :=
  if f then { x.wr rd r with n := r.msb, z := decide (r = 0), cf := c, v := v } else x.wr rd r

end Sys2Proof.Machine

namespace Sys2Proof

open Machine

/-- The encoding of an instruction command, from the encoding tables of R123, R172, R248 to R253, R304 and R305: none for
a command that is not an instruction. -/
def Instr.enc : Instr → Option Enc
  | .add a => some (encF 1 0x00 a)
  | .sub a => some (encF 1 0x01 a)
  | .adc a => some (encF 1 0x02 a)
  | .sbc a => some (encF 1 0x03 a)
  | .and a => some (encF 1 0x04 a)
  | .or a => some (encF 1 0x05 a)
  | .xor a => some (encF 1 0x06 a)
  | .andn a => some (encF 1 0x07 a)
  | .shl a => some (encF 1 0x08 a)
  | .shr a => some (encF 1 0x09 a)
  | .sar a => some (encF 1 0x0A a)
  | .ror a => some (encF 1 0x0B a)
  | .slt a => some (encA 1 0x0C 0 true a)
  | .sltu a => some (encA 1 0x0D 0 true a)
  | .min a => some (encA 1 0x0E 0 true a)
  | .max a => some (encA 1 0x0F 0 true a)
  | .minu a => some (encA 1 0x10 0 true a)
  | .maxu a => some (encA 1 0x11 0 true a)
  | .clz a => some (encA 1 0x12 0 (a.rs2 = 0) a)
  | .popc a => some (encA 1 0x13 0 (a.rs2 = 0) a)
  | .sel a => some (encA 1 0x14 0 true a)
  | .mul a => some (encA 2 0 0 (a.rd = 0) a)
  | .mulu a => some (encA 2 1 0 (a.rd = 0) a)
  | .div a => some (encA 2 2 0 true a)
  | .divu a => some (encA 2 3 0 true a)
  | .rem a => some (encA 2 4 0 true a)
  | .remu a => some (encA 2 5 0 true a)
  | .addi f w => some (encB (if f then 5 else 4) 0 true w)
  | .subi w => some (encB 6 0 true w)
  | .andi w => some (encB 7 0 true w)
  | .ori w => some (encB 8 0 true w)
  | .xori w => some (encB 9 0 true w)
  | .shli w => some { parcel := w.parcel 0, len := 4, cond := w.cond, legal := w.rsv = 0, level := 0, mx := false }
  | .shri w => some { parcel := w.parcel 1, len := 4, cond := w.cond, legal := w.rsv = 0, level := 0, mx := false }
  | .sari w => some { parcel := w.parcel 2, len := 4, cond := w.cond, legal := w.rsv = 0, level := 0, mx := false }
  | .rori w => some { parcel := w.parcel 3, len := 4, cond := w.cond, legal := w.rsv = 0, level := 0, mx := false }
  | .slti w => some (encB 0x0B 0 true w)
  | .sltiu w => some (encB 0x0C 0 true w)
  | .movh e => some { parcel := e.parcel, len := 4, cond := e.cond, legal := true, level := 0, mx := false }
  | .liw l => some (encL 0 l)
  | .liwh l => some (encL 1 l)
  | .lb w => some (encB 0x18 0 true w)
  | .lbu w => some (encB 0x19 0 true w)
  | .lh w => some (encB 0x1A 0 true w)
  | .lhu w => some (encB 0x1B 0 true w)
  | .lw w => some (encB 0x1C 0 true w)
  | .lwu w => some (encB 0x1D 0 true w)
  | .ld w => some (encB 0x1E 0 true w)
  | .sb w => some (encB 0x20 0 true w)
  | .sh w => some (encB 0x21 0 true w)
  | .sw w => some (encB 0x22 0 true w)
  | .st w => some (encB 0x23 0 true w)
  | .aadd a => some (encA 0x28 0 0 true a)
  | .acas a => some (encA 0x28 1 0 true a)
  | .b c => some { parcel := c.parcel 0x30, len := 4, cond := 0, legal := c.cond = 0 && decide (c.cc.toNat < 0xC), level := 0, mx := false }
  | .j d => some (encD 0x31 true d)
  | .call d => some (encD 0x32 true d)
  | .jr w => some (encB 0x33 0 (w.rd = 0) w)
  | .callr w => some (encB 0x34 0 (w.rd = 0) w)
  | .ret d => some (encD 0x35 (d.off = 0) d)
  | .pset c => some { parcel := c.parcel 0x36, len := 4, cond := c.cond, legal := c.cc ≠ 0xD && c.off = 0, level := 0, mx := false }
  | .sysc w => some (encB 0x38 0 (w.rd = 0 && w.rs1 = 0) w)
  | .nop (.nop a) => some (encA 0x39 0 0 (a.rd = 0 && a.rs1 = 0 && a.rs2 = 0) a)
  | .nop (.other p) => if wordNamed p.toNat then none else some (unnamedEnc p.toNat)
  | .eret a => some (encA 0x39 1 1 true a)
  | .cswitch a => some (encA 0x39 2 1 true a)
  | .wfe a => some (encA 0x39 3 0 true a)
  | .brk a => some (encA 0x39 4 0 true a)
  | .isync a => some (encA 0x39 5 0 true a)
  | .fence a => some (encA 0x39 6 0 true a)
  | .movs w => some (encS 0x3A w.imm.toNat false true w)
  | .movc w => some (encS 0x3B w.imm.toNat true (w.rs1 = 0) w)
  | .rdepthWrite w => some (encS 0x3B 0x012 true (w.rs1 = 0) { w with imm := 0x012 })
  | .ctxctlWrite w => some (encS 0x3B 0x200 true (w.rs1 = 0) { w with imm := 0x200 })
  | .ctxstart w => some (encS 0x3B 0x201 true (w.rs1 = 0) { w with imm := 0x201 })
  | .tcfgWrite w => some (encS 0x3B 0x310 true (w.rs1 = 0) { w with imm := 0x310 })
  | .save w | .discard w | .handover w | .spill w | .fill w | .erase w => some (encS 0x3B 0x212 true (w.rs1 = 0) { w with imm := 0x212 })
  | .send a => some { parcel := a.parcel, len := 4, cond := a.cond, level := 0, mx := false,
                      legal := a.rsv = 0 && decide (a.rd.toNat + (a.lenm1.toNat + 1) ≤ 32) }
  | .recv a => some { encF 0x3D 0 a with legal := a.rs1 = 0 && a.rs2 = 0 && decide (a.rd.toNat + 5 ≤ 31) }
  | .wspill a => some (encA 0x3E 0 1 (a.rd = 0 && a.rs1 = 0 && a.rs2 = 0) a)
  | .wfill a => some (encA 0x3E 1 1 (a.rd = 0 && a.rs1 = 0 && a.rs2 = 0) a)
  | .rspill a => some (encA 0x3E 2 1 (a.rd = 0 && a.rs1 = 0 && a.rs2 = 0) a)
  | .rfill a => some (encA 0x3E 3 1 (a.rd = 0 && a.rs1 = 0 && a.rs2 = 0) a)
  | .lmclaim a => some (encA 0x40 0 1 (a.rs2 = 0) a)
  | .lmclaima a => some (encA 0x40 1 1 (a.rs2 = 0 && a.rs1 = 0) a)
  | .lmrel a => some (encA 0x40 2 1 (a.rs2 = 0) a)
  | .dinvl w => some (encB 0x41 0 (w.rd.toNat = 0) w)
  | .iinvl w => some (encB 0x41 0 (w.rd.toNat = 1) w)
  | .dinva w => some (encB 0x41 1 (w.rd.toNat = 2) w)
  | .iinva w => some (encB 0x41 1 (w.rd.toNat = 3) w)
  | .mbput a => some (encA 0x42 0 1 true a)
  | .vadd a => some (encV 0x60 0x00 true a)
  | .vsub a => some (encV 0x60 0x01 true a)
  | .vmul a => some (encV 0x60 0x02 true a)
  | .vmin a => some (encV 0x60 0x03 true a)
  | .vmax a => some (encV 0x60 0x04 true a)
  | .vand a => some (encV 0x60 0x05 (a.t.toNat < 2) a)
  | .vor a => some (encV 0x60 0x06 (a.t.toNat < 2) a)
  | .vxor a => some (encV 0x60 0x07 (a.t.toNat < 2) a)
  | .vshl a => some (encV 0x60 0x08 (a.t.toNat < 2) a)
  | .vshr a => some (encV 0x60 0x09 (a.t.toNat < 2) a)
  | .vsar a => some (encV 0x60 0x0A (a.t.toNat < 2) a)
  | .vcmpeq a => some (encV 0x60 0x0B true a)
  | .vcmplt a => some (encV 0x60 0x0C true a)
  | .vcmple a => some (encV 0x60 0x0D true a)
  | .vadds a => some (encV 0x60 0x0E (a.t.toNat < 2) a)
  | .vfma a => some (encV 0x61 0x00 true a)
  | .vfnma a => some (encV 0x61 0x01 true a)
  | .vsel a => some (encV 0x61 0x02 (a.t = 0) a)
  | .vmov a => some (encV 0x62 0x00 (a.vb = 0) a)
  | .vneg a => some (encV 0x62 0x01 (a.vb = 0) a)
  | .vabs a => some (encV 0x62 0x02 (a.vb = 0) a)
  | .vexp2 a => some (encV 0x62 0x03 (decide (2 ≤ a.t.toNat) && a.vb = 0) a)
  | .vrcp a => some (encV 0x62 0x04 (decide (2 ≤ a.t.toNat) && a.vb = 0) a)
  | .vredsum a => some (encV 0x62 0x05 (a.vb = 0) a)
  | .vredmax a => some (encV 0x62 0x06 (a.vb = 0) a)
  | .vredmin a => some (encV 0x62 0x07 (a.vb = 0) a)
  | .vbcast a => some (encV 0x63 0x00 (a.vb = 0) a)
  | .vget a => some (encV 0x63 0x01 true a)
  | .vld a => some (encW 0x00 (bits a.p2.toNat 7 25 = 0) a)
  | .vst a => some (encW 0x01 (bits a.p2.toNat 7 25 = 0) a)
  | .vgather a => some (encW 0x02 (bits a.p2.toNat 8 24 = 0) a)
  | .vscatter a => some (encW 0x03 (bits a.p2.toNat 8 24 = 0) a)
  | .vcvt a => some (encW 0x04 (bits a.p2.toNat 14 18 = 0
      && cvtOk (bits a.p2.toNat 0 4) (bits a.p2.toNat 4 4) (bits a.p2.toNat 8 3)
      && cvtOk (bits a.p2.toNat 4 4) (bits a.p2.toNat 0 4) (bits a.p2.toNat 11 3)) a)
  | .vwid6 a => some (encW 0x05 (bits a.p2.toNat 8 24 = 0 && ((bits a.p2.toNat 0 4 = 6 && decide (bits a.p2.toNat 5 3 ≤ 1))
      || (bits a.p2.toNat 0 4 = 7 && decide (bits a.p2.toNat 5 3 ≤ 4)))) a)
  | .vqmx a =>
    let x := a.p2.toNat
    let to' := bits x 5 4
    let nb := if bit x 9 then 1 else 2
    some (encW 0x06 (bits x 20 12 = 0 && (to' = 4 || to' = 5 || to' = 3 || to' = 1)
      && decide (bits x 10 3 + nb ≤ (if to' = 3 then 8 else 4)) && decide (bits x 13 7 + nb ≤ 128)) a)
  | .vtrd a => some (encW 0x07 (bits a.p2.toNat 5 27 = 0) a)
  | .vtwr a => some (encW 0x08 (bits a.p2.toNat 16 16 = 0 && decide (bits a.p2.toNat 12 4 ≤ 8)) a)
  | .tld m => some (encM 0x00 (memFormOk m) m)
  | .tst m => some (encM 0x01 (memFormOk m) m)
  | .tzero m => some (encM 0x02 (memFormOk m && m.rs1 = 0 && m.rs2 = 0) m)
  | .mz m => some (encM 0x04 (zeroFormOk m) m)
  | .mma m => some (encM 0x05 (productFormOk m && m.ts = 0) m)
  | .mmas m => some (encM 0x06 (productFormOk m) m)
  | .mdrain m => some (encM 0x08 (drainFormOk m) m)
  | .msave m => some (encM 0x0A (imageFormOk m) m)
  | .mrest m => some (encM 0x0B (imageFormOk m) m)
  | .mhclr m => some (encM 0x0C (zeroFormOk m) m)
  | _ => none

end Sys2Proof

namespace Sys2Proof.Machine

/-! ### The router at rest -/

/-- `t` is `s` with the pending causes looked at: XPEND, the event latches, the N0 or N1 of SPN_PSSTAT and a wake asked for may
have followed them, and nothing else has changed. -/
structure Polled (s t : State) : Prop where
  pending : t.pending = s.pending
  pins : t.pins = s.pins
  up : t.up = s.up
  reg : ∀ off, off ≠ F.psState.off → t.reg off = s.reg off
  ctx : ∀ c, { t.ctx c with xpend := 0, latch := false } = { s.ctx c with xpend := 0, latch := false }
  core : { t.core with c0 := s.core.c0, c1 := s.core.c1 } = s.core
  mx : t.mx = s.mx
  mem : t.mem = s.mem
  ecc : t.ecc = s.ecc
  cache : t.cache = s.cache
  rtr : t.rtr = s.rtr
  links : t.lnkN = s.lnkN ∧ t.lnkE = s.lnkE ∧ t.lnkS = s.lnkS ∧ t.lnkW = s.lnkW
  qe : t.qe = s.qe
  spn : { t.spn with wakeSrc := 0 } = { s.spn with wakeSrc := 0 }
  fltRx : t.fltRx = s.fltRx ∧ t.fltRxLast = s.fltRxLast
  fresh : t.fresh = s.fresh

/-- A command answers with the node `u`, its pending causes looked at. -/
def Yields (c : Instr) (s u : State) : Prop := ∃ t, exec c s = .next t ∧ Polled u t

/-- No packet is in the router, in a Ply buffer, in the ingress, or on its way in from an edge adapter. -/
def State.still (s : State) : Prop :=
  (∀ p, (s.lnk p).inbound = []) ∧ s.rtr.inq = [] ∧ s.rtr.held = [] ∧ s.rtr.ply = [] ∧ s.rtr.plyWait = [] ∧ s.rtr.ingress = []

/-! ### Shapes of an answer -/

/-- A node whose core registers have changed. -/
def State.onCore (s : State) (f : Core → Core) : State := { s with core := f s.core }

/-- An instruction that sets the PC, the contexts or the issuing context itself completes with `u`, its pending causes
looked at. -/
def Leaves (i : Instr) (s u : State) : Prop := ∃ v t, exec i s = .next t ∧ Like u v ∧ Polled v t

/-- The `n` little-endian bytes of a doubleword. -/
def bytesOf (n : Nat) (v : Word) : List Byte := (List.range n).map fun i => v.extractLsb' (8 * i) 8

/-- The doubleword stored at a local offset. -/
def State.dw (s : State) (off : Nat) : Word :=
  s.mem.byte (off + 7) ++ s.mem.byte (off + 6) ++ s.mem.byte (off + 5) ++ s.mem.byte (off + 4) ++ s.mem.byte (off + 3)
    ++ s.mem.byte (off + 2) ++ s.mem.byte (off + 1) ++ s.mem.byte off

/-- The `n` doublewords from `a` are the issuing context's to load and store, in the node's own local memory from offset `off`
on, and their check bits are good. -/
def AreaAt (s : State) (a : Word) (n off : Nat) : Prop :=
  a.toNat % 8 = 0 ∧ (∀ w ∈ eccWords off (8 * n), s.eccOf w = .good)
    ∧ ∀ i, i < n → s.place (a + BitVec.ofNat 64 (8 * i)) = .lm (off + 8 * i)
        ∧ s.pageOk s.core.cur s.cx.pl.toNat (pageOf (off + 8 * i)) = true

/-- Element `e` of `w` bits of vector register `r`. -/
def State.el (s : State) (w : Nat) (r : BitVec 5) (e : Nat) : BitVec w := (tget 0 s.mx.vreg r.toNat).extractLsb' (w * e) w

/-- Vector register `r` given the value `v`, its group marked dirty (R168, R314). -/
def State.givenVec (s : State) (r : BitVec 5) (v : BitVec 1024) : State :=
  { s with mx := { s.mx with vreg := tput 0 s.mx.vreg r.toNat v },
           core := { s.core with mxDirty := s.core.mxDirty ||| (1 <<< vecGroup r) } }

/-- A vector instruction of `n` bytes completes having given Vd the elements `f e`, and nothing else. -/
def VecGives (i : Instr) (s : State) (n : Nat) (vd : BitVec 5) (w : Nat) (f : Nat → BitVec w) : Prop :=
  ∃ v : BitVec 1024, Completes i s ((s.begun n).givenVec vd v) n ∧ ∀ e, e < 1024 / w → v.extractLsb' (w * e) w = f e

/-- Lane `l` of level `n` of the fixed pairwise tree over the lanes `p`: neighbours of one level combine into the next (R303). -/
def treeAt (g : α → α → α) (p : Nat → α) : Nat → Nat → α
  | 0, l => p l
  | n + 1, l => g (treeAt g p n (2 * l)) (treeAt g p n (2 * l + 1))

/-- The issuing context may reach the `n` bytes at `a`, which are own local memory from offset `off` on, and their check bits are
good. -/
def BlockAt (s : State) (a : Word) (n off : Nat) : Prop :=
  s.place a = .lm off ∧ off + n ≤ benchBase ∧ (∀ j, j < n → s.pageOk s.core.cur s.cx.pl.toNat (pageOf (off + j)) = true)
    ∧ ∀ w ∈ eccWords off n, s.eccOf w = .good

/-- Cause `c` with address `a`, which an instruction raises after it has left the node as `v`. -/
def RaisesAs (i : Instr) (s v : State) (e : Enc) (c : Nat) (a : Word) : Prop :=
  exec i s = .next ((v.raise c a s.begun.cx.pc (BitVec.ofNat 32 e.parcel)).taken)

/-- R190, R196, R309: an instruction whose reads `ts`, made in `u`, fail raises what failed: ACCESS at the address `refusal` gives for
a refused transfer, MEM_DATA at the lowest failing word; of the first transfer with nothing read, of another as the transfers before it
have left the node. -/
def ReadsFail (i : Instr) (s u : State) (e : Enc) (req : Nat) (ts : List (Word × Nat)) (refusal : Word → Word) : Prop :=
  (∀ p r, ts = p :: r → u.unitOff p.1 p.2 = none → RaisesAs i s u e cAccess (refusal p.1))
  ∧ (∀ p r off w, ts = p :: r → off / 256 = (off + p.2 - 1) / 256 → u.unitOff p.1 p.2 = some off → u.eccFail (eccWords off p.2) = some w →
      RaisesAs i s ((u.lmGrant req 1).eccFailed req (some u.core.cur) w) e cMemData (wordAddr p.1 w))
  ∧ ∀ c v, u.unitRead req ts = (.error c, v) → RaisesAs i s v e c.1 (if c.1 = cAccess then refusal c.2 else c.2)

/-- The same of an instruction that writes `d`; a word that a write covers whole does not fail (R191). -/
def WritesFail (i : Instr) (s u : State) (e : Enc) (req : Nat) (ts : List (Word × Nat)) (d : List Byte) (refusal : Word → Word) : Prop :=
  (∀ p r, ts = p :: r → u.unitOff p.1 p.2 = none → RaisesAs i s u e cAccess (refusal p.1))
  ∧ ∀ c v, u.unitWrite req ts d = (some c, v) → RaisesAs i s v e c.1 (if c.1 = cAccess then refusal c.2 else c.2)

/-- The issuing context owns the matrix and vector state (R167). -/
def State.owns (s : State) : Prop := s.core.mxOwner = s.core.cur

/-! ### Edge adapters -/

/-- The link of port `p` enters state `n` with adapter `y` and its state timer at 0; INSVC is 1 in ACTIVE and RETRAIN but for a
detach (R368, R375). -/
def State.linkIn (u : State) (p : Port) (n : Nat) (y : LinkPort) : State :=
  ((u.put (F.lState p.num) n).put (F.lInsvc p.num) (if (n = 5 ∨ n = 6) ∧ y.detaching = false then 1 else 0)).setLnk p { y with timer := 0 }

/-- It enters a state with PHY in reset: no lane enabled, healthy or in use, nothing on the lanes in either direction (R368). -/
def State.linkOut (u : State) (p : Port) (n : Nat) (y : LinkPort) : State :=
  ((u.put (F.lMask p.num) 0).put (F.lHealthy p.num) 0).linkIn p n { y with
    rstN := false, laneEn := 0, wreq := false, wack := false, wmask := 0, detaching := false, lstat := 0, okTicks := [], lostNow := 0,
    critNow := false, owing := 0, limit := 0, txd := [], txRest := [], txPos := 0,
    rxMask := 0, rxWords := [], rxPos := 0, rxRest := [], rxTry := [] }

/-- It enters RESET: RATE takes effect, and retired lanes may be used again (R358, R373). -/
def State.linkAnew (u : State) (p : Port) (rate : Bool) (y : LinkPort) : State :=
  u.linkOut p 1 { y with rate := rate, retired := 0, sick := 0 }

/-- It enters RETRAIN, held to `limit` where that is not 0 (R370, R374, R377). -/
def State.linkAgain (u : State) (p : Port) (limit : BitVec 4) (y : LinkPort) : State :=
  (u.linkIn p 6 { y with
    matched := 0, capGot := false, capAck := false, capSent := false, limit := limit, wreq := false, wack := false, wmask := 0,
    crcRun := 0, rxTry := [] }).sat (F.lRetrain p.num) 1

/-- Out of service: the adapter's packets go back to the router with EXIT naming this port, their buffer entries are free, and they
are counted (R375). -/
def State.linkReturns (u : State) (p : Port) : State :=
  let y := u.lnk p
  let back := y.packets.map fun k => ({ k.pkt with exitN := BitVec.ofNat 10 (u.g F.node), exitP := BitVec.ofNat 2 p.num, exitV := true }, 0)
  let t := (u.put (F.lInsvc p.num) 0).setLnk p { y with
    packets := [], replay := [], again := [], repEnds := [], partial0 := [], inbound := y.inbound ++ back }
  State.sat { t with rtr := { t.rtr with credits := (List.range 4).foldl (fun c v =>
    tput 0 c (4 * p.num + v) (tget 0 c (4 * p.num + v) + owedOf y.packets v)) t.rtr.credits } } (F.lReinj p.num) back.length

/-- The channel retires (R372, R375, R452). -/
def State.channelGone (u : State) (p : Port) : State :=
  let t := u.linkReturns p
  ((t.linkOut p 8 (t.lnk p)).put (F.lEvt p.num 2) 1).record
    { source := 0x0D, cls := 4, ctx := none, info := p.num + 2 ^ 16 * min (u.lnk p).packets.length 65535, addr := 0 }

end Sys2Proof.Machine
end

