-- ==== Sys2Proof/Certificates/Slice0/Obligations.lean ====
section
/-! DEFINITION. The statements for the provers. -/

open Sys2Proof Sys2Proof.Machine

/-! ### The machine -/

/-- A step runs the command at the front of the queue on the node with the queue's rest; with no command waiting the block idles
(the idling is the model's own choice, log entry 1). -/
def Obligations.StepRunsFront : Prop :=
  (∀ (c : Instr) (r : List Instr) (s : State), step { s with pending := c :: r } = exec c { s with pending := r })
  ∧ (∀ s : State, s.pending = [] → step s = .next s)

/-- The state after reset meets the invariant, and no command waits. -/
def Obligations.ResetInv : Prop := State.reset.Inv ∧ State.reset.pending = []

/-- Every step keeps the canonical form of memory and registers and the capacity of every FIFO of the ingress. -/
def Obligations.StepKeepsInv : Prop := ∀ s t : State, s.Inv → step s = .next t → t.Inv

/-- No command puts a command into the queue or takes one out. -/
def Obligations.ExecKeepsQueue : Prop :=
  ∀ (c : Instr) (s t : State), exec c s = .next t → t.pending = s.pending

/-- A command stops the block exactly where its operands cannot be presented to the hardware, and none is refused.
Log entries of the model's own choices and readings here: 11. -/
def Obligations.StopsAreIllFormed : Prop :=
  ∀ (c : Instr) (s : State), ((∃ r, exec c s = .fault r) ↔ c.wf = false) ∧ ∀ r, exec c s ≠ .refused r

/-- R157, R132, R133, R162, R163, R241, R26, R20: the node at reset: both contexts at M, at PC 0, window 0 alone live, the exception
registers 0, RUN0 set and RUN1 clear, the LFSR at 1; every control-space register at its Reset-column value, STAGE 0. R61: ID_VERSION is
0x31. Log entries of the model's own choices and readings here: 4, 5. -/
def Obligations.ResetState : Prop :=
  ((∀ c, let x := State.reset.ctx c
    x.pl = 2 ∧ x.fast = false ∧ x.cwp = 0 ∧ x.spare = false ∧ x.ie = false ∧ x.wvalid = 1 ∧ x.reel = [] ∧ x.xvecS = 0 ∧ x.xvecM = 0
      ∧ x.xcauseS = 0 ∧ x.xcauseM = 0 ∧ x.xspS = 0 ∧ x.xspM = 0 ∧ x.xnest = 0 ∧ x.xdeleg = 0 ∧ x.xien = 0 ∧ x.zbusy = false
      ∧ x.srstate = 1)
  ∧ State.reset.core.run = 1 ∧ State.reset.core.cur = .c0 ∧ State.reset.core.mxOwner = .c0 ∧ State.reset.core.mxDirty = 0)
  ∧ ((∀ off, State.reset.reg off = regReset off) ∧ State.reset.g F.stage = 0 ∧ State.reset.reg 0 = 0x0231
    ∧ State.reset.pins.idVersion = 0x31)

/-! ### Before an instruction's own effect -/

/-- Where the core does not issue, or a Chest operation keeps a matrix or vector instruction waiting, an instruction
changes nothing. R458, R452, R461: where the core would issue and an array has an entry that fails its parity, it checkstops instead
with ARRAY_PARITY (that the entry is found at the next instruction is the model's choice, log entry 77), and the router goes on
without L (R350).
Log entries of the model's own choices and readings here: 3, 50, 77. -/
def Obligations.NotIssuedChangesNothing : Prop :=
  ∀ (i : Instr) (e : Enc) (s : State), i.enc = some e → ¬ Issues s e →
    ((s.core.spoilt = none ∨ s.mayIssue = false) → exec i s = .next s)
    ∧ ∀ a, s.core.spoilt = some a → s.mayIssue = true → ∃ t, exec i s = .next t.settle ∧ t.isFenced = true ∧ t.g F.reason = 1
        ∧ t.pins.faultOutN = false ∧ t = State.fence (s.record { source := 0x22, cls := 3, ctx := some s.core.cur, info := CoreArray.code a, addr := 0 }) 1

/-- R137, R190, R120, R123, R136, R109: in this order a fetch raises ALIGN, ACCESS or, where its transfer fails, MEM_DATA, an
instruction that is not legal ILLEGAL, one below its level PRIV_INSTR whatever its condition, and one whose condition fails has
no effect but the PC's advance. R203, R212: a parcel of another node or of external space that is not there is asked for, sector by
sector, and the context waits. R120, R248, R304, R305: a word that names no instruction raises ILLEGAL whatever its condition.
Log entries of the model's own choices and readings here: 48, 63, 101. -/
def Obligations.BeforeItsEffect : Prop :=
  (∀ (i : Instr) (e : Enc) (s : State), i.enc = some e → Issues s e →
    let u := s.begun e.len
    let x := u.cx
    (∀ c a inst, u.fetchCause e = some (c, a, inst) → exec i s = .next (((u.fetchNoted c a).raise c a x.pc inst).taken))
    ∧ (u.fetchCause e = none →
      (∀ a inst, u.fetchMiss e = some (a, inst) → exec i s = .next (u.askFetch a inst).settle)
      ∧ (u.fetchMiss e = none →
        (e.legal = false → Raises i s e cIllegal x.pc)
        ∧ (e.legal = true → x.pl.toNat < e.level → Raises i s e cPriv x.pc)
        ∧ (e.legal = true → e.level ≤ x.pl.toNat → x.cond e.cond = false → Completes i s u e.len))))
  ∧ (∀ (s : State) (a : Word) (inst : Word32),
    let c := s.core.cur
    let t := s.askFetch a inst
    let n := sectorBase a + 32
    (∃ g, (t.ctx c).wait = .fetch g a inst ∧ t.codeComing c (sectorBase a) = some g)
    ∧ (lineOf n = lineOf (sectorBase a) → s.codeHere c n = false → ∃ g, t.codeComing c n = some g)
    ∧ (∀ b, t.mem.byte b = s.mem.byte b) ∧ { t.ctx c with wait := .run } = { s.ctx c with wait := .run }
    ∧ t.ctx c.other = s.ctx c.other ∧ t.core.cur = c)
  ∧ (∀ (p : Word32) (s : State),
    let e := unnamedEnc p.toNat
    (wordNamed p.toNat = true → exec (.nop (.other p)) s = .next s)
    ∧ (wordNamed p.toNat = false → Issues s e → (s.begun e.len).fetchCause e = none → (s.begun e.len).fetchMiss e = none →
        Raises (.nop (.other p)) s e cIllegal s.begun.cx.pc))

/-- R270: what a pending MDRAIN commits before the next instruction is its own: memory, the contexts but for an LFSR, and
every register but counters stay; with no MDRAIN pending nothing changes but the test gate. R203: looking up parcels of other nodes or
of external space changes the caches and what is counted; looking up the node's own changes nothing. -/
def Obligations.BegunFrame : Prop :=
  ∀ (s : State) (n : Nat),
    let t := s.begun n
    (cacheable (s.place s.cx.pc) = false → cacheable (s.place (s.cx.pc + 4)) = false →
      t.cache = s.cache ∧ t.reg F.l1Par.off = s.reg F.l1Par.off ∧ (s.mx.drain = none → t = { s with up := { s.up with ran := true } }))
    ∧ t.mx.drain = none ∧ (s.mx.drain = none → t.mx = s.mx) ∧ (∀ a, t.mem.byte a = s.mem.byte a)
    ∧ (∀ off, off / 0x10000 ≠ 8 → off ≠ F.l1Par.off → t.reg off = s.reg off)
    ∧ (∀ c, { t.ctx c with srstate := 0 } = { s.ctx c with srstate := 0 })
    ∧ t.rtr = s.rtr ∧ t.qe = s.qe ∧ t.spn = s.spn ∧ t.ecc = s.ecc
    ∧ t.core.cur = s.core.cur ∧ t.core.mxOwner = s.core.mxOwner ∧ t.pending = s.pending

/-- R97, R98, R102: writing a register number writes the one place it names, and nothing where it names G0. -/
def Obligations.WriteOneRegister : Prop :=
  ∀ (x : Ctx) (r : BitVec 5) (v : Word) (l : Loc),
    (x.wr r v).at l = (if l = x.loc r then (if l = .zero then 0 else v) else x.at l)
    ∧ (x.wr r v).loc = x.loc ∧ (x.wr r v).n = x.n ∧ (x.wr r v).z = x.z ∧ (x.wr r v).cf = x.cf ∧ (x.wr r v).v = x.v
    ∧ (x.wr r v).p = x.p ∧ (x.wr r v).pl = x.pl ∧ (x.wr r v).pc = x.pc ∧ (x.wr r v).mpl = x.mpl ∧ (x.wr r v).mph = x.mph
    ∧ (x.wr r v).wvalid = x.wvalid ∧ (x.wr r v).reel = x.reel ∧ (x.wr r v).xnest = x.xnest ∧ (x.wr r v).zst = x.zst

/-! ### Scalar instructions -/

/-- R123, R107: ADD, ADC, SUB, SBC and their flags. -/
def Obligations.AddSubtract : Prop :=
  ∀ (a : FrameA) (s : State),
    let x := s.begun.cx
    let p := x.rd a.rs1
    let q := x.rd a.rs2
    let k : Nat := if x.cf then 1 else 0
    let b : Nat := 1 - k
    let past (r : Word) (n : Int) : Bool := decide (r.toInt ≠ n)
    (Runs s (encF 1 0x00 a) → Answers (.add a) s
      (x.answer a.f a.rd (p + q) (decide (2 ^ 64 ≤ p.toNat + q.toNat)) (past (p + q) (p.toInt + q.toInt))) (x.pc + 4))
    ∧ (Runs s (encF 1 0x02 a) → Answers (.adc a) s
      (x.answer a.f a.rd (p + q + BitVec.ofNat 64 k) (decide (2 ^ 64 ≤ p.toNat + q.toNat + k))
        (past (p + q + BitVec.ofNat 64 k) (p.toInt + q.toInt + k))) (x.pc + 4))
    ∧ (Runs s (encF 1 0x01 a) → Answers (.sub a) s
      (x.answer a.f a.rd (p - q) (decide (q.toNat ≤ p.toNat)) (past (p - q) (p.toInt - q.toInt))) (x.pc + 4))
    ∧ (Runs s (encF 1 0x03 a) → Answers (.sbc a) s
      (x.answer a.f a.rd (p - q - BitVec.ofNat 64 b) (decide (q.toNat + b ≤ p.toNat))
        (past (p - q - BitVec.ofNat 64 b) (p.toInt - q.toInt - b))) (x.pc + 4))

/-- R123, R107: AND, OR, XOR, ANDN, whose C and V are 0; shifts and rotates by rs2 modulo 64 and by an immediate, whose C is the last
bit out, 0 for a count of 0. -/
def Obligations.LogicAndShifts : Prop :=
  (∀ (a : FrameA) (s : State),
    let x := s.begun.cx
    let p := x.rd a.rs1
    let q := x.rd a.rs2
    (Runs s (encF 1 0x04 a) → Answers (.and a) s (x.answer a.f a.rd (p &&& q) false false) (x.pc + 4))
    ∧ (Runs s (encF 1 0x05 a) → Answers (.or a) s (x.answer a.f a.rd (p ||| q) false false) (x.pc + 4))
    ∧ (Runs s (encF 1 0x06 a) → Answers (.xor a) s (x.answer a.f a.rd (p ^^^ q) false false) (x.pc + 4))
    ∧ (Runs s (encF 1 0x07 a) → Answers (.andn a) s (x.answer a.f a.rd (p &&& ~~~q) false false) (x.pc + 4)))
  ∧ (∀ (s : State),
    let x := s.begun.cx
    let last (p : Word) (n i : Nat) : Bool := decide (0 < n) && p.getLsbD i
    (∀ a : FrameA,
      let p := x.rd a.rs1
      let n := (x.rd a.rs2).toNat % 64
      (Runs s (encF 1 0x08 a) → Answers (.shl a) s (x.answer a.f a.rd (p <<< n) (last p n (64 - n)) false) (x.pc + 4))
      ∧ (Runs s (encF 1 0x09 a) → Answers (.shr a) s (x.answer a.f a.rd (p >>> n) (last p n (n - 1)) false) (x.pc + 4))
      ∧ (Runs s (encF 1 0x0A a) → Answers (.sar a) s (x.answer a.f a.rd (p.sshiftRight n) (last p n (n - 1)) false) (x.pc + 4))
      ∧ (Runs s (encF 1 0x0B a) → Answers (.ror a) s (x.answer a.f a.rd (p.rotateRight n) (last p n (n - 1)) false) (x.pc + 4)))
    ∧ ∀ b : FrameSh,
      let p := x.rd b.rs1
      let n := b.count.toNat
      let e (k : Nat) : Enc := { parcel := b.parcel k, len := 4, cond := b.cond, legal := b.rsv = 0, level := 0, mx := false }
      (Runs s (e 0) → Answers (.shli b) s (x.answer b.f b.rd (p <<< n) (last p n (64 - n)) false) (x.pc + 4))
      ∧ (Runs s (e 1) → Answers (.shri b) s (x.answer b.f b.rd (p >>> n) (last p n (n - 1)) false) (x.pc + 4))
      ∧ (Runs s (e 2) → Answers (.sari b) s (x.answer b.f b.rd (p.sshiftRight n) (last p n (n - 1)) false) (x.pc + 4))
      ∧ (Runs s (e 3) → Answers (.rori b) s (x.answer b.f b.rd (p.rotateRight n) (last p n (n - 1)) false) (x.pc + 4)))

/-- R123: SLT, SLTU, MIN, MAX, MINU, MAXU, CLZ, POPC and SEL write rd and no flag. -/
def Obligations.CompareCount : Prop :=
  ∀ (a : FrameA) (s : State),
    let x := s.begun.cx
    let p := x.rd a.rs1
    let q := x.rd a.rs2
    let ans (i : Instr) (v : Word) : Prop := Answers i s (x.wr a.rd v) (x.pc + 4)
    (Runs s (encA 1 0x0C 0 true a) → ans (.slt a) (if p.toInt < q.toInt then 1 else 0))
    ∧ (Runs s (encA 1 0x0D 0 true a) → ans (.sltu a) (if p.toNat < q.toNat then 1 else 0))
    ∧ (Runs s (encA 1 0x0E 0 true a) → ans (.min a) (if p.toInt < q.toInt then p else q))
    ∧ (Runs s (encA 1 0x0F 0 true a) → ans (.max a) (if p.toInt < q.toInt then q else p))
    ∧ (Runs s (encA 1 0x10 0 true a) → ans (.minu a) (if p.toNat < q.toNat then p else q))
    ∧ (Runs s (encA 1 0x11 0 true a) → ans (.maxu a) (if p.toNat < q.toNat then q else p))
    ∧ (Runs s (encA 1 0x12 0 (a.rs2 = 0) a) →
        ∃ n, n ≤ 64 ∧ p.toNat < 2 ^ (64 - n) ∧ (n < 64 → 2 ^ (63 - n) ≤ p.toNat) ∧ ans (.clz a) (BitVec.ofNat 64 n))
    ∧ (Runs s (encA 1 0x13 0 (a.rs2 = 0) a) →
        ans (.popc a) (BitVec.ofNat 64 ((List.range 64).map fun i => if p.getLsbD i then 1 else 0).sum))
    ∧ (Runs s (encA 1 0x14 0 true a) → ans (.sel a) (if x.p then p else q))

/-- R112: MUL and MULU produce the 128-bit product; it is in MPH:MPL for the third instruction after and not for the second. R115:
quotients and remainders; a zero divisor gives all ones and the dividend, -2^63 by -1 gives -2^63 and 0. -/
def Obligations.MultiplyAndDivide : Prop :=
  (∀ (a : FrameA) (s : State),
    let x := s.begun.cx
    let with' (p : Nat) : Ctx := { x with prods := x.prods ++
      [{ age := 0, lo := some (BitVec.ofNat 64 p), hi := some (BitVec.ofNat 64 (p / 2 ^ 64)) }] }
    (Runs s (encA 2 0 0 (a.rd = 0) a) → Answers (.mul a) s
      (with' (((x.rd a.rs1).toInt * (x.rd a.rs2).toInt) % 2 ^ 128).toNat) (x.pc + 4))
    ∧ (Runs s (encA 2 1 0 (a.rd = 0) a) → Answers (.mulu a) s (with' ((x.rd a.rs1).toNat * (x.rd a.rs2).toNat)) (x.pc + 4))
    ∧ (∀ (y : Ctx) (lo hi : Word), y.prods = [] →
        let y1 := { y with prods := [{ age := 0, lo := some lo, hi := some hi }] }
        y1.age.age.mpl = y.mpl ∧ y1.age.age.mph = y.mph ∧ y1.age.age.age.mpl = lo ∧ y1.age.age.age.mph = hi))
  ∧ (∀ (a : FrameA) (s : State),
    let x := s.begun.cx
    let p := x.rd a.rs1
    let q := x.rd a.rs2
    let ans (i : Instr) (v : Word) : Prop := Answers i s (x.wr a.rd v) (x.pc + 4)
    (Runs s (encA 2 2 0 true a) → ans (.div a) (if q = 0 then BitVec.allOnes 64
        else if p = BitVec.intMin 64 ∧ q = -1 then BitVec.intMin 64 else p.sdiv q))
    ∧ (Runs s (encA 2 3 0 true a) → ans (.divu a) (if q = 0 then BitVec.allOnes 64 else p.udiv q))
    ∧ (Runs s (encA 2 4 0 true a) → ans (.rem a) (if q = 0 then p else if p = BitVec.intMin 64 ∧ q = -1 then 0 else p.srem q))
    ∧ (Runs s (encA 2 5 0 true a) → ans (.remu a) (if q = 0 then p else p.umod q)))

/-- R118, R122, R123: the immediate forms. -/
def Obligations.Immediates : Prop :=
  ∀ (s : State),
    let x := s.begun.cx
    (∀ b : FrameB,
      let p := x.rd b.rs1
      let sx : Word := b.imm.signExtend 64
      let zx : Word := b.imm.zeroExtend 64
      let ans (i : Instr) (v : Word) : Prop := Answers i s (x.wr b.rd v) (x.pc + 4)
      (∀ f : Bool, Runs s (encB (if f then 5 else 4) 0 true b) → Answers (.addi f b) s
        (x.answer f b.rd (p + sx) (decide (2 ^ 64 ≤ p.toNat + sx.toNat)) (decide ((p + sx).toInt ≠ p.toInt + sx.toInt))) (x.pc + 4))
      ∧ (Runs s (encB 6 0 true b) → Answers (.subi b) s
        (x.answer true b.rd (p - sx) (decide (sx.toNat ≤ p.toNat)) (decide ((p - sx).toInt ≠ p.toInt - sx.toInt))) (x.pc + 4))
      ∧ (Runs s (encB 7 0 true b) → ans (.andi b) (p &&& zx))
      ∧ (Runs s (encB 8 0 true b) → ans (.ori b) (p ||| zx))
      ∧ (Runs s (encB 9 0 true b) → ans (.xori b) (p ^^^ zx))
      ∧ (Runs s (encB 0x0B 0 true b) → ans (.slti b) (if p.toInt < sx.toInt then 1 else 0))
      ∧ (Runs s (encB 0x0C 0 true b) → ans (.sltiu b) (if p.toNat < sx.toNat then 1 else 0)))
    ∧ (∀ e : FrameE, Runs s { parcel := e.parcel, len := 4, cond := e.cond, legal := true, level := 0, mx := false } →
        ∃ v : Word, Answers (.movh e) s (x.wr e.rd v) (x.pc + 4) ∧
          ∀ i, i < 64 → v.getLsbD i = (if i / 16 = e.n.toNat then e.imm.getLsbD (i % 16) else e.keep && (x.rd e.rd).getLsbD i))
    ∧ (∀ l : FrameL,
        (Runs s (encL 0 l) → Completes (.liw l) s ((s.begun 8).setCx (x.wr l.rd (l.imm.signExtend 64))) 8)
        ∧ (Runs s (encL 1 l) → Completes (.liwh l) s ((s.begun 8).setCx (x.wr l.rd (l.imm ++ (x.rd l.rd).setWidth 32))) 8))

/-! ### Memory instructions -/

/-- R123: a load of own local memory writes the little-endian bytes, sign- or zero-extended, to rd, and changes no byte. R189, R190,
R202, R203, R209, R500: a single error is corrected and counted, an uncorrectable one raises MEM_DATA; a load of control space
reads the register, or raises ACCESS; one of other memory waits for its own context's store to the line, takes a cached sector,
or sends a READ of the sector or of its bytes and waits. Log entries of the model's own choices and readings here: 6, 37, 48, 50. -/
def Obligations.LocalLoads : Prop :=
  (∀ (b : FrameB) (s : State) (off : Nat),
    let x := s.begun.cx
    let a := x.rd b.rs1 + b.imm.signExtend 64
    let m (i : Nat) : Byte := s.begun.mem.byte (off + i)
    let ans (i : Instr) (v : Word) : Prop := Answers i s (x.wr b.rd v) (x.pc + 4)
    (Runs s (encB 0x18 0 true b) → LocalAt s.begun a 1 off → ans (.lb b) ((m 0).signExtend 64))
    ∧ (Runs s (encB 0x19 0 true b) → LocalAt s.begun a 1 off → ans (.lbu b) ((m 0).zeroExtend 64))
    ∧ (Runs s (encB 0x1A 0 true b) → LocalAt s.begun a 2 off → ans (.lh b) ((m 1 ++ m 0).signExtend 64))
    ∧ (Runs s (encB 0x1B 0 true b) → LocalAt s.begun a 2 off → ans (.lhu b) ((m 1 ++ m 0).zeroExtend 64))
    ∧ (Runs s (encB 0x1C 0 true b) → LocalAt s.begun a 4 off → ans (.lw b) ((m 3 ++ m 2 ++ m 1 ++ m 0).signExtend 64))
    ∧ (Runs s (encB 0x1D 0 true b) → LocalAt s.begun a 4 off → ans (.lwu b) ((m 3 ++ m 2 ++ m 1 ++ m 0).zeroExtend 64))
    ∧ (Runs s (encB 0x1E 0 true b) → LocalAt s.begun a 8 off →
        ans (.ld b) (m 7 ++ m 6 ++ m 5 ++ m 4 ++ m 3 ++ m 2 ++ m 1 ++ m 0)))
  ∧ ∀ (b : FrameB) (s : State),
    let u := s.begun
    let x := u.cx
    let c := u.core.cur
    let a := x.rd b.rs1 + b.imm.signExtend 64
    let elsewhere (i : Instr) (major n : Nat) (sg : Bool) : Prop :=
      let e := encB major 0 true b
      let f : LoadForm := { bytes := n, signed := sg, rd := b.rd, inst := BitVec.ofNat 32 (b.parcel major) }
      let gets (v : State) (d : List Byte) : State := v.setCx (v.cx.wr b.rd (f.value d))
      let asks (v : State) (fill : Bool) (dst : Word) (k : Nat) : Prop :=
        let t := v.request (.load c) 1 0 dst (BitVec.ofNat 64 k) c []
        exec i s = .next (t.2.setCtx c { t.2.ctx c with wait := .load t.1 a f fill }).settle
      Runs s e → a.toNat % n = 0 →
        (∀ off, MayAt u a off →
          (u.eccOf (off / 8) ≠ .bad → Completes i s (gets ((u.lmGrant reqCore 1).eccCorrect [off / 8]) (u.mem.read off n)) 4)
          ∧ (u.eccOf (off / 8) = .bad →
              RaisesAs i s ((u.lmGrant reqCore 1).eccFailed reqCore (some c) (off / 8)) e cMemData (wordAddr a (off / 8))))
        ∧ (∀ o, u.place a = .ctrl o →
            (u.mayRead u.coreAcc (o / 8 * 8) = false → Raises i s e cAccess a)
            ∧ (u.mayRead u.coreAcc (o / 8 * 8) = true → let v := u.readReg u.coreAcc (o / 8 * 8)
                Completes i s (gets v.2 ((toLe 8 v.1.toNat).drop (o % 8))).settle 4))
        ∧ ((u.place a).remote = true →
            (u.lineBusy c a = true → exec i s = .next u.settle)
            ∧ (u.lineBusy c a = false → cacheable (u.place a) = false → asks u false a n)
            ∧ (u.lineBusy c a = false → cacheable (u.place a) = true →
                (∀ d v, u.cacheLoad c a n = (some d, v) → Completes i s (gets v d).settle 4)
                ∧ ∀ v, u.cacheLoad c a n = (none, v) → asks v true (sectorBase a) 32))
    elsewhere (.lb b) 0x18 1 true ∧ elsewhere (.lbu b) 0x19 1 false ∧ elsewhere (.lh b) 0x1A 2 true ∧ elsewhere (.lhu b) 0x1B 2 false
    ∧ elsewhere (.lw b) 0x1C 4 true ∧ elsewhere (.lwu b) 0x1D 4 false ∧ elsewhere (.ld b) 0x1E 8 true

/-- R123: a store to own local memory stores the low bytes of the register in [21:17], low byte first, at the address the
load of the same operands would read; every other byte, and everything else, stays. R189 to R191, R206, R209, R502: a store of part
of a word corrects its single error first, and raises MEM_DATA on an uncorrectable one; a store to control space writes the register,
raises ALIGN where it is not of 8 bytes and ACCESS where it is refused; one to other memory waits while its context has an
unacknowledged store to the line, or 16 in all, and is otherwise posted.
Log entries of the model's own choices and readings here: 6, 37, 50, 96. -/
def Obligations.LocalStores : Prop :=
  (∀ (b : FrameB) (s : State) (off : Nat),
    let x := s.begun.cx
    let a := x.rd b.rs1 + b.imm.signExtend 64
    let v := x.rd b.rd
    let d (n : Nat) : List Byte := (List.range n).map fun i => v.extractLsb' (8 * i) 8
    let done (i : Instr) (n : Nat) : Prop := ∃ t, exec i s = .next t ∧ Stored s.begun t off (d n) (x.pc + 4)
    (Runs s (encB 0x20 0 true b) → LocalAt s.begun a 1 off → done (.sb b) 1)
    ∧ (Runs s (encB 0x21 0 true b) → LocalAt s.begun a 2 off → done (.sh b) 2)
    ∧ (Runs s (encB 0x22 0 true b) → LocalAt s.begun a 4 off → done (.sw b) 4)
    ∧ (Runs s (encB 0x23 0 true b) → LocalAt s.begun a 8 off → done (.st b) 8))
  ∧ ∀ (b : FrameB) (s : State),
    let u := s.begun
    let x := u.cx
    let c := u.core.cur
    let a := x.rd b.rs1 + b.imm.signExtend 64
    let v := x.rd b.rd
    let d (n : Nat) : List Byte := (List.range n).map fun i => v.extractLsb' (8 * i) 8
    let elsewhere (i : Instr) (major n : Nat) : Prop :=
      let e := encB major 0 true b
      Runs s e → a.toNat % n = 0 →
        (∀ off, MayAt u a off →
          (n = 8 → ∃ t, exec i s = .next t ∧ Stored u t off (d n) (x.pc + 4))
          ∧ (n < 8 → u.eccOf (off / 8) ≠ .bad →
              ∃ t, exec i s = .next t ∧ Stored ((u.lmGrant reqCore 1).eccCorrect [off / 8]) t off (d n) (x.pc + 4))
          ∧ (n < 8 → u.eccOf (off / 8) = .bad →
              RaisesAs i s ((u.lmGrant reqCore 1).eccFailed reqCore (some c) (off / 8)) e cMemData (wordAddr a (off / 8))))
        ∧ (∀ o, u.place a = .ctrl o →
            (n < 8 → Raises i s e cAlign a)
            ∧ (n = 8 → (u.mayWrite u.coreAcc o = false ∨ u.ownRefuses o v.toNat [(o, v.toNat)] = true) → Raises i s e cAccess a)
            ∧ (n = 8 → u.mayWrite u.coreAcc o = true → u.ownRefuses o v.toNat [(o, v.toNat)] = false →
                Completes i s (u.writeReg u.coreAcc o v).settle 4))
        ∧ ((u.place a).remote = true →
            ((u.lineBusy c a = true ∨ 16 ≤ (u.unacked c).length) → exec i s = .next u.settle)
            ∧ (u.lineBusy c a = false → (u.unacked c).length < 16 → Completes i s (u.postStore c a (d n)).settle 4))
    elsewhere (.sb b) 0x20 1 ∧ elsewhere (.sh b) 0x21 2 ∧ elsewhere (.sw b) 0x22 4 ∧ elsewhere (.st b) 0x23 8

/-- R124: a misaligned load or store raises ALIGN with its address; R31, R149, R194: a refused one raises ACCESS. -/
def Obligations.AccessRaises : Prop :=
  ∀ (b : FrameB) (s : State),
    let a := s.begun.cx.rd b.rs1 + b.imm.signExtend 64
    let traps (i : Instr) (major n : Nat) : Prop :=
      Runs s (encB major 0 true b) →
        (a.toNat % n ≠ 0 → Raises i s (encB major 0 true b) cAlign a)
        ∧ (a.toNat % n = 0 → RefusedAt s.begun a → Raises i s (encB major 0 true b) cAccess a)
    traps (.lb b) 0x18 1 ∧ traps (.lbu b) 0x19 1 ∧ traps (.lh b) 0x1A 2 ∧ traps (.lhu b) 0x1B 2 ∧ traps (.lw b) 0x1C 4
    ∧ traps (.lwu b) 0x1D 4 ∧ traps (.ld b) 0x1E 8 ∧ traps (.sb b) 0x20 1 ∧ traps (.sh b) 0x21 2 ∧ traps (.sw b) 0x22 4
    ∧ traps (.st b) 0x23 8

/-- R211: AADD and ACAS on own local memory: rd receives the old doubleword; the sum, or the swap value where the old one equals the
comparand, is stored; every other byte stays; a single error is corrected first, an uncorrectable one raises MEM_DATA. A misaligned
one raises ALIGN, a refused one, or one of the Bench, of control space or of external space, ACCESS; one of another node waits for
its own context's store to the line, then sends an ATOMIC and waits. R210: FENCE completes with no store failed or unacknowledged, raises ACCESS for the
oldest failed one, and waits for an unacknowledged one. Log entries of the model's own choices and readings here: 6, 24, 37, 50. -/
def Obligations.AtomicsAndFence : Prop :=
  (∀ (a : FrameA) (s : State) (off : Nat),
    let x := s.begun.cx
    let m (i : Nat) : Byte := s.begun.mem.byte (off + i)
    let old : Word := m 7 ++ m 6 ++ m 5 ++ m 4 ++ m 3 ++ m 2 ++ m 1 ++ m 0
    let d (v : Word) : List Byte := (List.range 8).map fun i => v.extractLsb' (8 * i) 8
    let done (i : Instr) (v : Word) : Prop :=
      ∃ t, exec i s = .next t ∧ Stored (s.begun.setCx (x.wr a.rd old)) t off (d v) (x.pc + 4)
    s.begun.place (x.rd a.rs1) = .lm off → LocalAt s.begun (x.rd a.rs1) 8 off →
      (Runs s (encA 0x28 0 0 true a) → done (.aadd a) (old + x.rd a.rs2))
      ∧ (Runs s (encA 0x28 1 0 true a) → done (.acas a) (if old = x.rd a.rs2 then x.rd a.rd else old)))
  ∧ (∀ (a : FrameA) (s : State),
    let u := s.begun
    let x := u.cx
    let c := u.core.cur
    let p := x.rd a.rs1
    let form (i : Instr) (op : Nat) (cas : Bool) : Prop :=
      let e := encA 0x28 op 0 true a
      let asks (w : Word) : Prop :=
        let t := ((u.invalSector p).tick).request (.atomic c) 5 0 p (if cas then 1 else 0) c (bytesOf 8 (x.rd a.rs2) ++ bytesOf 8 w)
        exec i s = .next (t.2.setCtx c { t.2.ctx c with wait := .atomic t.1 p a.rd (BitVec.ofNat 32 e.parcel) }).settle
      Runs s e →
        (p.toNat % 8 ≠ 0 → Raises i s e cAlign p)
        ∧ (p.toNat % 8 = 0 →
          (RefusedAt u p ∨ (∃ o, u.place p = .bench o) ∨ (∃ o, u.place p = .ctrl o) ∨ (∃ o, u.place p = .ext o)
            ∨ (∃ o, u.place p = .node o ∧ 0x400000 ≤ offOf o)) → Raises i s e cAccess p)
        ∧ (∀ off, p.toNat % 8 = 0 → u.place p = .lm off → u.pageOk c x.pl.toNat (pageOf off) = true →
            (u.eccOf (off / 8) = .bad →
              RaisesAs i s ((u.lmGrant reqCore 1).eccFailed reqCore (some c) (off / 8)) e cMemData (wordAddr p (off / 8)))
            ∧ (u.eccOf (off / 8) ≠ .bad → let old := u.dw off
                ∃ t, exec i s = .next t ∧ Stored (((u.lmGrant reqCore 1).eccCorrect [off / 8]).setCx (x.wr a.rd old)) t off
                  (bytesOf 8 (if cas then (if old = x.rd a.rs2 then x.rd a.rd else old) else old + x.rd a.rs2)) (x.pc + 4)))
        ∧ (∀ o, p.toNat % 8 = 0 → u.place p = .node o → offOf o < 0x400000 →
            (u.lineBusy c p = true → exec i s = .next u.settle)
            ∧ (u.lineBusy c p = false → cas = true → asks (x.rd a.rd))
            ∧ (u.lineBusy c p = false → cas = false → ∃ w, asks w))
    form (.aadd a) 0 false ∧ form (.acas a) 1 true)
  ∧ (∀ (a : FrameA) (s : State), Runs s (encA 0x39 6 0 true a) →
    let x := s.begun.cx
    (x.posted = [] → Answers (.fence a) s x (x.pc + 4))
    ∧ (∀ e r, x.posted = e :: r → (∀ p ∈ x.posted, p.answer ≠ none) → exec (.fence a) s =
        .next (((s.begun.setCx { x with posted := [] }).raise cAccess e.addr x.pc (BitVec.ofNat 32 (a.parcel 0x39 6))).taken))
    ∧ ((∃ p ∈ x.posted, p.answer = none) → exec (.fence a) s = .next s.begun))

/-! ### Branches, calls and quiet instructions -/

/-- R110, R116: B is taken on its condition's flags, to the word offset from its own address; J and JR always jump. -/
def Obligations.Jumps : Prop :=
  ∀ s : State,
    let x := s.begun.cx
    (∀ c : FrameC,
      let holds : Bool := [x.z, !x.z, x.n != x.v, x.n == x.v, !x.cf, x.cf, x.n, !x.n, x.v, !x.v, !x.z && x.n == x.v,
        x.z || x.n != x.v].getD c.cc.toNat false
      Runs s { parcel := c.parcel 0x30, len := 4, cond := 0, legal := c.cond = 0 && decide (c.cc.toNat < 0xC), level := 0, mx := false } →
        Answers (.b c) s x (if holds then x.pc + BitVec.ofInt 64 (4 * c.off.toInt) else x.pc + 4))
    ∧ (∀ c : FrameC,
      let e : Enc := { parcel := c.parcel 0x30, len := 4, cond := 0, legal := c.cond = 0 && decide (c.cc.toNat < 0xC), level := 0, mx := false }
      Issues s e → s.begun.fetchCause e = none → s.begun.fetchMiss e = none → 0xC ≤ c.cc.toNat → Raises (.b c) s e cIllegal x.pc)
    ∧ (∀ d : FrameD, Runs s (encD 0x31 true d) → Answers (.j d) s x (x.pc + BitVec.ofInt 64 (4 * d.off.toInt)))
    ∧ (∀ b : FrameB, Runs s (encB 0x33 0 (b.rd = 0) b) →
        let t := x.rd b.rs1 + b.imm.signExtend 64
        (t.toNat % 4 = 0 → Answers (.jr b) s x t) ∧ (t.toNat % 4 ≠ 0 → Raises (.jr b) s (encB 0x33 0 (b.rd = 0) b) cAlign t))

/-- R100, R102: CALL and CALLR push the return address, enter the next window and jump; RET undoes it. In fast mode all three raise
ILLEGAL, RET also in the spare window; CALL and CALLR first leave the spare window, raising FRAME_FAULT to M while the ring is full. -/
def Obligations.CallReturn : Prop :=
  ∀ s : State,
    let u := s.begun
    let x := u.cx
    let full (y : Ctx) : Prop := y.wvalid.getLsbD ((y.cwp.toNat + 2) % 8) = true
    let entered (y : Ctx) : Ctx := { y with
      reel := (if x.reel.length = 16 then x.reel.drop 1 else x.reel) ++ [x.pc + 4],
      cwp := y.cwp + 1, wvalid := y.wvalid ||| ((1 : BitVec 8) <<< ((y.cwp.toNat + 1) % 8)) }
    let calls (i : Instr) (e : Enc) (y : Ctx) (t : Word) : Prop :=
      (full y → RaisesAs i s (u.setCx y) e cWindowOvf 0)
      ∧ (¬ full y → x.reel.length = 16 → x.reelTrap = true → RaisesAs i s (u.setCx y) e cReelOvf 0)
      ∧ (¬ full y → (x.reel.length = 16 → x.reelTrap = false) → Answers i s (entered y) t)
    let moved (y : Ctx) : Prop := ∃ h k,
      y = { x with cwp := x.cwp + 1, spare := false, wvalid := x.wvalid ||| ((1 : BitVec 8) <<< ((x.cwp.toNat + 1) % 8)), h := h, k := k }
      ∧ (∀ i, tget 0 k i = if i / 4 = (x.cwp.toNat + 1) % 8 then tget 0 x.spareK (i % 4) else tget 0 x.k i)
      ∧ ∀ i, tget 0 h i = if i / 6 = (x.cwp.toNat + 2) % 8 then tget 0 x.spareF (i % 6) else tget 0 x.h i
    let call (i : Instr) (e : Enc) (t : Word) : Prop :=
      (x.spare = false → calls i e x t)
      ∧ (x.spare = true → full x → exec i s = .next ((u.raiseM cFrameFault 0 x.pc (BitVec.ofNat 32 e.parcel)).taken))
      ∧ (x.spare = true → ¬ full x → ∃ y, moved y ∧ calls i e y t)
    (∀ d : FrameD, let e := encD 0x32 true d
      Runs s e → (x.fast = true → Raises (.call d) s e cIllegal x.pc)
        ∧ (x.fast = false → call (.call d) e (x.pc + BitVec.ofInt 64 (4 * d.off.toInt))))
    ∧ (∀ b : FrameB, let e := encB 0x34 0 (b.rd = 0) b
      let t := x.rd b.rs1 + b.imm.signExtend 64
      Runs s e → (x.fast = true → Raises (.callr b) s e cIllegal x.pc)
        ∧ (x.fast = false → t.toNat % 4 ≠ 0 → Raises (.callr b) s e cAlign t)
        ∧ (x.fast = false → t.toNat % 4 = 0 → call (.callr b) e t))
    ∧ (∀ d : FrameD, let e := encD 0x35 (d.off = 0) d
      Runs s e → ((x.fast = true ∨ x.spare = true) → Raises (.ret d) s e cIllegal x.pc)
        ∧ (x.fast = false → x.spare = false →
          (x.reel = [] → Raises (.ret d) s e cReelUnf 0)
          ∧ (x.reel ≠ [] → x.wvalid.getLsbD ((x.cwp.toNat + 7) % 8) = false → Raises (.ret d) s e cWindowUnf 0)
          ∧ (∀ r ra, x.reel = r ++ [ra] → x.wvalid.getLsbD ((x.cwp.toNat + 7) % 8) = true →
              Answers (.ret d) s { x with reel := r, cwp := x.cwp - 1, wvalid := x.wvalid &&& ~~~((1 : BitVec 8) <<< x.cwp.toNat) } ra)))

/-- R111, R123, R125: PSET writes P alone; NOP and ISYNC change nothing. R136, R137: SYSC and BREAK complete as the raising of their
cause, the saved PC that of the next instruction. -/
def Obligations.QuietAndTraps : Prop :=
  (∀ s : State,
    let x := s.begun.cx
    (∀ c : FrameC,
      let v : Bool := [x.z, !x.z, x.n != x.v, x.n == x.v, !x.cf, x.cf, x.n, !x.n, x.v, !x.v, !x.z && x.n == x.v,
        x.z || x.n != x.v, !x.p, x.p, false, true].getD c.cc.toNat false
      Runs s { parcel := c.parcel 0x36, len := 4, cond := c.cond, legal := c.cc ≠ 0xD && c.off = 0, level := 0, mx := false } →
        Answers (.pset c) s { x with p := v } (x.pc + 4))
    ∧ (∀ a : FrameA, Runs s (encA 0x39 0 0 (a.rd = 0 && a.rs1 = 0 && a.rs2 = 0) a) → Answers (.nop (.nop a)) s x (x.pc + 4))
    ∧ (∀ a : FrameA, Runs s (encA 0x39 5 0 true a) → Answers (.isync a) s x (x.pc + 4)))
  ∧ (∀ s : State,
    let u := s.begun.perf 0x02 1 (some s.begun.core.cur)
    let pc := s.begun.cx.pc
    (∀ b : FrameB, Runs s (encB 0x38 0 (b.rd = 0 && b.rs1 = 0) b) →
      exec (.sysc b) s = .next ((u.raise cSyscall (b.imm.zeroExtend 64) (pc + 4) (BitVec.ofNat 32 (b.parcel 0x38))).taken))
    ∧ (∀ a : FrameA, Runs s (encA 0x39 4 0 true a) →
      exec (.brk a) s = .next ((u.raise cBreak pc (pc + 4) (BitVec.ofNat 32 (a.parcel 0x39 4))).taken))
    ∧ Like s.begun u)

/-! ### Exceptions -/

/-- R140, R141: normal entry writes the 64-byte frame below XSP, records the cause, opens the next window or the spare one,
raises the level and goes to the vector; flags and every other byte stay. While SPARE = 1 it is a Bench entry with reason 4 and no
address, and where R142 refuses the frame one with the reason of the first check that fails. -/
def Obligations.NormalEntry : Prop :=
  ∀ (s : State) (id : CtxId) (c T : Nat) (a pc : Word) (inst : Word32),
    let x := (s.ctx id).flush
    let f := x.xsp T - 64
    let t := s.normalEntry id c T a pc inst
    let y := t.ctx id
    let word (i : Nat) : Nat := leNat (t.mem.read (s.frameOff f + 8 * i) 8)
    let u := s.setCtx id x
    let refused (r : Nat) : Prop := t = u.benchEntry id c T a pc f r inst
    let sp := (x.xsp T).toNat
    let inside : Prop := (x.xsbase T).toNat ≤ f.toNat ∧ sp ≤ (x.xslimit T).toNat
    let page (tag : Nat) : Prop := tag = id.num ∨ (T = 2 ∧ tag = 3)
    (x.spare = true → t = u.benchEntry id c T a pc 0 4 inst)
    ∧ (x.spare = false →
      (sp % 64 ≠ 0 → refused 0) ∧ (sp % 64 = 0 → ¬ inside → refused 1) ∧ (sp % 64 = 0 → inside → s.local? f 64 = none → refused 2)
      ∧ ∀ off, sp % 64 = 0 → inside → s.local? f 64 = some off → ¬ page (s.g (F.pageTag (pageOf off))) → refused 3)
    ∧ ((T = 1 ∨ T = 2) → x.spare = false → u.frameCheck id f T = none →
      y.pc = x.xvec T ∧ y.pl = BitVec.ofNat 2 T ∧ y.fast = false ∧ y.ie = false ∧ y.p = false ∧ y.xsp T = f
      ∧ (y.n, y.z, y.cf, y.v) = (x.n, x.z, x.cf, x.v) ∧ y.xnest = (if x.xnest = BitVec.allOnes 32 then x.xnest else x.xnest + 1)
      ∧ (if T = 1 then y.xcauseS = BitVec.ofNat 9 (c + if c ≥ 0x20 then 256 else 0) ∧ y.xaddrS = a
          else y.xcauseM = BitVec.ofNat 9 (c + if c ≥ 0x20 then 256 else 0) ∧ y.xaddrM = a)
      ∧ (if x.wvalid.getLsbD ((x.cwp.toNat + 2) % 8) then y.spare = true ∧ y.cwp = x.cwp ∧ y.wvalid = x.wvalid
          else y.spare = false ∧ y.cwp = x.cwp + 1 ∧ y.wvalid = x.wvalid ||| ((1 : BitVec 8) <<< ((x.cwp.toNat + 1) % 8)))
      ∧ word 0 = pc.toNat ∧ word 1 = pstatNat id x ∧ word 2 = (c + if c ≥ 0x20 then 256 else 0) % 2 ^ 64 ∧ word 3 = a.toNat
      ∧ word 4 = (x.wvalid.toNat + 256 * x.reel.length + 2 ^ 32 * y.xnest.toNat) % 2 ^ 64 ∧ word 5 = x.zpc.toNat ∧ word 6 = x.zst.toNat
      ∧ word 7 = (if c = cIllegal ∨ c = cPriv ∨ c = cAlign ∨ c = cAccess ∨ c = cMemData then inst.toNat else 0)
      ∧ (∀ b, (b < s.frameOff f ∨ s.frameOff f + 64 ≤ b) → t.mem.byte b = s.mem.byte b)
      ∧ t.ctx id.other = s.ctx id.other ∧ t.core.cur = s.core.cur)

/-- R145: fast entry saves the PC and status in ZPC and ZST, goes to the vector in fast mode with P set, and writes no
memory. -/
def Obligations.FastEntry : Prop :=
  ∀ (s : State) (id : CtxId) (c T : Nat) (a pc : Word) (inst : Word32),
    let x := (s.ctx id).flush
    let t := s.enter id c T a pc inst
    let y := t.ctx id
    (cWindowOvf ≤ c → c ≤ cReelUnf → x.zbusy = true → t = s.normalEntry id c T 0 pc inst)
    ∧ ((T = 1 ∨ T = 2) → (c = cDoorbell ∨ c = cMessage ∨ (cWindowOvf ≤ c ∧ c ≤ cReelUnf ∧ x.zbusy = false)) →
      y.zpc = pc ∧ y.zst = (BitVec.ofNat 64 (pstatNat id x + 2 ^ 32 * c) &&& zstMask) ∧ y.zbusy = true ∧ y.pl = BitVec.ofNat 2 T
      ∧ y.fast = true ∧ y.ie = false ∧ y.p = true ∧ y.pc = x.xvec T ∧ y.cwp = x.cwp ∧ y.wvalid = x.wvalid ∧ y.xnest = x.xnest
      ∧ y.xcauseS = x.xcauseS ∧ y.xcauseM = x.xcauseM ∧ y.xaddrS = x.xaddrS ∧ y.xaddrM = x.xaddrM
      ∧ (y.n, y.z, y.cf, y.v) = (x.n, x.z, x.cf, x.v)
      ∧ (∀ b, t.mem.byte b = s.mem.byte b) ∧ t.ctx id.other = s.ctx id.other ∧ t.core.cur = s.core.cur
      ∧ (∀ r : BitVec 5, y.loc r = if r = 0 then .zero else if r.toNat < 4 then .g r.toNat else .z (r.toNat % 16)))

/-- R150: Bench entry while the Bench is busy is a checkstop: the node is fenced with REASON 1, unless a fence already
holds it. R148, R149: where it is free, the entry writes the frame, the Bench record and Z0 to Z15 to the last 256 bytes of local
memory, takes the Bench, and goes to the vector of M in fast mode. R140: an entry while SPARE = 1 comes to it with FAILSP 0 and
reason 4, one whose frame R142 refuses with the frame's address and the reason. -/
def Obligations.BusyBenchCheckstops : Prop :=
  ∀ (s : State) (id : CtxId) (c T : Nat) (a pc f : Word) (r : Nat) (inst : Word32),
    let t := s.benchEntry id c T a pc f r inst
    let came := (s.ctx id).flush
    let v := s.setCtx id came
    (came.spare = true → s.normalEntry id c T a pc inst = v.benchEntry id c T a pc 0 4 inst)
    ∧ (came.spare = false → f = came.xsp T - 64 → v.frameCheck id f T = some r → s.normalEntry id c T a pc inst = v.benchEntry id c T a pc f r inst)
    ∧ (s.core.benchBusy = true → s.isFenced = false → t.isFenced = true ∧ t.g F.reason = 1 ∧ t.pins.faultOutN = false)
    ∧ (s.core.benchBusy = false →
      let x := s.ctx id
      let y := t.ctx id
      let word (i : Nat) : Nat := leNat (t.mem.read (benchBase + 8 * i) 8)
      y.pc = x.xvecM ∧ y.pl = 2 ∧ y.fast = true ∧ y.ie = false ∧ y.p = true ∧ y.zbusy = true
      ∧ y.xnest = (if x.xnest = BitVec.allOnes 32 then x.xnest else x.xnest + 1) ∧ y.xcauseM = 0x0D ∧ y.xaddrM = f
      ∧ (∀ i, i < 64 → y.zst.getLsbD i = if 32 ≤ i ∧ i < 40 then Nat.testBit 0x0D (i - 32) else x.zst.getLsbD i)
      ∧ y.zpc = x.zpc ∧ y.cwp = x.cwp ∧ y.wvalid = x.wvalid ∧ y.spare = x.spare ∧ y.xspM = x.xspM ∧ y.xspS = x.xspS
      ∧ y.xcauseS = x.xcauseS ∧ y.xaddrS = x.xaddrS ∧ (y.n, y.z, y.cf, y.v) = (x.n, x.z, x.cf, x.v) ∧ y.zb = x.zb
      ∧ t.core.benchBusy = true ∧ t.core.benchCtx = id ∧ t.core.benchDepth = y.xnest ∧ t.core.cur = s.core.cur
      ∧ t.ctx id.other = s.ctx id.other
      ∧ word 0 = pc.toNat ∧ word 1 = pstatNat id x ∧ word 2 = (c + if c ≥ 0x20 then 256 else 0) % 2 ^ 64 ∧ word 3 = a.toNat
      ∧ word 4 = (x.wvalid.toNat + 256 * x.reel.length + 2 ^ 32 * y.xnest.toNat) % 2 ^ 64 ∧ word 5 = x.zpc.toNat ∧ word 6 = x.zst.toNat
      ∧ word 7 = (if c = cIllegal ∨ c = cPriv ∨ c = cAlign ∨ c = cAccess ∨ c = cMemData then inst.toNat else 0)
      ∧ word 8 = f.toNat
      ∧ word 9 = (c + 256 * T + 1024 * id.num + 4096 * r + 32768 * (if x.zbusy then 1 else 0)) % 2 ^ 64
      ∧ word 10 = s.g F.ltime ∧ (∀ i, 11 ≤ i → i < 16 → word i = 0) ∧ (∀ i, i < 16 → word (16 + i) = (tget 0 x.zb i).toNat)
      ∧ ∀ b, (b < benchBase ∨ benchBase + 256 ≤ b) → t.mem.byte b = s.mem.byte b)

/-- R151, R511: the fast return restores PC and status from ZPC and ZST and clears ZBUSY; the frame return restores them from the frame
at XSP and pops it; a level or context the saved status may not name, a frame out of place or in a page the context may not read
raises RET_PRIV, a window no longer live WINDOW_UNF, a transfer that fails MEM_DATA at M; the Bench return restores the Bench's record
and Z registers and frees it (that a saved level 3 is restored as it stands is the model's choice, log entry 68); no byte changes.
R166, R153: a return that comes back to the level and depth of XBACK gives issue back to the other context where it may run, and the
next instruction's boundary is deferred. Log entries of the model's own choices and readings here: 36, 38, 43, 68. -/
def Obligations.ExceptionReturn : Prop :=
  (∀ (a : FrameA) (s : State),
    let x := s.begun.cx
    let z := x.zst.toNat
    let id := s.core.cur
    let o := s.begun.ctx id.other
    Runs s (encA 0x39 1 1 true a) → x.fast = true →
    ¬ (x.pl = 2 ∧ s.begun.core.benchBusy = true ∧ s.begun.core.benchCtx = id ∧ x.xnest = s.begun.core.benchDepth) →
      ((bits z 0 2 > x.pl.toNat ∨ bits z 3 1 ≠ id.num) → Raises (.eret a) s (encA 0x39 1 1 true a) cRetPriv 0)
      ∧ (bits z 0 2 ≤ x.pl.toNat → bits z 3 1 = id.num → ∃ t, exec (.eret a) s = .next t ∧
          let y := t.ctx id
          y.pc = x.zpc ∧ y.pl = BitVec.ofNat 2 z ∧ y.fast = false ∧ y.zbusy = false ∧ y.cwp = BitVec.ofNat 3 (z / 16)
          ∧ y.spare = bit z 7 ∧ (y.n, y.z, y.cf, y.v) = (bit z 8, bit z 9, bit z 10, bit z 11) ∧ y.p = bit z 12 ∧ y.ie = bit z 16
          ∧ y.wvalid = x.wvalid ∧ y.reel = x.reel ∧ y.xnest = x.xnest
          ∧ (if x.xback = true ∧ BitVec.ofNat 2 z = x.xbpl ∧ x.xnest = x.xbdepth then
              y.xback = false ∧ t.core.cur = (if s.core.run.getLsbD id.other.num = true ∧ (o.wait = .wfe → o.latch = true) then id.other else id)
            else y.xback = x.xback ∧ t.core.cur = id)
          ∧ (t.ctx t.core.cur).afterEret = true ∧ ∀ b, t.mem.byte b = s.mem.byte b))
  ∧ (∀ (a : FrameA) (s : State),
    let u := s.begun
    let x := u.cx
    let id := s.core.cur
    let img := u.mem.read benchBase 256
    let p := field img 8 8
    Runs s (encA 0x39 1 1 true a) → x.fast = true → x.pl = 2 → u.core.benchBusy = true → u.core.benchCtx = id → x.xnest = u.core.benchDepth →
      (∀ w v, u.lmRead reqCore (some id) benchBase 256 = (.error w, v) → exec (.eret a) s =
        .next ((v.raiseM cMemData (BitVec.ofNat 64 (8 * w)) x.pc (BitVec.ofNat 32 (a.parcel 0x39 1))).taken))
      ∧ ((∀ w ∈ eccWords benchBase 256, u.eccOf w = .good) → ∃ t, exec (.eret a) s = .next t ∧
          let y := t.ctx id
          y.pc = BitVec.ofNat 64 (field img 0 8) ∧ y.pl = BitVec.ofNat 2 p ∧ y.fast = bit p 2 ∧ y.cwp = BitVec.ofNat 3 (p / 16)
          ∧ y.spare = bit p 7 ∧ (y.n, y.z, y.cf, y.v) = (bit p 8, bit p 9, bit p 10, bit p 11) ∧ y.p = bit p 12 ∧ y.ie = bit p 16
          ∧ y.zpc = BitVec.ofNat 64 (field img 0x28 8) ∧ y.zst = BitVec.ofNat 64 (field img 0x30 8) &&& zstMask
          ∧ y.zbusy = bit (field img 0x48 8) 15 ∧ y.xnest = x.xnest - 1 ∧ y.wvalid = x.wvalid ∧ y.reel = x.reel
          ∧ (∀ i, i < 16 → tget 0 y.zb i = BitVec.ofNat 64 (field img (128 + 8 * i) 8))
          ∧ y.xback = (x.xback && !decide (y.pl = x.xbpl ∧ y.xnest = x.xbdepth))
          ∧ t.core.benchBusy = false ∧ t.core.cur = id ∧ y.afterEret = true ∧ ∀ b, t.mem.byte b = s.mem.byte b))
  ∧ (∀ (a : FrameA) (s : State) (off : Nat),
    let x := s.begun.cx
    let id := s.core.cur
    let T := x.pl.toNat
    let sp := x.xsp T
    let word (i : Nat) : Nat := leNat (s.begun.mem.read (off + 8 * i) 8)
    let p := word 1
    let o := s.begun.ctx id.other
    let placed : Prop := x.xnest ≠ 0 ∧ sp.toNat % 64 = 0 ∧ sp.toNat + 64 ≤ (x.xslimit T).toNat
    let read : Prop := placed ∧ s.begun.local? sp 64 = some off ∧ s.begun.pageOk id T (pageOf off) = true
    let good : Prop := read ∧ ∀ w ∈ eccWords off 64, s.begun.eccOf w = .good
    let raises (c : Nat) (at0 : Word) : Prop := ∃ v, Like s.begun v ∧
      exec (.eret a) s = .next ((v.raise c at0 x.pc (BitVec.ofNat 32 (a.parcel 0x39 1))).taken)
    Runs s (encA 0x39 1 1 true a) → x.fast = false →
      ((x.xnest = 0 ∨ sp.toNat % 64 ≠ 0 ∨ (x.xslimit T).toNat < sp.toNat + 64) → Raises (.eret a) s (encA 0x39 1 1 true a) cRetPriv sp)
      ∧ (placed → s.begun.local? sp 64 = none → Raises (.eret a) s (encA 0x39 1 1 true a) cRetPriv sp)
      ∧ (placed → s.begun.local? sp 64 = some off → s.begun.pageOk id T (pageOf off) = false → Raises (.eret a) s (encA 0x39 1 1 true a) cRetPriv sp)
      ∧ (∀ w v, read → s.begun.lmRead reqCore (some id) off 64 = (.error w, v) → exec (.eret a) s =
          .next ((v.raiseM cMemData (wordAddr sp w) x.pc (BitVec.ofNat 32 (a.parcel 0x39 1))).taken))
      ∧ (good → (T < bits p 0 2 ∨ bits p 3 1 ≠ id.num) → raises cRetPriv sp)
      ∧ (good → bits p 0 2 ≤ T → bits p 3 1 = id.num → x.spare = false → x.wvalid.getLsbD (bits p 4 3 % 8) = false → raises cWindowUnf 0)
      ∧ (x.xnest ≠ 0 → sp.toNat % 64 = 0 → sp.toNat + 64 ≤ (x.xslimit T).toNat → s.begun.local? sp 64 = some off →
          s.begun.pageOk id T (pageOf off) = true → (∀ w ∈ eccWords off 64, s.begun.eccOf w = .good) →
          bits p 0 2 ≤ T → bits p 3 1 = id.num → (x.spare = false → x.wvalid.getLsbD (bits p 4 3 % 8) = true) →
            ∃ t, exec (.eret a) s = .next t ∧
              let y := t.ctx id
              y.pc = BitVec.ofNat 64 (word 0) ∧ y.pl = BitVec.ofNat 2 p ∧ y.fast = bit p 2 ∧ y.cwp = BitVec.ofNat 3 (p / 16)
              ∧ y.spare = bit p 7 ∧ (y.n, y.z, y.cf, y.v) = (bit p 8, bit p 9, bit p 10, bit p 11) ∧ y.p = bit p 12
              ∧ y.ie = bit p 16 ∧ y.xnest = x.xnest - 1 ∧ y.xsp T = sp + 64 ∧ y.reel = x.reel
              ∧ y.wvalid = (if x.spare = true ∨ x.cwp.toNat = bits p 4 3 then x.wvalid else x.wvalid &&& ~~~((1 : BitVec 8) <<< x.cwp.toNat))
              ∧ y.zpc = (if bit p 2 then BitVec.ofNat 64 (word 5) else x.zpc)
              ∧ y.zst = (if bit p 2 then BitVec.ofNat 64 (word 6) &&& zstMask else x.zst)
              ∧ (if x.xback = true ∧ BitVec.ofNat 2 p = x.xbpl ∧ x.xnest - 1 = x.xbdepth then
                  y.xback = false ∧ t.core.cur = (if s.core.run.getLsbD id.other.num = true ∧ (o.wait = .wfe → o.latch = true) then id.other else id)
                else y.xback = x.xback ∧ t.core.cur = id)
              ∧ (t.ctx t.core.cur).afterEret = true ∧ ∀ b, t.mem.byte b = s.mem.byte b))

/-! ### Contexts and system registers -/

/-- R164, R128: CSWITCH stops the issuing context behind itself and lets the other issue; it does nothing while the other may
not run, and is ILLEGAL in fast mode and in the spare window. WFE consumes the latch or begins to wait; WFE_WAKE ends the wait. Both look
at the pending causes first (R157).
Log entries of the model's own choices and readings here: 3, 29, 43, 50. -/
def Obligations.ContextSwitch : Prop :=
  ∀ (a : FrameA) (s : State),
    let u := s.begun
    let x := u.cx
    let o := u.core.cur.other
    let w := u.refresh
    let y := w.ctx o
    (Runs s (encA 0x39 2 1 true a) →
      ((x.fast = true ∨ x.spare = true) → Raises (.cswitch a) s (encA 0x39 2 1 true a) cIllegal x.pc)
      ∧ (x.fast = false → x.spare = false → (u.core.run.getLsbD o.num = false ∨ (y.wait = .wfe ∧ y.latch = false)) →
          Answers (.cswitch a) s x (x.pc + 4))
      ∧ (x.fast = false → x.spare = false → u.core.run.getLsbD o.num = true → (y.wait = .wfe → y.latch = true) →
          Leaves (.cswitch a) s ((u.setCx { x.flush with pc := x.pc + 4, afterEret := false }).onCore fun k => { k with cur := o })))
    ∧ (Runs s (encA 0x39 3 0 true a) →
      (w.cx.latch = true → Completes (.wfe a) s (w.setCx { w.cx with latch := false }) 4)
      ∧ (w.cx.latch = false → Yields (.wfe a) s (w.setCx { w.cx with wait := .wfe })))
    ∧ (if s.inRun ∧ s.nodeRuns ∧ s.core.run.getLsbD s.core.cur.num ∧ s.cx.wait = .wfe ∧ s.cx.latch then
        Leaves .wfeWake s ((s.put F.psSrc 1).setCx
          { ({ s.cx with latch := false, wait := .run } : Ctx).age with pc := s.cx.pc + 4, afterEret := false }).leaveN1
      else exec .wfeWake s = .next s)

/-- R129, R130, R157, R510: MOVS gives rd the register it names; below the register's read level it raises PRIV_INSTR, and a
number R129 does not list raises ILLEGAL. XPEND reads as its sources stand. R174: a MOVS or MOVC from 0x300 to 0x4FF waits while a Chest
operation is under way. Log entries of the model's own choices and readings here: 50. -/
def Obligations.SystemReads : Prop :=
  ∀ (b : FrameB) (s : State), Runs s (encB 0x3A 0 true b) →
    let u := s.begun
    let x := u.cx
    let k := u.core
    let m := u.mx
    let n := b.imm.toNat
    let nat (v : Nat) : Word := BitVec.ofNat 64 v
    let bool (v : Bool) : Nat := if v then 1 else 0
    let ans (v : Word) : Prop := Answers (.movs b) s (x.wr b.rd v) (x.pc + 4)
    let regs : List (Nat × Nat × Word) :=
      [(0x000, 0, nat (x.pl.toNat + 4 * bool x.fast + 8 * k.cur.num + 16 * x.cwp.toNat + 128 * bool x.spare + 256 * bool x.n
          + 512 * bool x.z + 1024 * bool x.cf + 2048 * bool x.v + 4096 * bool x.p + 65536 * bool x.ie)),
       (0x008, 1, x.wvalid.zeroExtend 64), (0x009, 1, x.wsp), (0x00A, 1, x.wslimit), (0x010, 1, nat (bool x.reelTrap)),
       (0x011, 1, x.reelsp), (0x012, 0, nat x.reel.length), (0x020, 0, x.mpl), (0x021, 0, x.mph), (0x100, 1, x.xvecS),
       (0x101, 2, x.xvecM), (0x102, 1, x.xcauseS.zeroExtend 64), (0x103, 1, x.xaddrS), (0x104, 1, x.xspS), (0x105, 1, x.xsbaseS),
       (0x106, 1, x.xslimitS), (0x108, 2, x.xcauseM.zeroExtend 64), (0x109, 2, x.xaddrM), (0x10A, 2, x.xspM), (0x10B, 2, x.xsbaseM),
       (0x10C, 2, x.xslimitM), (0x110, 1, x.xnest.zeroExtend 64), (0x111, 2, x.xdeleg), (0x112, 1, x.xien.zeroExtend 64),
       (0x113, 1, (u.pendNow k.cur).zeroExtend 64), (0x118, 1, x.zpc), (0x119, 1, x.zst), (0x11A, 1, nat (bool x.zbusy)),
       (0x120, 2, nat (bool k.benchBusy + 2 * k.benchCtx.num + 2 ^ 32 * k.benchDepth.toNat)),
       (0x200, 2, nat (k.run.toNat + 4 * k.xpre.toNat)), (0x201, 2, 0),
       (0x202, 1, nat (bool x.xback + 2 * x.xbpl.toNat + 2 ^ 32 * x.xbdepth.toNat)), (0x208, 1, nat k.mxOwner.num),
       (0x209, 1, nat (k.mxDirty.toNat + 256 * bool k.mxCfg)), (0x210, 2, k.chestBase0.zeroExtend 64),
       (0x211, 2, k.chestBase1.zeroExtend 64), (0x212, 2, 0), (0x213, 2, nat (bool k.chestOp.isSome + 2 * k.chestErr.toNat)),
       (0x214, 2, k.chestXa), (0x215, 2, k.chestCtr0), (0x216, 2, k.chestCtr1), (0x217, 2, k.chestXctr), (0x500, 0, nat (u.g F.ltime)),
       (0x501, 1, nat (u.kenergy k.cur))]
    let unit : List (Nat × Word) :=
      [(0x308, nat (bool m.ovf + 2 * bool m.inv)), (0x309, x.srstate.zeroExtend 64), (0x310, m.mode.zeroExtend 64),
       (0x311, nat (accStat m.acc)), (0x312, m.acc.lossCnt), (0x313, m.acc.repCnt)]
    (∀ e ∈ regs, n = e.1 → (x.pl.toNat < e.2.1 → Raises (.movs b) s (encB 0x3A 0 true b) cPriv x.pc) ∧ (e.2.1 ≤ x.pl.toNat → ans e.2.2))
    ∧ (k.chestOp = none → k.mxOwner = k.cur →
        (∀ e ∈ unit, n = e.1 → ans e.2)
        ∧ (0x300 ≤ n → n ≤ 0x307 → ans ((tget 0 m.scale (n - 0x300)).zeroExtend 64))
        ∧ (0x320 ≤ n → n ≤ 0x33F → ans (if n - 0x320 < regCount m.mode.toNat then
            nat ((m.tag (n - 0x320)).rows.toNat + 2 ^ 8 * (m.tag (n - 0x320)).bpr.toNat + 2 ^ 16 * (m.tag (n - 0x320)).fmt.toNat) else 0))
        ∧ (0x340 ≤ n → n ≤ 0x37F → ans ((tget 0 m.ehist (n - 0x340)).zeroExtend 64)))
    ∧ ((∀ e ∈ regs, n ≠ e.1) → (∀ e ∈ unit, n ≠ e.1) → (n < 0x300 ∨ 0x307 < n) → (n < 0x320 ∨ 0x37F < n) →
        (n < 0x300 ∨ 0x4FF < n ∨ k.chestOp = none) → Raises (.movs b) s (encB 0x3A 0 true b) cIllegal x.pc)
    ∧ (0x300 ≤ n → n ≤ 0x4FF → k.chestOp ≠ none → exec (.movs b) s = .next s)
    ∧ ∀ b' : FrameB, 0x300 ≤ b'.imm.toNat → b'.imm.toNat ≤ 0x4FF → k.chestOp ≠ none → exec (.movc b') s = .next s

/-- R131, R132, R133, R157: MOVC writes the writable bits of the context's own register it names, and nothing where the
register is read-only; below the register's write level it raises PRIV_INSTR. Log entries of the model's own choices and readings here:
36. -/
def Obligations.SystemWrites : Prop :=
  ∀ (b : FrameB) (s : State), Runs s (encB 0x3B 0 (b.rs1 = 0) b) →
    let x := s.begun.cx
    let n := b.imm.toNat
    let v := x.rd b.rd
    let live : BitVec 8 := v.setWidth 8 ||| (1 <<< x.cwp.toNat)
    let ien : BitVec 7 := if x.pl = 1 then x.xdeleg.extractLsb' 32 7 else BitVec.allOnes 7
    let regs : List (Nat × Nat × Ctx) :=
      [(0x000, 0, { x with n := v.getLsbD 8, z := v.getLsbD 9, cf := v.getLsbD 10, v := v.getLsbD 11, p := v.getLsbD 12,
                           ie := if x.pl = 0 then x.ie else v.getLsbD 16 }),
       (0x008, 1, { x with wvalid := live }), (0x009, 1, { x with wsp := v }), (0x00A, 1, { x with wslimit := v }),
       (0x010, 1, { x with reelTrap := v.getLsbD 0 }), (0x011, 1, { x with reelsp := v }),
       (0x012, 1, if v.toNat % 32 < x.reel.length then { x with reel := x.reel.take (v.toNat % 32) } else x),
       (0x020, 0, { x with mpl := v, prods := x.prods.map fun p => { p with lo := none } }),
       (0x021, 0, { x with mph := v, prods := x.prods.map fun p => { p with hi := none } }),
       (0x100, 1, { x with xvecS := v &&& ~~~63 }), (0x101, 2, { x with xvecM := v &&& ~~~63 }),
       (0x102, 1, { x with xcauseS := v.setWidth 9 }), (0x103, 1, { x with xaddrS := v }), (0x104, 1, { x with xspS := v }),
       (0x105, 1, { x with xsbaseS := v }), (0x106, 1, { x with xslimitS := v }), (0x108, 2, { x with xcauseM := v.setWidth 9 }),
       (0x109, 2, { x with xaddrM := v }), (0x10A, 2, { x with xspM := v }), (0x10B, 2, { x with xsbaseM := v }),
       (0x10C, 2, { x with xslimitM := v }), (0x110, 1, x), (0x111, 2, { x with xdeleg := v &&& 0x7F0006CFFE }),
       (0x112, 1, { x with xien := (x.xien &&& ~~~ien) ||| (v.setWidth 7 &&& ien) }), (0x113, 1, x), (0x118, 1, { x with zpc := v }),
       (0x119, 1, { x with zst := v &&& zstMask }), (0x11A, 1, x), (0x202, 1, x), (0x208, 1, x), (0x209, 1, x), (0x213, 2, x),
       (0x500, 0, x), (0x501, 1, x)]
    (∀ e ∈ regs, n = e.1 → (x.pl.toNat < e.2.1 → Raises (.movc b) s (encB 0x3B 0 (b.rs1 = 0) b) cPriv x.pc)
      ∧ (e.2.1 ≤ x.pl.toNat → Answers (.movc b) s e.2.2 (x.pc + 4)))
    ∧ (n = 0x309 → s.begun.core.chestOp = none → s.begun.core.mxOwner = s.begun.core.cur →
        Answers (.movc b) s { x with srstate := if v.setWidth 32 = 0 then 1 else v.setWidth 32 } (x.pc + 4))

/-- R106, R162, R163, R245, R246 and the node's registers of R157, R174, R181, R231, R281: the writes that reach beyond the context.
Log entries of the model's own choices and readings here: 64, 93, 95. -/
def Obligations.NodeRegisterWrites : Prop :=
  ∀ (b : FrameB) (s : State),
    let u := s.begun
    let x := u.cx
    let k := u.core
    let m := u.mx
    let v := x.rd b.rd
    let runs (n : BitVec 12) : Prop := Runs s (encB 0x3B 0 (b.rs1 = 0) { b with imm := n })
    let movc (n : BitVec 12) : Instr := .movc { b with imm := n }
    let o := CtxId.named v.toNat
    let own : Prop := k.chestOp = none ∧ k.mxOwner = k.cur
    (runs 0x012 → 1 ≤ x.pl.toNat → Answers (.rdepthWrite b) s
        (if v.toNat % 32 < x.reel.length then { x with reel := x.reel.take (v.toNat % 32) } else x) (x.pc + 4))
    ∧ (runs 0x200 → x.pl = 2 → Completes (.ctxctlWrite b) s
        { u with core := { k with run := v.setWidth 2 ||| (1 <<< k.cur.num), xpre := v.extractLsb' 2 2 } } 4)
    ∧ (runs 0x201 → x.pl = 2 →
        (o = k.cur → Answers (.ctxstart b) s x (x.pc + 4))
        ∧ (o ≠ k.cur → let w := u.purge
          Completes (.ctxstart b) s { (w.setCtx o { Ctx.reset with pc := v &&& ~~~3 }).onCore fun k => { k with run := k.run ||| (1 <<< o.num) } with
            mx := { w.mx with tags := [] },
            qe := { w.qe with imq := w.qe.imq.filter fun e => e.ctx ≠ o, timers := tput 0 w.qe.timers (1 + o.num) 0 } } 4))
    ∧ (runs 0x310 → own →
        (v.toNat % 4 = 3 → Answers (.tcfgWrite b) s x (x.pc + 4))
        ∧ (v.toNat % 4 ≠ 3 → Completes (.tcfgWrite b) s { u with
            mx := { m with mode := v.setWidth 2, file := [], tags := [] }, core := { k with mxDirty := k.mxDirty &&& 0xF0, mxCfg := true } } 4))
    ∧ (∀ e ∈ [((0x120 : BitVec 12), { k with benchBusy := k.benchBusy && !v.getLsbD 0 }), (0x210, { k with chestBase0 := v.setWidth 8 }),
          (0x211, { k with chestBase1 := v.setWidth 8 }), (0x214, { k with chestXa := v &&& ~~~63 }), (0x215, { k with chestCtr0 := v }),
          (0x216, { k with chestCtr1 := v }), (0x217, { k with chestXctr := v })],
        runs e.1 → x.pl = 2 → Completes (movc e.1) s { u with core := e.2 } 4)
    ∧ (∀ e ∈ [((0x308 : BitVec 12), (7 : Nat), { m with ovf := m.ovf && !v.getLsbD 0, inv := m.inv && !v.getLsbD 1 }),
          (0x311, 4, { m with acc := { m.acc with loss := m.acc.loss && !v.getLsbD 2, sat := m.acc.sat && !v.getLsbD 3 } }),
          (0x312, 4, { m with acc := { m.acc with lossCnt := v } }), (0x313, 4, { m with acc := { m.acc with repCnt := v } })],
        runs e.1 → own → Completes (movc e.1) s { u with mx := e.2.2, core := { k with mxDirty := k.mxDirty ||| (1 <<< e.2.1) } } 4)
    ∧ (∀ i, i < 8 → runs (BitVec.ofNat 12 (0x300 + i)) → own → Completes (movc (BitVec.ofNat 12 (0x300 + i))) s { u with
        mx := { m with scale := tput 0 m.scale i (v.setWidth 32) }, core := { k with mxDirty := k.mxDirty ||| 0x80 } } 4)
    ∧ (∀ i, i < 64 → runs (BitVec.ofNat 12 (0x340 + i)) → own → Completes (movc (BitVec.ofNat 12 (0x340 + i))) s { u with
        mx := { m with ehist := tput 0 m.ehist i (v.setWidth 32) }, core := { k with mxDirty := k.mxDirty ||| 0x80 } } 4)
    ∧ (∀ i, i < 32 → runs (BitVec.ofNat 12 (0x320 + i)) → own → Answers (movc (BitVec.ofNat 12 (0x320 + i))) s x (x.pc + 4))

/-! ### The Chest -/

/-- R172 to R174: a write of CHESTCMD begins an operation, whose outcome CHEST_OPERATION_DONE puts into CHESTSTAT: TAG where the
pages of the Chest carry other tags; ERASE zeroes the Chest; SAVE and DISCARD clean the groups of the mask, SAVE having stored
the dirty ones; HANDOVER of a clean state gives it to the context, each group restored from its image or zeroed. A header that cannot
be read ends with DATA; so does what HANDOVER cannot read of a group, and what no register can take ends with FORMAT, both before
anything has changed (the first group that fails decides: log entry 70); a group whose read fails later leaves every group zero and
its VALID bit clear. SPILL and FILL without a key end with KEY. A write that holds a reserved OP, and any write while an operation is
under way, begins nothing. Log entries of the model's own choices and readings here: 49, 69, 70, 72, 99. -/
def Obligations.ChestOperations : Prop :=
  ∀ (b : FrameB) (s : State),
    let u := s.begun
    let x := u.cx
    let k := u.core
    let v := x.rd b.rd
    let c := CtxId.named (v.toNat / 16)
    let mask : BitVec 8 := v.extractLsb' 8 8
    let base (c : CtxId) : Nat := 16384 * (match c with | .c0 => k.chestBase0 | .c1 => k.chestBase1).toNat
    let tags (c : CtxId) : Prop := base c ≤ 16384 * 251 ∧ ∀ i, i < 5 →
      u.g (F.pageTag (base c / 16384 + i)) = c.num ∨ u.g (F.pageTag (base c / 16384 + i)) = 3
    let good (at0 n : Nat) : Prop := ∀ w ∈ eccWords at0 n, u.eccOf w ≠ .bad
    let valid : BitVec 8 := u.mem.byte (base c + 1)
    let mode : BitVec 2 := (u.mem.byte (base c + 2)).setWidth 2
    let gs : List Nat := groupsOf (mask &&& valid)
    let unread (g : Nat) : Prop := (g < 4 ∧ ¬ good (base c + groupAt g + 64) 64) ∨ (g = 4 ∧ ¬ good (base c + groupAt 4) 7232)
    let unfit (g : Nat) : Prop :=
      (g < 4 ∧ (numbers 8 (groupRegs mode.toNat) (u.mem.read (base c + groupAt g + 64) 64)).all slotOk = false)
      ∨ (g = 4 ∧ accImageOk (u.mem.read (base c + groupAt 4) 7232) = false)
    let ends (i : Instr) (op : BitVec 3) (c : CtxId) (err : BitVec 3) (p : State → Prop) : Prop :=
      ∃ t, exec i s = .next t ∧ t.core.chestOp = some { op := op, ctx := c, err := err, waiting := 0, image := [] }
        ∧ t.cx.pc = x.pc + 4 ∧ p t
    let unchanged (t : State) : Prop := (∀ a, t.mem.byte a = u.mem.byte a) ∧ t.mx = u.mx ∧ t.core.mxOwner = k.mxOwner ∧ t.core.mxDirty = k.mxDirty
    Runs s (encB 0x3B 0 (b.rs1 = 0) { b with imm := 0x212 }) → x.pl = 2 →
    (∀ i ∈ [Instr.save b, .discard b, .handover b, .spill b, .fill b, .erase b, .movc { b with imm := 0x212 }],
      (v.toNat % 8 = 0 ∨ v.toNat % 8 = 7 ∨ k.chestOp ≠ none) → Completes i s u.settle 4)
    ∧ (k.chestOp = none → u.still →
      (∀ e ∈ [(Instr.save b, (1 : BitVec 3)), (.discard b, 2)], v.toNat % 8 = e.2.toNat → ¬ tags k.mxOwner → ends e.1 e.2 c 1 unchanged)
      ∧ (∀ e ∈ [(Instr.handover b, (3 : BitVec 3)), (.spill b, 4), (.fill b, 5), (.erase b, 6)], v.toNat % 8 = e.2.toNat → ¬ tags c →
          ends e.1 e.2 c 1 unchanged)
      ∧ (v.toNat % 8 = 1 → tags k.mxOwner → good (base k.mxOwner) 64 → (mask &&& k.mxDirty ≠ 0 ∨ k.mxCfg = true) → ends (.save b) 1 c 0 fun t =>
          t.core.mxDirty = k.mxDirty &&& ~~~mask ∧ t.core.mxCfg = false ∧ t.mx = u.mx
          ∧ (∀ g, g < 8 → (mask &&& k.mxDirty).getLsbD g = true →
              t.mem.read (base k.mxOwner + groupAt g) (groupSize g) = u.mx.groupImage g)
          ∧ (∀ a, (a < base k.mxOwner ∨ base k.mxOwner + 77952 ≤ a) → t.mem.byte a = u.mem.byte a))
      ∧ (v.toNat % 8 = 1 → tags k.mxOwner → mask &&& k.mxDirty = 0 → k.mxCfg = false → ends (.save b) 1 c 0 unchanged)
      ∧ (v.toNat % 8 = 2 → tags k.mxOwner → good (base k.mxOwner) 64 → ends (.discard b) 2 c 0 fun t =>
          t.core.mxDirty = k.mxDirty &&& ~~~mask ∧ t.core.mxCfg = false ∧ t.mx = u.mx
          ∧ (∀ a, (a < base k.mxOwner ∨ base k.mxOwner + 64 ≤ a) → t.mem.byte a = u.mem.byte a))
      ∧ (v.toNat % 8 = 3 → tags c → (k.mxDirty ≠ 0 ∨ k.mxCfg = true) → ends (.handover b) 3 c 2 unchanged)
      ∧ (∀ e ∈ [(Instr.save b, (1 : BitVec 3)), (.discard b, 2)], v.toNat % 8 = e.2.toNat → tags k.mxOwner → ¬ good (base k.mxOwner) 64 →
          (e.2 = 2 ∨ mask &&& k.mxDirty ≠ 0 ∨ k.mxCfg = true) → ends e.1 e.2 c 5 unchanged)
      ∧ (v.toNat % 8 = 3 → tags c → k.mxDirty = 0 → k.mxCfg = false →
          (¬ good (base c) 64 → ends (.handover b) 3 c 5 unchanged)
          ∧ (good (base c) 64 → mode = 3 → ends (.handover b) 3 c 7 unchanged)
          ∧ (∀ g l r, good (base c) 64 → mode ≠ 3 → gs = l ++ g :: r → (∀ j ∈ l, ¬ unread j ∧ ¬ unfit j) →
              (unread g → ends (.handover b) 3 c 5 unchanged) ∧ (¬ unread g → unfit g → ends (.handover b) 3 c 7 unchanged))
          ∧ (good (base c) 64 → mode ≠ 3 → (∀ g ∈ gs, ¬ unread g ∧ ¬ unfit g) →
              ((∀ g ∈ gs, good (base c + groupAt g) (groupSize g)) → ends (.handover b) 3 c 0 fun t =>
                t.core.mxOwner = c ∧ t.core.mxDirty = 0 ∧ t.core.mxCfg = false ∧ t.mx.mode = mode
                ∧ t.mx = gs.foldl (fun m g => m.loadGroup g (u.mem.read (base c + groupAt g) (groupSize g))) { u.mx.zeroAll with mode := mode }
                ∧ (∀ i, i < 32 → gs.contains (5 + i / 16) = false → tget 0 t.mx.vreg i = 0)
                ∧ (∀ i, i < 32 → gs.contains (5 + i / 16) = true → ∀ j, j < 128 →
                    (tget 0 t.mx.vreg i).extractLsb' (8 * j) 8 = u.mem.byte (base c + groupAt (5 + i / 16) + 64 + 128 * (i % 16) + j))
                ∧ (gs.contains 4 = false → t.mx.acc = AccSet.reset) ∧ t.mem.byte (base c + 1) = mask &&& valid
                ∧ (∀ a, a ≠ base c + 1 → t.mem.byte a = u.mem.byte a))
              ∧ (∀ g l r, gs = l ++ g :: r → (∀ j ∈ l, good (base c + groupAt j) (groupSize j)) → ¬ good (base c + groupAt g) (groupSize g) →
                  ends (.handover b) 3 c 5 fun t => t.core.mxOwner = c ∧ t.core.mxDirty = 0 ∧ t.core.mxCfg = false ∧ t.mx.mode = mode
                    ∧ (∀ i, i < 32 → tget 0 t.mx.vreg i = 0) ∧ t.mx.acc = AccSet.reset ∧ t.mx.scale = [] ∧ t.mx.ehist = []
                    ∧ t.mem.byte (base c + 1) = valid &&& ~~~((1 : BitVec 8) <<< g)
                    ∧ (∀ a, a ≠ base c + 1 → t.mem.byte a = u.mem.byte a))))
      ∧ (v.toNat % 8 = 4 → tags c → u.is (F.keyValid c.num) = false → ends (.spill b) 4 c 3 unchanged)
      ∧ (v.toNat % 8 = 5 → tags c → u.is (F.keyValid c.num) = false → ends (.fill b) 5 c 3 unchanged)
      ∧ (v.toNat % 8 = 6 → tags c → ends (.erase b) 6 c 0 fun t => t.mx = u.mx ∧ t.core.mxDirty = k.mxDirty
          ∧ ∀ a, t.mem.byte a = if base c ≤ a ∧ a < base c + 77952 then 0 else u.mem.byte a))

/-- R175, R174: SPILL to own local memory stores the sealed image at CHESTXA and counts; FILL of an image whose counter is
not the expected one ends with CTR, of one whose tag is wrong erases the Chest; a good one is opened into the Chest. What cannot be
read, and a CHESTXA the engine may not reach, end with DATA, FILL having erased the Chest (an image that would run into the Bench at
once: log entry 71); to and from other nodes and external space the image goes in pieces, each piece where its own address names
(R32). CHEST_OPERATION_DONE then reports. Log entries of the model's own choices and readings here: 7, 49, 71, 72, 94, 99. -/
def Obligations.SpillAndFill : Prop :=
  (∀ (b : FrameB) (s : State) (off : Nat),
    let u := s.begun
    let x := u.cx
    let k := u.core
    let v := x.rd b.rd
    let c := CtxId.named (v.toNat / 16)
    let at0 : Nat := 16384 * (u.chestBase c)
    let img := u.mem.read off 78080
    let keys := aesKeys (u.slotKey c)
    let ends (i : Instr) (op err : BitVec 3) (p : State → Prop) : Prop :=
      ∃ t, exec i s = .next t ∧ t.core.chestOp = some { op := op, ctx := c, err := err, waiting := 0, image := [] }
        ∧ t.cx.pc = x.pc + 4 ∧ t.mx = u.mx ∧ p t
    Runs s (encB 0x3B 0 (b.rs1 = 0) { b with imm := 0x212 }) → x.pl = 2 → k.chestOp = none → u.still → u.chestOk c = true →
    u.is (F.keyValid c.num) = true → u.place k.chestXa = .lm off → off % 64 = 0 → off + 78080 ≤ benchBase →
      (v.toNat % 8 = 4 → u.chestCtr c = BitVec.allOnes 64 → ends (.spill b) 4 6 fun t => ∀ a, t.mem.byte a = u.mem.byte a)
      ∧ (v.toNat % 8 = 4 → u.chestCtr c ≠ BitVec.allOnes 64 → (∀ w ∈ eccWords at0 77952, u.eccOf w ≠ .bad) → ends (.spill b) 4 0 fun t =>
          t.chestCtr c = u.chestCtr c + 1 ∧ t.mem.read off 78080 = u.spillImage c (u.mem.read at0 77952)
          ∧ ∀ a, (a < off ∨ off + 78080 ≤ a) → t.mem.byte a = u.mem.byte a)
      ∧ (v.toNat % 8 = 5 → (∀ w ∈ eccWords off 78080, u.eccOf w ≠ .bad) →
          (field img 0 8 ≠ k.chestXctr.toNat → ends (.fill b) 5 6 fun t => ∀ a, t.mem.byte a = u.mem.byte a)
          ∧ (field img 0 8 = k.chestXctr.toNat →
              gcmTag keys (img.take 12) (img.take 64) ((img.drop 64).take 77952) ≠ (img.drop 78016).take 16 →
              ends (.fill b) 5 4 fun t => ∀ a, t.mem.byte a = if at0 ≤ a ∧ a < at0 + 77952 then 0 else u.mem.byte a)
          ∧ (field img 0 8 = k.chestXctr.toNat →
              gcmTag keys (img.take 12) (img.take 64) ((img.drop 64).take 77952) = (img.drop 78016).take 16 →
              ends (.fill b) 5 0 fun t => t.mem.read at0 77952 = gcmCrypt keys (img.take 12) ((img.drop 64).take 77952)
                ∧ ∀ a, (a < at0 ∨ at0 + 77952 ≤ a) → t.mem.byte a = u.mem.byte a)))
  ∧ (∀ (b : FrameB) (s : State),
    let u := s.begun
    let x := u.cx
    let k := u.core
    let v := x.rd b.rd
    let c := CtxId.named (v.toNat / 16)
    let at0 : Nat := 16384 * (u.chestBase c)
    let erased (m : Mem) : Prop := ∀ a, m.byte a = if at0 ≤ a ∧ a < at0 + 77952 then 0 else u.mem.byte a
    let ends (i : Instr) (op : BitVec 3) (p : State → Prop) : Prop :=
      ∃ t, exec i s = .next t ∧ t.core.chestOp = some { op := op, ctx := c, err := 5, waiting := 0, image := [] }
        ∧ t.cx.pc = x.pc + 4 ∧ t.mx = u.mx ∧ t.chestCtr c = u.chestCtr c ∧ p t
    let within : Prop := ∃ off, u.place k.chestXa = .lm off ∧ off + 78080 ≤ benchBase
    let astray : Prop := ∃ e ∈ spillPieces k.chestXa, let p := k.chestXa + BitVec.ofNat 64 e.1
      (u.place p).remote = false ∧ u.local? p e.2 = none
    Runs s (encB 0x3B 0 (b.rs1 = 0) { b with imm := 0x212 }) → x.pl = 2 → k.chestOp = none → u.chestOk c = true → u.is (F.keyValid c.num) = true →
      (u.still → v.toNat % 8 = 4 → u.chestCtr c ≠ BitVec.allOnes 64 →
        ((∃ w ∈ eccWords at0 77952, u.eccOf w = .bad) ∨ (¬ within ∧ astray)) →
          ends (.spill b) 4 fun t => ∀ a, t.mem.byte a = u.mem.byte a)
      ∧ (u.still → v.toNat % 8 = 5 →
        ((¬ within ∧ astray) ∨ ∃ off, off + 78080 ≤ benchBase ∧ u.place k.chestXa = .lm off ∧ ∃ w ∈ eccWords off 78080, u.eccOf w = .bad) →
          ends (.fill b) 5 fun t => erased t.mem)
      ∧ (∀ d w, v.toNat % 8 = 4 → u.chestCtr c ≠ BitVec.allOnes 64 → u.chestRead c 0 77952 = (.ok d, w) → ¬ within → ¬ astray →
          Completes (.spill b) s (w.spillRemote c k.chestXa (w.spillImage c d)).settle 4)
      ∧ (v.toNat % 8 = 5 → ¬ within → ¬ astray → Completes (.fill b) s (u.fillRemote c k.chestXa).settle 4))
  ∧ ∀ (s : State) (o : ChestOp), s.core.chestOp = some o → o.waiting = 0 → exec .chestOperationDone s = if s.isFenced then .next s else .next (s.onCore fun k => { k with chestOp := none, chestErr := o.err })

/-! ### Messages, windows, pages and caches -/

/-- R126, R127, R410: SEND injects a MSG of the registers from rd on, refused while four wait; RECV takes the oldest message of the
context whose entry does not fail its parity (R460), or sets the underrun bit and Z; MBPUT posts to a free slot of the context's own.
Log entries of the model's own choices and readings here: 9, 35, 92. -/
def Obligations.Messages : Prop :=
  ∀ s : State,
    let u := s.begun
    let x := u.cx
    let c := u.core.cur
    (∀ a : FrameSend,
      let n := a.lenm1.toNat + 1
      let e : Enc := { parcel := a.parcel, len := 4, cond := a.cond, legal := a.rsv = 0 && decide (a.rd.toNat + n ≤ 32), level := 0, mx := false }
      let d := x.rd a.rs1
      let p := { Packet.mk' 7 0 (d &&& 0x3FFFFF0000000000) (d &&& 1) (BitVec.ofNat 16 c.num)
        ((List.range n).flatMap fun i => bytesOf 8 (x.rd (a.rd + BitVec.ofNat 5 i))) with sctx := decide (c = .c1) }
      Runs s e →
        (2 ^ 63 ≤ d.toNat → Raises (.send a) s e cAccess d)
        ∧ (d.toNat < 2 ^ 63 → 4 ≤ u.sendQueued c → Raises (.send a) s e cSendFull d)
        ∧ (d.toNat < 2 ^ 63 → u.sendQueued c < 4 → Completes (.send a) s ((u.inject p).settle) 4))
    ∧ (∀ a : FrameA,
      let e : Enc := { encF 0x3D 0 a with legal := a.rs1 = 0 && a.rs2 = 0 && decide (a.rd.toNat + 5 ≤ 31) }
      let six (m : List Byte) : Ctx := (List.range 6).foldl (fun y i => y.wr (a.rd + BitVec.ofNat 5 i) (BitVec.ofNat 64 (field m (8 * i) 8))) x
      let got (z : Bool) (m : List Byte) (w : State) : Prop :=
        ∃ v, Polled (w.setCx { six m with z := if a.f then z else x.z }) v ∧ Completes (.recv a) s v 4
      let w := u.purge
      Runs s e →
        ((∀ m ∈ w.qe.imq, m.ctx ≠ c) → got true (match c with | .c0 => w.qe.imqLast0 | .c1 => w.qe.imqLast1) (w.put (F.imqUdr c.num) 1))
        ∧ (∀ m l r, w.qe.imq = l ++ m :: r → m.ctx = c → (∀ k ∈ l, k.ctx ≠ c) → got false m.bytes { w with
            qe := { w.qe with imq := l ++ r, timers := tput 0 w.qe.timers (1 + c.num) 0,
                              imqLast0 := if c = .c0 then m.bytes else w.qe.imqLast0, imqLast1 := if c = .c1 then m.bytes else w.qe.imqLast1 } })
        ∧ (u.qe.bad = [] → w = u))
    ∧ (∀ a : FrameA,
      let i := (x.rd a.rs1).toNat % 8
      let v := x.rd a.rs2
      let mine : Prop := bits (u.g F.mboxOwn) i 1 = c.num
      let busy : Prop := bit (u.g F.mboxReady) i = true ∨ u.qe.reserved.getLsbD i = true
      Runs s (encA 0x42 0 1 true a) →
        (¬ mine → Answers (.mbput a) s (x.wr a.rd 2) (x.pc + 4))
        ∧ (mine → busy → Completes (.mbput a) s ((u.sat F.mboxBusy 1).setCx (x.wr a.rd 1)) 4)
        ∧ (mine → ¬ busy → Completes (.mbput a) s
            (((u.put (F.mbox i) v.toNat).put F.mboxReady (setBits (u.g F.mboxReady) i 1 1)).setCx (x.wr a.rd 0)) 4))

/-- R103, R105: WSPILL stores the oldest resident window at WSP and frees it, WFILL loads the window below CWP from below WSP;
RSPILL stores the oldest Reel entry, RFILL loads one; with nothing to move each does nothing. The first doubleword refused raises
ACCESS before any is moved, one that fails its check bits MEM_DATA; areas in control space and in remote memory are stored to and
loaded from as by ST and LD (R206, R209), each line and sector where its own address names (R32).
Log entries of the model's own choices and readings here: 6, 37, 50, 67, 97, 98. -/
def Obligations.WindowMoves : Prop :=
  ∀ (a : FrameA) (s : State) (off : Nat),
    let u := s.begun
    let x := u.cx
    let c := u.core.cur
    let zero : Bool := a.rd = 0 && a.rs1 = 0 && a.rs2 = 0
    let left (p : Word) (v : State) : State := match u.place p with | .lm _ => v | _ => v.settle
    let stores (i : Instr) (e : Enc) (p : Word) (vs : List Word) (f : Ctx → Ctx) : Prop :=
      let ls := u.remoteLines p vs.length
      let full : Prop := (∃ l ∈ ls, u.lineBusy c (p + BitVec.ofNat 64 (8 * l.1)) = true) ∨ (ls ≠ [] ∧ 16 < (u.unacked c).length + ls.length)
      (∀ w, u.dwRefused true p vs.length = some w → Raises i s e cAccess w)
      ∧ (u.dwRefused true p vs.length = none →
          (full → exec i s = .next (left p u))
          ∧ (¬ full →
            let v := ls.foldl (fun v l => v.postStore c (p + BitVec.ofNat 64 (8 * l.1)) (((vs.drop l.1).take l.2).flatMap (bytesOf 8)))
              (((dwords p vs.length).zip vs).foldl State.dwStore u)
            Completes i s (left p (v.setCx (f v.cx))) 4))
    let fills (i : Instr) (e : Enc) (p : Word) (n : Nat) : Prop :=
      let busy : Prop := ∃ w ∈ dwords p n, (u.place w).remote = true ∧ u.lineBusy c w = true
      (∀ w, u.dwRefused false p n = some w → Raises i s e cAccess w)
      ∧ (u.dwRefused false p n = none →
          (busy → exec i s = .next (left p u))
          ∧ (¬ busy → ∀ r v, State.fillLoop c p (8 * n) (BitVec.ofNat 32 e.parcel) 8 [] u = (r, v) →
            (∀ d, r = .ok (some d) → Completes i s (left p (v.setCx (v.cx.filled (dwsOf d)))) 4)
            ∧ (r = .ok none → exec i s = .next (left p v))
            ∧ ∀ w, r = .error w → RaisesAs i s v e cMemData w))
    let win (w : Nat) : List Word := ((List.range 6).map fun i => tget 0 x.h (6 * w + i)) ++ (List.range 4).map fun i => tget 0 x.k (4 * w + i)
    let below : Nat := (x.cwp.toNat + 7) % 8
    (Runs s (encA 0x3E 0 1 zero a) →
      ((∀ k, k < 7 → x.wvalid.getLsbD ((x.cwp.toNat + k + 1) % 8) = false) → Answers (.wspill a) s x (x.pc + 4))
      ∧ (∀ k, k < 7 → x.wvalid.getLsbD ((x.cwp.toNat + k + 1) % 8) = true → (∀ j, j < k → x.wvalid.getLsbD ((x.cwp.toNat + j + 1) % 8) = false) →
          let w := (x.cwp.toNat + k + 1) % 8
          (x.wsp.toNat % 8 ≠ 0 → Raises (.wspill a) s (encA 0x3E 0 1 zero a) cAlign x.wsp)
          ∧ (x.wsp.toNat % 8 = 0 → x.wslimit.toNat < x.wsp.toNat + 80 → Raises (.wspill a) s (encA 0x3E 0 1 zero a) cAccess x.wsp)
          ∧ (x.wsp.toNat % 8 = 0 → x.wsp.toNat + 80 ≤ x.wslimit.toNat → stores (.wspill a) (encA 0x3E 0 1 zero a) x.wsp (win w) fun y =>
              { y with wvalid := y.wvalid &&& ~~~((1 : BitVec 8) <<< w), wsp := x.wsp + 80 })
          ∧ (x.wsp.toNat + 80 ≤ x.wslimit.toNat → AreaAt u x.wsp 10 off → ∃ t, exec (.wspill a) s = .next t ∧
              Stored (u.setCx { x with wvalid := x.wvalid &&& ~~~((1 : BitVec 8) <<< w), wsp := x.wsp + 80 }) t off
                ((win w).flatMap (bytesOf 8)) (x.pc + 4))))
    ∧ (Runs s (encA 0x3E 1 1 zero a) →
      (x.wvalid.getLsbD below = true → Answers (.wfill a) s x (x.pc + 4))
      ∧ (x.wvalid.getLsbD below = false → x.wsp.toNat % 8 ≠ 0 → Raises (.wfill a) s (encA 0x3E 1 1 zero a) cAlign x.wsp)
      ∧ (x.wvalid.getLsbD below = false → x.wsp.toNat % 8 = 0 → fills (.wfill a) (encA 0x3E 1 1 zero a) (x.wsp - 80) 10)
      ∧ (x.wvalid.getLsbD below = false → AreaAt u (x.wsp - 80) 10 off → ∃ h k,
          Answers (.wfill a) s { x with h := h, k := k, wvalid := x.wvalid ||| ((1 : BitVec 8) <<< below), wsp := x.wsp - 80 } (x.pc + 4)
          ∧ (∀ i, tget 0 h i = if i / 6 = below then u.dw (off + 8 * (i % 6)) else tget 0 x.h i)
          ∧ (∀ i, tget 0 k i = if i / 4 = below then u.dw (off + 8 * (6 + i % 4)) else tget 0 x.k i)))
    ∧ (Runs s (encA 0x3E 2 1 zero a) →
      (x.reel = [] → Answers (.rspill a) s x (x.pc + 4))
      ∧ (∀ e r, x.reel = e :: r →
          (x.reelsp.toNat % 8 ≠ 0 → Raises (.rspill a) s (encA 0x3E 2 1 zero a) cAlign x.reelsp)
          ∧ (x.reelsp.toNat % 8 = 0 → stores (.rspill a) (encA 0x3E 2 1 zero a) x.reelsp [e] fun y =>
              { y with reel := y.reel.drop 1, reelsp := x.reelsp + 8 })
          ∧ (AreaAt u x.reelsp 1 off → ∃ t, exec (.rspill a) s = .next t ∧
              Stored (u.setCx { x with reel := r, reelsp := x.reelsp + 8 }) t off (bytesOf 8 e) (x.pc + 4))))
    ∧ (Runs s (encA 0x3E 3 1 zero a) →
      (16 ≤ x.reel.length → Answers (.rfill a) s x (x.pc + 4))
      ∧ (x.reel.length < 16 → x.reelsp.toNat % 8 ≠ 0 → Raises (.rfill a) s (encA 0x3E 3 1 zero a) cAlign x.reelsp)
      ∧ (x.reel.length < 16 → x.reelsp.toNat % 8 = 0 → fills (.rfill a) (encA 0x3E 3 1 zero a) (x.reelsp - 8) 1)
      ∧ (x.reel.length < 16 → AreaAt u (x.reelsp - 8) 1 off →
          Answers (.rfill a) s { x with reel := u.dw off :: x.reel, reelsp := x.reelsp - 8 } (x.pc + 4)))

/-- R198 to R200: a claim of a claimable page within the quota zeroes the page, tags it and leaves no other right; LMCLAIMA takes the
lowest; LMREL of an own page makes it claimable; every other page entry stays.
Log entries of the model's own choices and readings here: 54. -/
def Obligations.PageClaims : Prop :=
  ∀ (a : FrameA) (s : State),
    let u := s.begun
    let x := u.cx
    let c := u.core.cur
    let p := (x.rd a.rs1).toNat % 256
    let free (p : Nat) : Prop := u.g (F.pageTag p) = 3 ∧ u.is (F.pageClaim p) = true
    let full : Prop := u.g (F.quota c.num) ≤ ((List.range 256).filter fun p => u.g (F.pageTag p) = c.num).length
    let claims (i : Instr) (p : Nat) (v : Word) : Prop := ∃ t, exec i s = .next t ∧
      Stored ((u.put (F.page p) c.num).setCx (x.wr a.rd v)) t (0x4000 * p) (List.replicate 0x4000 0) (x.pc + 4)
    let denied (i : Instr) (e : Enc) (p : Nat) : Prop :=
      exec i s = .next ((((if u.is (F.denied c.num) then u else u.hwSet (F.spnEvt 5)).put (F.denied c.num) 1).raise cQuota
        (BitVec.ofNat 64 p) x.pc (BitVec.ofNat 32 e.parcel)).taken)
    (Runs s (encA 0x40 0 1 (a.rs2 = 0) a) →
      (¬ free p → Answers (.lmclaim a) s (x.wr a.rd 1) (x.pc + 4))
      ∧ (free p → ¬ full → claims (.lmclaim a) p 0)
      ∧ (free p → full → denied (.lmclaim a) (encA 0x40 0 1 (a.rs2 = 0) a) p))
    ∧ (Runs s (encA 0x40 1 1 (a.rs2 = 0 && a.rs1 = 0) a) →
      ((∀ q, q < 256 → ¬ free q) → Answers (.lmclaima a) s (x.wr a.rd (BitVec.allOnes 64)) (x.pc + 4))
      ∧ (∀ q, q < 256 → free q → (∀ r, r < q → ¬ free r) →
          (¬ full → claims (.lmclaima a) q (BitVec.ofNat 64 q))
          ∧ (full → denied (.lmclaima a) (encA 0x40 1 1 (a.rs2 = 0 && a.rs1 = 0) a) q)))
    ∧ (Runs s (encA 0x40 2 1 (a.rs2 = 0) a) →
      (u.g (F.pageTag p) ≠ c.num → Answers (.lmrel a) s (x.wr a.rd 1) (x.pc + 4))
      ∧ (u.g (F.pageTag p) = c.num → Completes (.lmrel a) s ((u.put (F.page p) (3 + 64)).setCx (x.wr a.rd 0)) 4
        ∧ (u.put (F.page p) (3 + 64)).held c + 1 = u.held c))

/-- R208: a cache operation drops the line of its address, or every line, from the cache it names and from the victim entries that
came from it; the other cache and memory stay. Log entries of the model's own choices and readings here: 48. -/
def Obligations.CacheMaintenance : Prop :=
  ∀ (b : FrameB) (s : State),
    let u := s.begun
    let a := u.cx.rd b.rs1 + b.imm.signExtend 64
    let ch := u.cache
    let line : Word := a &&& ~~~127
    let other (l : Nat × Line) : Bool := decide (l.2.addr ≠ line)
    let keep (i : Bool) (v : Victim) : Bool := decide (v.fromI ≠ i ∨ v.line.addr ≠ line)
    (Runs s (encB 0x41 0 (b.rd.toNat = 0) b) → Completes (.dinvl b) s
      { u with cache := { ch with l1d := ch.l1d.filter other, victim := ch.victim.filter (keep false) } } 4)
    ∧ (Runs s (encB 0x41 0 (b.rd.toNat = 1) b) → Completes (.iinvl b) s
      { u with cache := { ch with l1i := ch.l1i.filter other, victim := ch.victim.filter (keep true) } } 4)
    ∧ (Runs s (encB 0x41 1 (b.rd.toNat = 2) b) → Completes (.dinva b) s
      { u with cache := { ch with l1d := [], victim := ch.victim.filter fun v => v.fromI } } 4)
    ∧ (Runs s (encB 0x41 1 (b.rd.toNat = 3) b) → Completes (.iinva b) s
      { u with cache := { ch with l1i := [], victim := ch.victim.filter fun v => !v.fromI } } 4)

/-- R138, R139, R153: ASYNC_ENTRY takes the first takeable cause of the issuing context: higher target level first, then FAULT,
SPINDLE, TIMER, LINK, SKEIN, MESSAGE, DOORBELL; a fetch at the PC that fails whatever stands there raises its own cause first. An MDRAIN
under way is abandoned, but one that is the first instruction after a return completes. R165, R128: PREEMPT does so for the other
context, behind its WFE where that has its latch set, saving its level and depth in XBACK.
Log entries of the model's own choices and readings here: 3, 43, 50. -/
def Obligations.AsynchronousCauses : Prop :=
  ∀ (s : State) (c : Nat),
    let o := s.core.cur.other
    let u0 := s.refresh
    let yo := u0.ctx o
    let u1 : State := if yo.wait = .wfe ∧ yo.latch = true then
      (u0.setCtx o { ({ yo with latch := false, wait := .run } : Ctx).age with pc := yo.pc + 4, afterEret := false }).perf 0x02 1 (some o) else u0
    let order : List Nat := [0x25, 0x23, 0x22, 0x26, 0x24, 0x21, 0x20]
    let may (u : State) (id : CtxId) (c : Nat) : Prop :=
      let x := u.ctx id
      let t := x.target c
      x.xpend.getLsbD (c - 0x20) = true ∧ x.xien.getLsbD (c - 0x20) = true ∧ (x.pl.toNat < t ∨ (t = x.pl.toNat ∧ x.ie = true))
        ∧ x.spare = false ∧ (x.fast = true → x.pl.toNat < t) ∧ ((c = 0x20 ∨ c = 0x21) → x.fast = false ∧ x.zbusy = false)
        ∧ x.prods = [] ∧ x.afterEret = false
    let first (u : State) (id : CtxId) (ok : Nat → Prop) : Prop := c ∈ order ∧ may u id c ∧ ok c ∧ ∀ d ∈ order, may u id d → ok d →
      (u.ctx id).target d < (u.ctx id).target c ∨ ((u.ctx id).target d = (u.ctx id).target c ∧ order.idxOf c ≤ order.idxOf d)
    let id := s.core.cur
    let let' (d : Nat) : Prop := (u1.ctx o).target d = 2 ∨ s.core.xpre.getLsbD o.num = true ∨ u1.cx.wait = .wfe
    let v := u0.drainAbandon.leaveN1
    let f := u0.drainForce
    let w := (((u1.setCtx o { u1.ctx o with xback := true, xbpl := (u1.ctx o).pl, xbdepth := (u1.ctx o).xnest }).onCore
      fun k => { k with cur := o }).drainAbandon).leaveN1
    (s.canIssue = true →
      (first u0 id (fun _ => True) → u0.fetchBlocked = none →
        exec .asyncEntry s = .next ((v.enter id c ((v.ctx id).target c) 0 (v.ctx id).pc 0).taken))
      ∧ (∀ k a inst, first u0 id (fun _ => True) → u0.fetchBlocked = some (k, a, inst) →
        exec .asyncEntry s = .next (((f.fetchNoted k a).raise k a f.cx.pc inst).taken))
      ∧ ((∀ d ∈ order, ¬ may u0 id d) → exec .asyncEntry s = .next s))
    ∧ (s.inRun = true → s.nodeRuns = true → s.core.run.getLsbD o.num = true → (u1.cx.wait = .run ∨ u1.cx.wait = .wfe) →
        u1.cx.prods = [] → u1.cx.afterEret = false →
      (first u1 o let' → (u1.ctx o).wait = .run → exec .preempt s = .next ((w.enter o c ((w.ctx o).target c) 0 (w.ctx o).pc 0).taken))
      ∧ (((∀ d ∈ order, may u1 o d → ¬ let' d) ∨ (u1.ctx o).wait ≠ .run) → exec .preempt s = .next s))
    ∧ (∀ d, s.mx.drain = some d → (d.firm = true → s.drainAbandon = s.drainForce)
        ∧ (d.firm = false → s.drainAbandon = State.setCtx { s with mx := { s.mx with drain := none, acc := if d.copied then d.set else s.mx.acc } }
            d.ctx { s.ctx d.ctx with pc := d.pc }))

/-! ### The vector unit -/

/-- R167, R271, R314: a matrix or vector instruction, or a MOVS or MOVC from 0x300 to 0x37F, of a context that does not own the state
raises MX_NOT_OWNED, XADDR naming the groups it would touch, the dirty groups, CFG and the owner. -/
def Obligations.NotOwnedRaises : Prop :=
  ∀ s : State,
    let u := s.begun
    let k := u.mx.mode.toNat
    let raises (i : Instr) (touch : List Nat) : Prop := ∀ e, i.enc = some e → Runs s e → Raises i s e cMxNotOwned (u.notOwnedAddr touch)
    let v (r : BitVec 5) : Nat := if r.toNat < 16 then 5 else 6
    let t (r : Nat) : List Nat := if r < regCount k then [r / (regCount k / 4)] else []
    let listed (n : Nat) : Prop := (0x300 ≤ n ∧ n ≤ 0x309) ∨ (0x310 ≤ n ∧ n ≤ 0x313) ∨ (0x320 ≤ n ∧ n ≤ 0x37F)
    let names (n : Nat) : List Nat := if n ≤ 0x308 ∨ 0x340 ≤ n then [7] else if 0x311 ≤ n ∧ n ≤ 0x313 then [4] else if 0x320 ≤ n then t (n - 0x320) else []
    (∀ (l : List Nat) (i : Nat), (∀ g ∈ l, g < 8) → i < 64 → (u.notOwnedAddr l).getLsbD i =
      if i < 8 then decide (i ∈ l) else if i < 16 then u.core.mxDirty.getLsbD (i - 8) else if i = 16 then u.core.mxCfg
      else decide (i = 17 ∧ u.core.mxOwner = .c1))
    ∧ (¬ u.owns →
      (∀ m : FrameM, raises (.tld m) (t m.t) ∧ raises (.tst m) (t m.t) ∧ raises (.tzero m) (t m.t) ∧ raises (.mz m) [4]
        ∧ raises (.mma m) (t m.t ++ t m.tb ++ [4, 7]) ∧ raises (.mmas m) (t m.t ++ t m.tb ++ t m.ts ++ [4, 7])
        ∧ raises (.mdrain m) (t m.td ++ [4, 7]) ∧ raises (.msave m) [4] ∧ raises (.mrest m) [4] ∧ raises (.mhclr m) [7])
      ∧ (∀ a : FrameV,
        (∀ i ∈ [Instr.vadd a, .vsub a, .vmul a, .vmin a, .vmax a, .vand a, .vor a, .vxor a, .vshl a, .vshr a, .vsar a, .vcmpeq a, .vcmplt a,
          .vcmple a, .vadds a, .vfma a, .vfnma a, .vsel a], raises i [v a.vd, v a.va, v a.vb])
        ∧ (∀ i ∈ [Instr.vmov a, .vneg a, .vabs a, .vexp2 a, .vrcp a, .vredsum a, .vredmax a, .vredmin a], raises i [v a.vd, v a.va])
        ∧ raises (.vbcast a) [v a.vd] ∧ raises (.vget a) [v a.va])
      ∧ (∀ a : FrameW,
        (∀ i ∈ [Instr.vld a, .vst a], raises i [v a.v])
        ∧ (∀ i ∈ [Instr.vgather a, .vscatter a], raises i [v a.v, v (a.p2.setWidth 5)])
        ∧ (∀ i ∈ [Instr.vcvt a, .vwid6 a], raises i [v a.v, v a.x]) ∧ raises (.vqmx a) [v a.v, v a.x, v (a.p2.setWidth 5)]
        ∧ (∀ i ∈ [Instr.vtrd a, .vtwr a], raises i (v a.v :: t a.x.toNat)))
      ∧ ∀ b : FrameB, (listed b.imm.toNat → raises (.movs b) (names b.imm.toNat) ∧ raises (.movc b) (names b.imm.toNat)) ∧ raises (.tcfgWrite b) [])

/-- R297, R300, R303, R304: the integer vector instructions, lane by lane, wrapping; reductions leave their value in lane 0 and zero
elsewhere. -/
def Obligations.VectorInteger : Prop :=
  ∀ (a : FrameV) (s : State) (w : Nat), (a.t = 0 ∧ w = 8) ∨ (a.t = 1 ∧ w = 32) → s.begun.owns →
    let u := s.begun
    let x := u.cx
    let p (e : Nat) : BitVec w := u.el w a.va e
    let q (e : Nat) : BitVec w := u.el w a.vb e
    let d (e : Nat) : BitVec w := u.el w a.vd e
    let n (e : Nat) : Nat := (q e).toNat % w
    let all (b : Bool) : BitVec w := if b then BitVec.allOnes w else 0
    let lane0 (v : BitVec w) (e : Nat) : BitVec w := if e = 0 then v else 0
    let idx := List.range (1024 / w)
    let gives (i : Instr) (f : Nat → BitVec w) : Prop := (∀ e, i.enc = some e → Runs s e) → VecGives i s 4 a.vd w f
    (gives (.vadd a) fun e => p e + q e) ∧ (gives (.vsub a) fun e => p e - q e) ∧ (gives (.vmul a) fun e => p e * q e)
    ∧ (gives (.vmin a) fun e => if (p e).toInt < (q e).toInt then p e else q e)
    ∧ (gives (.vmax a) fun e => if (p e).toInt < (q e).toInt then q e else p e)
    ∧ (gives (.vand a) fun e => p e &&& q e) ∧ (gives (.vor a) fun e => p e ||| q e) ∧ (gives (.vxor a) fun e => p e ^^^ q e)
    ∧ (gives (.vshl a) fun e => p e <<< n e) ∧ (gives (.vshr a) fun e => p e >>> n e) ∧ (gives (.vsar a) fun e => (p e).sshiftRight (n e))
    ∧ (gives (.vcmpeq a) fun e => all (p e = q e)) ∧ (gives (.vcmplt a) fun e => all ((p e).toInt < (q e).toInt))
    ∧ (gives (.vcmple a) fun e => all ((p e).toInt ≤ (q e).toInt))
    ∧ (gives (.vadds a) fun e => BitVec.ofInt w (max (-2 ^ (w - 1)) (min (2 ^ (w - 1) - 1) ((p e).toInt + (q e).toInt))))
    ∧ (gives (.vfma a) fun e => p e * q e + d e) ∧ (gives (.vfnma a) fun e => d e - p e * q e)
    ∧ (a.t = 0 → gives (.vsel a) fun e => (d e &&& p e) ||| (~~~(d e) &&& q e))
    ∧ (gives (.vmov a) p) ∧ (gives (.vneg a) fun e => -(p e)) ∧ (gives (.vabs a) fun e => if (p e).toInt < 0 then -(p e) else p e)
    ∧ (gives (.vredsum a) (lane0 (idx.foldl (fun r e => r + p e) 0)))
    ∧ (gives (.vredmax a) (lane0 (idx.foldl (fun r e => if r.toInt < (p e).toInt then p e else r) (p 0))))
    ∧ (gives (.vredmin a) (lane0 (idx.foldl (fun r e => if (p e).toInt < r.toInt then p e else r) (p 0))))
    ∧ (gives (.vbcast a) fun _ => (x.rd a.va).setWidth w)
    ∧ ((∀ e, (Instr.vget a).enc = some e → Runs s e) →
        Completes (.vget a) s (u.setCx (x.wr a.vd ((p ((x.rd a.vb).toNat % (1024 / w))).signExtend 64))) 4)

/-- R299, R301 to R304: the float vector instructions, lane by lane, one rounding to nearest even of the exact value, a NaN result
canonical, a compare against NaN false; FMTSTAT stays. VEXP2 and VRCP are correctly rounded in BF16 and within 2 ulp in FP32, where
which result within them is open (log entry 30). A reduction combines neighbouring lanes in a fixed pairwise tree, each combination
rounded or ordered as VADD, VMAX and VMIN do, and leaves its value in lane 0, the other lanes zero.
Log entries of the model's own choices and readings here: 30, 51. -/
def Obligations.VectorFloat : Prop :=
  ∀ (a : FrameV) (s : State) (w : Nat) (f : FFmt), (a.t = 2 ∧ w = 16 ∧ f = bf16) ∨ (a.t = 3 ∧ w = 32 ∧ f = fp32) → s.begun.owns →
    let u := s.begun
    let x := u.cx
    let p (e : Nat) : BitVec w := u.el w a.va e
    let q (e : Nat) : BitVec w := u.el w a.vb e
    let val (v : BitVec w) : FV := f.dec v.toNat
    let z (e : Nat) : FV := val (u.el w a.vd e)
    let code (v : FV) : BitVec w := BitVec.ofNat w (f.enc v).code
    let nan : BitVec w := BitVec.ofNat w (f.nan.getD 0)
    let isNan (e : Nat) : Prop := val (p e) = .nan ∨ val (q e) = .nan
    let lt (a b : BitVec w) : Bool := (val a).lt (val b)
    let least (a b : BitVec w) : BitVec w :=
      if val a = .nan ∨ val b = .nan then nan else if lt a b then a else if lt b a then b else a ||| b
    let most (a b : BitVec w) : BitVec w :=
      if val a = .nan ∨ val b = .nan then nan else if lt a b then b else if lt b a then a else a &&& b
    let tree (g : BitVec w → BitVec w → BitVec w) (e : Nat) : BitVec w := if e = 0 then treeAt g p (if w = 16 then 6 else 5) 0 else 0
    let near (v : FV) (r : BitVec w) : Prop := ∀ b n k, v = .fin b n k → n ≠ 0 →
      let lo := min k (-149)
      let size := n * 2 ^ (k - lo).toNat
      let close (m : Nat) (j : Int) : Prop := ((m * 2 ^ (j - lo).toNat : Nat) - (size : Int)).natAbs ≤ 2 * 2 ^ (f.expAt n k - f.mb - lo).toNat
      (2 ^ (128 - lo).toNat ≤ size → r = code (.inf b))
      ∧ (size < 2 ^ (128 - lo).toNat → (∃ m j, val r = .fin b m j ∧ close m j) ∨ (r = code (.inf b) ∧ close 1 128))
    let gives (i : Instr) (g : Nat → BitVec w) : Prop := (∀ e, i.enc = some e → Runs s e) → VecGives i s 4 a.vd w g
    let where' (i : Instr) (c : Nat → BitVec w → Prop) : Prop := (∀ e, i.enc = some e → Runs s e) →
      ∃ g : Nat → BitVec w, VecGives i s 4 a.vd w g ∧ ∀ e, e < 1024 / w → c e (g e)
    (gives (.vadd a) fun e => code ((val (p e)).add (val (q e)))) ∧ (gives (.vsub a) fun e => code ((val (p e)).add (val (q e)).neg))
    ∧ (gives (.vmul a) fun e => code ((val (p e)).mul (val (q e))))
    ∧ (gives (.vfma a) fun e => code (((val (p e)).mul (val (q e))).add (z e)))
    ∧ (gives (.vfnma a) fun e => code (((val (p e)).mul (val (q e))).neg.add (z e)))
    ∧ (gives (.vmov a) fun e => code (val (p e))) ∧ (gives (.vneg a) fun e => code (val (p e)).neg) ∧ (gives (.vabs a) fun e => code (val (p e)).abs)
    ∧ (where' (.vmin a) fun e r => (isNan e → r = nan) ∧ (¬ isNan e → (lt (p e) (q e) = true → r = p e) ∧ (lt (q e) (p e) = true → r = q e)
        ∧ (lt (p e) (q e) = false → lt (q e) (p e) = false → r = p e ||| q e)))
    ∧ (where' (.vmax a) fun e r => (isNan e → r = nan) ∧ (¬ isNan e → (lt (p e) (q e) = true → r = q e) ∧ (lt (q e) (p e) = true → r = p e)
        ∧ (lt (p e) (q e) = false → lt (q e) (p e) = false → r = p e &&& q e)))
    ∧ (where' (.vcmpeq a) fun e r => r = if (¬ isNan e ∧ lt (p e) (q e) = false ∧ lt (q e) (p e) = false) then BitVec.allOnes w else 0)
    ∧ (where' (.vcmplt a) fun e r => r = if (¬ isNan e ∧ lt (p e) (q e) = true) then BitVec.allOnes w else 0)
    ∧ (where' (.vcmple a) fun e r => r = if (¬ isNan e ∧ lt (q e) (p e) = false) then BitVec.allOnes w else 0)
    ∧ (where' (.vexp2 a) fun e r => (val (p e) = .nan → r = nan) ∧ (val (p e) = .inf false → r = code (.inf false)) ∧ (val (p e) = .inf true → r = 0)
        ∧ (w = 16 → r = code (exp2 (val (p e)))) ∧ (w = 32 → near (exp2 (val (p e))) r))
    ∧ (where' (.vrcp a) fun e r => (val (p e) = .nan → r = nan) ∧ (∀ b, val (p e) = .inf b → r = code (.fin b 0 0))
        ∧ (∀ b k, val (p e) = .fin b 0 k → r = code (.inf b)) ∧ (w = 16 → r = code (rcp (val (p e))))
        ∧ (w = 32 → near (rcp (val (p e))) r))
    ∧ (gives (.vredsum a) (tree fun a b => code ((val a).add (val b))))
    ∧ (gives (.vredmin a) (tree least)) ∧ (gives (.vredmax a) (tree most))
    ∧ (gives (.vbcast a) fun _ => (x.rd a.va).setWidth w)
    ∧ ((∀ e, (Instr.vget a).enc = some e → Runs s e) →
        Completes (.vget a) s (u.setCx (x.wr a.vd ((p ((x.rd a.vb).toNat % (1024 / w))).zeroExtend 64))) 4)

/-- R306 to R308: VLD and VST move up to 128 bytes of own local memory; VGATHER and VSCATTER move one element a lane at the lane's
address, a later lane over an earlier one. R182, R189, R190, R196, R309: the transfers, one per 256-byte block, are made in order; the
first that is refused raises ACCESS, the first that fails its check bits MEM_DATA, and a single error is corrected.
Log entries of the model's own choices and readings here: 37. -/
def Obligations.VectorMemory : Prop :=
  ∀ (a : FrameW) (s : State), (s.begun 8).owns →
    let u := s.begun 8
    let x := u.cx
    let c := u.vecIssued
    let runs (i : Instr) : Prop := ∀ e, i.enc = some e → Runs s e
    let at0 := x.rd a.x
    let len := a.p2.toNat % 128 + 1
    let n : Nat := if a.p2.getLsbD 5 then 2 else 4
    let laneAt (l : Nat) : Word := at0 + ((u.el 32 (a.p2.setWidth 5) l).signExtend 64 <<< (a.p2.toNat / 64 % 4))
    let lanes (offs : Nat → Nat) : Prop := ∀ l, l < 32 → (laneAt l).toNat % n = 0 ∧ BlockAt u (laneAt l) n (offs l)
    (at0.toNat % 8 ≠ 0 → (∀ e, (Instr.vld a).enc = some e → Runs s e → Raises (.vld a) s e cAlign at0)
      ∧ ∀ e, (Instr.vst a).enc = some e → Runs s e → Raises (.vst a) s e cAlign at0)
    ∧ (∀ off, at0.toNat % 8 = 0 → BlockAt u at0 len off →
        (runs (.vld a) → VecGives (.vld a) s 8 a.v 8 fun e => if e < len then u.mem.byte (off + e) else 0)
        ∧ (runs (.vst a) → ∃ t, exec (.vst a) s = .next t ∧ Stored u t off ((List.range len).map fun e => u.el 8 a.v e) (x.pc + 8)))
    ∧ (∀ offs, lanes offs →
        (runs (.vgather a) → VecGives (.vgather a) s 8 a.v (8 * n) fun e =>
          if e < 32 then BitVec.ofNat (8 * n) (leNat (u.mem.read (offs e) n)) else 0)
        ∧ (runs (.vscatter a) → ∃ t m k, exec (.vscatter a) s = .next t ∧ Retired { u with mem := m, ecc := k } t (x.pc + 8)
            ∧ (∀ l, l < 32 → (∀ j, l < j → j < 32 → offs j ≠ offs l) → leNat (Mem.read m (offs l) n) = (u.el (8 * n) a.v l).toNat)
            ∧ (∀ b, (∀ l, l < 32 → b < offs l ∨ offs l + n ≤ b) → Mem.byte m b = u.mem.byte b)
            ∧ ∀ w, tget EccMark.good k w = .good ∨ tget EccMark.good k w = u.eccOf w))
    ∧ (at0.toNat % 8 = 0 → let ts := blockPieces at0 len; let d := (List.range len).map fun e => u.el 8 a.v e
        (∀ e, (Instr.vld a).enc = some e → Runs s e → ReadsFail (.vld a) s c e reqVector ts id
          ∧ ∀ d v, c.unitRead reqVector ts = (.ok d, v) → Completes (.vld a) s (v.givenVec a.v (BitVec.ofNat 1024 (leNat d))) 8)
        ∧ ∀ e, (Instr.vst a).enc = some e → Runs s e → WritesFail (.vst a) s c e reqVector ts d id
          ∧ ∀ v, c.unitWrite reqVector ts d = (none, v) → Completes (.vst a) s v 8)
    ∧ (∀ gs, u.laneGroups a = .ok gs → let val (l : Nat) : Nat := (u.el (8 * n) a.v l).toNat
        (∀ e, (Instr.vgather a).enc = some e → Runs s e →
          (∀ q v, c.gatherLanes n gs = (.error q, v) → RaisesAs (.vgather a) s v e q.1 q.2)
          ∧ ∀ vs v, c.gatherLanes n gs = (.ok vs, v) →
              Completes (.vgather a) s (v.givenVec a.v (BitVec.ofNat 1024 (packLanes (8 * n) (vs.map fun q => q.2)))) 8)
        ∧ ∀ e, (Instr.vscatter a).enc = some e → Runs s e →
          (∀ q v, c.scatterLanes n val gs = (some q, v) → RaisesAs (.vscatter a) s v e q.1 q.2)
          ∧ ∀ v, c.scatterLanes n val gs = (none, v) → Completes (.vscatter a) s v 8)
    ∧ (∀ l, l < 32 → (laneAt l).toNat % n ≠ 0 → (∀ j, j < l → (laneAt j).toNat % n = 0) →
        (∀ e, (Instr.vgather a).enc = some e → Runs s e → Raises (.vgather a) s e cAlign (laneAt l))
        ∧ ∀ e, (Instr.vscatter a).enc = some e → Runs s e → Raises (.vscatter a) s e cAlign (laneAt l))

/-- R310 to R313: VCVT converts one block of elements and sets FMTSTAT as R231 says, VWID6 widens, VQMX quantises blocks of 32 into
elements and scales, the scales last where both go to one register, VTRD and VTWR move one row of a tile register; a register, a row or
(of VTWR) a BPR that the mode does not have raises TILE_SHAPE. Log entries of the model's own choices and readings here: 51. -/
def Obligations.VectorConversions : Prop :=
  ∀ (a : FrameW) (s : State), (s.begun 8).owns →
    let u := s.begun 8
    let m := u.mx
    let k := m.mode.toNat
    let y := a.p2.toNat
    let runs (i : Instr) : Prop := ∀ e, i.enc = some e → Runs s e
    let r := a.x.toNat
    let row := (u.cx.rd (a.p2.setWidth 5)).toNat % 64
    let bpr := y / 32 % 128 + 1
    let grp := r / (regCount k / 4)
    (runs (.vcvt a) →
      let fr := y % 16
      let to' := y / 16 % 16
      let n := cvtCount fr to'
      let w := fmtBits to'
      let cs (i : Nat) := fmtEnc to' (fmtDec fr (u.el (fmtBits fr) a.x (y / 256 % 8 * n + i)).toNat)
      let ovf := (List.range n).any fun i => (cs i).ovf
      let inv := (List.range n).any fun i => (cs i).inv
      ∃ v : BitVec 1024, Completes (.vcvt a) s { u.givenVec a.v v with
          mx := { (u.givenVec a.v v).mx with ovf := m.ovf || ovf, inv := m.inv || inv },
          core := { u.core with mxDirty := u.core.mxDirty ||| (1 <<< vecGroup a.v) ||| (if ovf || inv then 0x80 else 0) } } 8
        ∧ ∀ e, e < 1024 / w → v.extractLsb' (w * e) w =
            if y / 2048 % 8 * n ≤ e ∧ e < y / 2048 % 8 * n + n then BitVec.ofNat w (cs (e - y / 2048 % 8 * n)).code else u.el w a.v e)
    ∧ (runs (.vwid6 a) →
      let to' := y % 16
      let n : Nat := if to' = 6 then 64 else 32
      let kind := if y.testBit 4 then e2m3 else e3m2
      VecGives (.vwid6 a) s 8 a.v (fmtBits to') fun e =>
        BitVec.ofNat _ (fmtEnc to' (kind.dec (u.el 6 a.x (y / 32 % 8 * n + e)).toNat)).code)
    ∧ (runs (.vqmx a) →
      let vc : BitVec 5 := a.p2.setWidth 5
      let to' := y / 32 % 16
      let w := fmtBits to'
      let vals (i : Nat) : FV := if y.testBit 9 then fp32.dec (u.el 32 a.x i).toNat else bf16.dec (u.el 16 a.x i).toNat
      let nb : Nat := if y.testBit 9 then 1 else 2
      let block (b : Nat) := mxBlock to' ((List.range 32).map fun i => vals (32 * b + i))
      let ovf := (List.range nb).any fun b => (block b).2.2
      let q := y / 1024 % 8
      let at0 := y / 8192 % 128
      ∃ v v' : BitVec 1024, Completes (.vqmx a) s { (u.givenVec a.v v).givenVec vc v' with
          mx := { ((u.givenVec a.v v).givenVec vc v').mx with ovf := m.ovf || ovf },
          core := { ((u.givenVec a.v v).givenVec vc v').core with
            mxDirty := ((u.givenVec a.v v).givenVec vc v').core.mxDirty ||| (if ovf then 0x80 else 0) } } 8
        ∧ (∀ e, e < 1024 / w → v.extractLsb' (w * e) w = if 32 * q ≤ e ∧ e < 32 * q + 32 * nb
            then BitVec.ofNat w ((block ((e - 32 * q) / 32)).1.getD ((e - 32 * q) % 32) 0) else u.el w a.v e)
        ∧ ∀ e, e < 128 → v'.extractLsb' (8 * e) 8 = if at0 ≤ e ∧ e < at0 + nb then BitVec.ofNat 8 (block (e - at0)).2.1
            else if vc = a.v then v.extractLsb' (8 * e) 8 else u.el 8 vc e)
    ∧ (r < regCount k → row < rowCount k →
      (runs (.vtrd a) → VecGives (.vtrd a) s 8 a.v 8 fun e =>
        if e < rowCap k then m.file.byte (r * regSize k + row * rowCap k + e) else 0)
      ∧ (runs (.vtwr a) → bpr ≤ rowCap k → ∃ f, Completes (.vtwr a) s { u with
          mx := { m with file := f, tags := tput Tag.zero m.tags r (rowTag (m.tag r) row bpr (y / 4096 % 16)) },
          core := { u.core with mxDirty := u.core.mxDirty ||| (1 <<< grp) } } 8
        ∧ ∀ i, Mem.byte f i = if r * regSize k + row * rowCap k ≤ i ∧ i < r * regSize k + row * rowCap k + rowCap k
            then (if i - (r * regSize k + row * rowCap k) < bpr then u.el 8 a.v (i - (r * regSize k + row * rowCap k)) else 0)
            else m.file.byte i))
    ∧ (r < regCount k → rowCount k ≤ row → ∀ e, (Instr.vtrd a).enc = some e → Runs s e →
        Raises (.vtrd a) s e cTileShape (BitVec.ofNat 64 (0x200 + 2 ^ 16 * r + 2 ^ 48 * (row + 1))))
    ∧ (r < regCount k → (rowCount k ≤ row ∨ rowCap k < bpr) → ∀ e, (Instr.vtwr a).enc = some e → Runs s e →
        Raises (.vtwr a) s e cTileShape (BitVec.ofNat 64 (0x200 + 2 ^ 16 * r + 2 ^ 48 * (row + 1) + 2 ^ 56 * bpr)))
    ∧ (regCount k ≤ r → ∀ i ∈ [Instr.vtrd a, .vtwr a], ∀ e, i.enc = some e → Runs s e → Raises i s e cTileShape (BitVec.ofNat 64 (256 + 65536 * r)))

/-! ### Tiles and the matrix array -/

/-- R254 to R259: TLD loads rows of own local memory into a tile register, zero-padded, and tags it; TZERO zeroes one; TST stores
rows, changing no other byte. An address or stride that is no multiple of 8 raises ALIGN, and what does not fit its cause (R268); the
transfers of R256 are made in order, the first that is refused raising ACCESS at its lowest-numbered row and the first that fails its
check bits MEM_DATA.
Log entries of the model's own choices and readings here: 37. -/
def Obligations.TileMoves : Prop :=
  ∀ (m : FrameM) (s : State), (s.begun 8).owns →
    let u := s.begun 8
    let x := u.cx
    let k := u.mx.mode.toNat
    let runs (i : Instr) : Prop := ∀ e, i.enc = some e → Runs s e
    let r := m.t
    let base := r * regSize k
    let rowAt (i : Nat) : Word := x.rd m.rs1 + BitVec.ofNat 64 i * x.rd m.rs2
    let rows (offs : Nat → Nat) : Prop := (x.rd m.rs1).toNat % 8 = 0 ∧ (x.rd m.rs2).toNat % 8 = 0 ∧ ∀ i, i < m.rows → BlockAt u (rowAt i) m.bpr (offs i)
    let tag : Tag := { rows := BitVec.ofNat 7 m.rows, bpr := BitVec.ofNat 8 m.bpr, fmt := BitVec.ofNat 4 m.fmt }
    let given (i : Instr) (f : Mem) : Prop := Completes i s { u with
      mx := { u.mx with file := f, tags := tput Tag.zero u.mx.tags r tag },
      core := { u.core with mxDirty := u.core.mxDirty ||| (1 <<< (r / (regCount k / 4))) } } 8
    let inTile (i : Nat) : Prop := base ≤ i ∧ i < base + regSize k
    (u.memFit false m = none →
      (∀ offs, rows offs → runs (.tld m) → ∃ f, given (.tld m) f ∧ ∀ i, Mem.byte f i =
        if inTile i then (if (i - base) / rowCap k < m.rows ∧ (i - base) % rowCap k < m.bpr
          then u.mem.byte (offs ((i - base) / rowCap k) + (i - base) % rowCap k) else 0) else u.mx.file.byte i)
      ∧ (runs (.tzero m) → ∃ f, given (.tzero m) f ∧ ∀ i, Mem.byte f i = if inTile i then 0 else u.mx.file.byte i))
    ∧ (u.memFit true m = none → ∀ offs, rows offs → runs (.tst m) → ∃ t f e, exec (.tst m) s = .next t
        ∧ Retired { u with mem := f, ecc := e } t (x.pc + 8)
        ∧ (∀ i, i < m.rows → (∀ j, i < j → j < m.rows → offs j + m.bpr ≤ offs i ∨ offs i + m.bpr ≤ offs j) →
            Mem.read f (offs i) m.bpr = u.mx.file.read (base + i * rowCap k) m.bpr)
        ∧ (∀ b, (∀ i, i < m.rows → b < offs i ∨ offs i + m.bpr ≤ b) → Mem.byte f b = u.mem.byte b)
        ∧ ∀ w, tget EccMark.good e w = .good ∨ tget EccMark.good e w = u.eccOf w)
    ∧ (let ts := (u.tileTransfers m).map xferOf
      (x.rd m.rs1).toNat % 8 = 0 → (x.rd m.rs2).toNat % 8 = 0 →
        (u.memFit false m = none → ∀ e, (Instr.tld m).enc = some e → Runs s e → ReadsFail (.tld m) s u e reqMatrix ts (rowRefused (u.tileTransfers m))
          ∧ ∀ d v, u.unitRead reqMatrix ts = (.ok d, v) →
              Completes (.tld m) s (v.setMx (v.mx.setTile r (pieces m.bpr (toRows (u.tileTransfers m) d)) tag) (v.tileGroup r)) 8)
        ∧ (u.memFit true m = none → let d := toTransfers (u.tileTransfers m) ((List.range m.rows).flatMap fun i => u.mx.row r i m.bpr)
            ∀ e, (Instr.tst m).enc = some e → Runs s e → WritesFail (.tst m) s u e reqMatrix ts d (rowRefused (u.tileTransfers m))
              ∧ ∀ v, u.unitWrite reqMatrix ts d = (none, v) → Completes (.tst m) s v 8))
    ∧ (∀ i ∈ [(Instr.tld m, false), (.tst m, true)], u.memFit i.2 m = none → ∀ e, i.1.enc = some e → Runs s e →
        ((x.rd m.rs1).toNat % 8 ≠ 0 → Raises i.1 s e cAlign (x.rd m.rs1))
        ∧ ((x.rd m.rs1).toNat % 8 = 0 → (x.rd m.rs2).toNat % 8 ≠ 0 → Raises i.1 s e cAlign (x.rd m.rs2)))
    ∧ (∀ i ∈ [(Instr.tld m, false), (.tst m, true), (.tzero m, false)], ∀ f, u.memFit i.2 m = some f → ∀ e, i.1.enc = some e → Runs s e →
        Raises i.1 s e f.cause f.addr)
    ∧ (regCount k ≤ r → ∀ i ∈ [Instr.tld m, .tst m, .tzero m], ∀ e, i.enc = some e → Runs s e →
        Raises i s e cTileShape (BitVec.ofNat 64 (256 + 65536 * r)))

/-- R260, R261, R281, R282: MMA of INT8 tiles adds the exact sum of products to every cell of M by N while no cell can overflow; MMA
and MMAS of any permitted pair complete with the set of R283; MZ empties the set and MHCLR the histogram. -/
def Obligations.MatrixProducts : Prop :=
  ∀ (m : FrameM) (s : State), (s.begun 8).owns →
    let u := s.begun 8
    let k := u.mx.mode.toNat
    let acc := u.mx.acc
    let runs (i : Instr) : Prop := ∀ e, i.enc = some e → Runs s e
    let given (i : Instr) (a : AccSet) : Prop := Completes i s { u with
      mx := { u.mx with acc := a },
      core := { u.core with mxDirty := u.core.mxDirty ||| 0x10 } } 8
    let val (a : AccSet) (i j : Nat) : Int := (tget AccCell.zero a.cells (16 * i + j)).v.toInt
    let byte (r i e : Nat) : Int := (u.mx.file.byte (r * regSize k + i * rowCap k + e)).toInt
    let dot (i j : Nat) : Int := ((List.range m.kLen).map fun e => byte m.t i e * byte m.tb j e).sum
    (runs (.mz m) → given (.mz m) { acc with cells := [], mode := 0, acs := 0 })
    ∧ (runs (.mhclr m) → Completes (.mhclr m) s { u with mx := { u.mx with ehist := [] }, core := { u.core with mxDirty := u.core.mxDirty ||| 0x80 } } 8)
    ∧ (runs (.mma m) → u.productFit false m = none → given (.mma m) (u.mx.mma false m).1)
    ∧ (runs (.mmas m) → u.productFit true m = none → given (.mmas m) (u.mx.mma true m).1)
    ∧ (runs (.mma m) → u.productFit false m = none → m.fmtA = 1 → acc.acs = 0 →
        (∀ i j, i < 32 → j < 16 → -(2 ^ 31 - 2 ^ 22) ≤ val acc i j ∧ val acc i j ≤ 2 ^ 31 - 2 ^ 22 - 1) → ∃ a, given (.mma m) a
          ∧ a.mode = 2 ∧ a.acs = 0 ∧ a.loss = acc.loss ∧ a.sat = acc.sat ∧ a.lossCnt = acc.lossCnt ∧ a.repCnt = acc.repCnt
          ∧ ∀ i j, i < 32 → j < 16 → val a i j = val acc i j + if i < m.mRows ∧ j < m.nCols then dot i j else 0)
    ∧ (∀ f, u.productFit false m = some f → ∀ e, (Instr.mma m).enc = some e → Runs s e → Raises (.mma m) s e f.cause f.addr)
    ∧ ∀ f, u.productFit true m = some f → ∀ e, (Instr.mmas m).enc = some e → Runs s e → Raises (.mmas m) s e f.cause f.addr

/-- R263, R287, R288: MDRAIN marks a drain; the copy takes the set, emptied under CLR; the completion gives Td the drained elements
and its tag, zeroing its other bytes, counts the histogram, sets FMTSTAT and advances the LFSR of a stochastic drain (R231, R232, R234,
R236), and writes nothing of memory. A register the mode does not have raises TILE_SHAPE; with no drain to copy or to complete, or the
clock stopped, each of the two does nothing. An MDRAIN in front of which no asynchronous entry is taken (R113, R153) is abandoned by
none. Log entries of the model's own choices and readings here: 3, 51. -/
def Obligations.MatrixDrain : Prop :=
  ∀ s : State,
    let u := s.begun 8
    let firm : Bool := u.cx.afterEret || !u.cx.prods.isEmpty
    (∀ m : FrameM, u.owns → m.td < regCount u.mx.mode.toNat → (∀ e, (Instr.mdrain m).enc = some e → Runs s e) →
      Completes (.mdrain m) s { u with
        mx := { u.mx with drain := some { m := m, ctx := s.core.cur, pc := u.cx.pc, firm := firm, copied := false, set := AccSet.reset } } } 8)
    ∧ (∀ (m : FrameM) (e : Enc), u.owns → regCount u.mx.mode.toNat ≤ m.td → (Instr.mdrain m).enc = some e → Runs s e →
        Raises (.mdrain m) s e cTileShape (BitVec.ofNat 64 (256 + 65536 * m.td)))
    ∧ ((s.nodeRuns = false ∨ s.mx.drain = none) → exec .mdrainCopy s = .next s ∧ exec .mdrainComplete s = .next s)
    ∧ (∀ d : Drain, s.nodeRuns = true → s.mx.drain = some d →
      let acc := s.mx.acc
      let k := s.mx.mode.toNat
      let f := d.m.dFmt
      let w := fmtBits f
      let bpr := (d.m.nCols * w + 7) / 8
      let x := s.ctx d.ctx
      let at0 := d.m.td * regSize k
      let cells : List (Nat × Nat) := (List.range d.m.mRows).flatMap fun i => (List.range d.m.nCols).map fun j => (i, j)
      let exact (i j : Nat) : FV × Bool := d.set.drainValue (d.set.cell i j) (if d.m.sen then some (tget 0 s.mx.scale d.m.sn).toNat else none)
      let lfsr (n : Nat) : BitVec 32 := Nat.repeat lfsr16 n x.srstate
      let conv (i j : Nat) : Conv :=
        if d.m.sr then bf16Stoch (exact i j).1 ((lfsr (i * d.m.nCols + j + 1)).toNat % 65536) else fmtEnc f (exact i j).1
      (d.copied = false → exec .mdrainComplete s = .next s ∧ exec .mdrainCopy s = .next { s with mx := { s.mx with
          drain := some { d with copied := true, set := acc },
          acc := if d.m.clr then { acc with cells := [], mode := 0, acs := 0 } else acc } })
      ∧ (d.copied = true → exec .mdrainCopy s = .next s)
      ∧ (d.copied = true → d.m.td < regCount k → f < 8 → (d.m.sr = true → f = 6) → ∃ t, exec .mdrainComplete s = .next t
          ∧ t.mx.drain = none ∧ t.mx.acc = acc ∧ t.mx.mode = s.mx.mode ∧ t.mx.vreg = s.mx.vreg ∧ t.mx.scale = s.mx.scale
          ∧ t.mem = s.mem ∧ t.rtr = s.rtr ∧ t.qe = s.qe
          ∧ t.ctx d.ctx = { x with srstate := if d.m.sr then lfsr (d.m.mRows * d.m.nCols) else x.srstate }
          ∧ (∀ r, r ≠ d.m.td → t.mx.tag r = s.mx.tag r)
          ∧ t.mx.tag d.m.td = { rows := BitVec.ofNat 7 d.m.mRows, bpr := BitVec.ofNat 8 bpr, fmt := BitVec.ofNat 4 f }
          ∧ (∀ c, c ≠ d.ctx → t.ctx c = s.ctx c)
          ∧ { t.core with c0 := s.core.c0, c1 := s.core.c1, mxDirty := s.core.mxDirty } = s.core
          ∧ t.core.mxDirty = s.core.mxDirty ||| (1 <<< (d.m.td / (regCount k / 4))) ||| 0x80 ||| (if d.m.clr then 0x10 else 0)
          ∧ t.mx.ovf = (s.mx.ovf || cells.any fun e => (conv e.1 e.2).ovf)
          ∧ t.mx.inv = (s.mx.inv || cells.any fun e => (exact e.1 e.2).2 || (conv e.1 e.2).inv)
          ∧ (∀ b, (tget 0 t.mx.ehist b).toNat =
              min ((tget 0 s.mx.ehist b).toNat + (cells.filter fun e => histBin (exact e.1 e.2).1 = some b).length) (2 ^ 32 - 1))
          ∧ (∀ i, (i < at0 ∨ at0 + regSize k ≤ i) → t.mx.file.byte i = s.mx.file.byte i)
          ∧ (∀ i, at0 ≤ i → i < at0 + regSize k → (d.m.mRows ≤ (i - at0) / rowCap k ∨ bpr ≤ (i - at0) % rowCap k) → t.mx.file.byte i = 0)
          ∧ ∀ i j, i < d.m.mRows → j < d.m.nCols → elemAt (t.mx.row d.m.td i bpr) w j = (conv i j).code))

/-- R264, R265: MSAVE stores the image of the set in own local memory and changes no other byte; MREST of a well-formed image takes
the set from it, of another raises TILE_FORMAT; what MREST reads from an image that MSAVE stored is the set. Their transfers, one per
256-byte block, are made in order; the first refused raises ACCESS, the first that fails its check bits MEM_DATA (R190, R196).
Log entries of the model's own choices and readings here: 37. -/
def Obligations.AccumulatorImages : Prop :=
  (∀ (m : FrameM) (s : State) (off : Nat), (s.begun 8).owns →
    let u := s.begun 8
    let p := u.cx.rd m.rs1
    let runs (i : Instr) : Prop := ∀ e, i.enc = some e → Runs s e
    let img := u.mem.read off 7232
    (p.toNat % 64 ≠ 0 → ∀ i ∈ [Instr.msave m, .mrest m], ∀ e, i.enc = some e → Runs s e → Raises i s e cAlign p)
    ∧ (p.toNat % 64 = 0 → BlockAt u p 7232 off →
        (runs (.msave m) → ∃ t, exec (.msave m) s = .next t ∧ Stored u t off (accImage u.mx.acc) (u.cx.pc + 8))
        ∧ (runs (.mrest m) → accImageOk img = true → Completes (.mrest m) s { u with
            mx := { u.mx with acc := accOfImage img },
            core := { u.core with mxDirty := u.core.mxDirty ||| 0x10 } } 8)
        ∧ (accImageOk img = false → ∀ e, (Instr.mrest m).enc = some e → Runs s e → ∃ v a, Like u v ∧
            exec (.mrest m) s = .next ((v.raise cTileFormat a u.cx.pc (BitVec.ofNat 32 e.parcel)).taken)))
    ∧ (p.toNat % 64 = 0 → let ts := blockPieces p 7232
        (∀ e, (Instr.msave m).enc = some e → Runs s e → WritesFail (.msave m) s u e reqMatrix ts (accImage u.mx.acc) id
          ∧ ∀ v, u.unitWrite reqMatrix ts (accImage u.mx.acc) = (none, v) → Completes (.msave m) s v 8)
        ∧ ∀ e, (Instr.mrest m).enc = some e → Runs s e → ReadsFail (.mrest m) s u e reqMatrix ts id
          ∧ (∀ d v, u.unitRead reqMatrix ts = (.ok d, v) → accImageOk d = true →
              Completes (.mrest m) s (v.setMx { v.mx with acc := accOfImage d } [4]) 8)
          ∧ ∀ d v, u.unitRead reqMatrix ts = (.ok d, v) → accImageOk d = false →
              RaisesAs (.mrest m) s v e cTileFormat (Fit.addr ⟨5, 0x17, 0, Tag.zero, 0, 0⟩)))
  ∧ ∀ a : AccSet, (accImage a).length = 7232
      ∧ (∀ i j, i < 32 → j < 16 → (accOfImage (accImage a)).cell i j = a.cell i j)
      ∧ (accOfImage (accImage a)).mode = a.mode ∧ (accOfImage (accImage a)).acs = a.acs ∧ (accOfImage (accImage a)).loss = a.loss
      ∧ (accOfImage (accImage a)).sat = a.sat ∧ (accOfImage (accImage a)).lossCnt = a.lossCnt ∧ (accOfImage (accImage a)).repCnt = a.repCnt

/-- R189, R190, R192: the write-back of a corrected word makes its check bits good; the scrubber goes on by one block of 32 words,
marks its single errors corrected and changes no byte; until PERIOD ticks have passed since the last block nothing is read.
Log entries of the model's own choices and readings here: 3, 60. -/
def Obligations.EccRows : Prop :=
  (∀ (w : BitVec 19) (s : State),
    exec (.eccWriteback w) s = .next (if s.nodeRuns = true ∧ s.eccOf w.toNat = .corrected then { s with ecc := tput .good s.ecc w.toNat .good } else s))
  ∧ ∀ s : State, s.nodeRuns = true → s.g F.scrubPeriod ≠ 0 →
      let b := s.g F.scrubNext
      (s.spn.scrubTicks < s.g F.scrubPeriod → exec .scrubBlock s = .next s)
      ∧ (s.g F.scrubPeriod ≤ s.spn.scrubTicks → ∃ t, Yields .scrubBlock s t ∧ t.g F.scrubNext = (b + 1) % 16384 ∧ t.spn.scrubTicks = 0
        ∧ t.mem = s.mem ∧ t.core = s.core ∧ t.mx = s.mx
        ∧ ((∀ w, w / 32 = b → s.eccOf w ≠ .bad) → ∀ w, t.eccOf w = if w / 32 = b ∧ s.eccOf w = .single then .corrected else s.eccOf w)
        ∧ ((∃ w, w / 32 = b ∧ s.eccOf w = .bad) → t.ecc = s.ecc ∧ t.g F.eccValid = 1 ∧ t.g F.eccWord / 32 = b ∧ s.eccOf (t.g F.eccWord) = .bad))

/-! ### Packets -/

/-- R77, R324, R327, R334, R459: a packet row puts a good packet into its input buffer, one of class 1 that finds the escape buffer
free returning its credits at once; it is counted and absorbed before the router routes, with a reserved TYPE, with a LEN its type
does not have (a request then answered MALFORMED), and at HOPS 127; corrected flits are counted; an uncorrectable error in its body is
recorded and a request answered DATA, one in its header fails the port, and a failed port's input discards what arrives.
Log entries of the model's own choices and readings here: 9, 10, 23, 82. -/
def Obligations.PacketArrival : Prop :=
  ∀ (s : State) (a : Arrival) (e : Instr × BitVec 5),
    e ∈ [((Instr.read a, 1) : Instr × BitVec 5), (.readData a, 2), (.write a, 3), (.writeAck a, 4), (.atomic a, 5), (.doorbell a, 6), (.msg a, 7),
      (.msgDropped a, 8), (.fenced a, 9), (.fenceCmd a, 0x0A), (.mcWrite a, 0x0B), (.mcDrop a, 0x0C), (.ply a, 0x0D), (.skein a, 0x0E),
      (.budget a, 0x0F), (.faultReport a, 0x12)] →
    let i := a.port
    let q : Packet := if typeDefined a.pkt.ty then { a.pkt with ty := e.2 } else a.pkt
    let p : Packet := if s.portMode i = 3 then { q with host := true, shost := true, sport := BitVec.ofNat 2 i.num, src := s.self } else q
    let u : State := { s with rtr := { s.rtr with idle := false, idleTicks := 0 } }
    let where' := i.num + 4 * p.vc.toNat
    a.pkt.payload.length = a.pkt.len.toNat → a.pkt.len.toNat ≤ 256 → s.listens i = true →
      (s.rtr.draining.getLsbD i.num = true → exec e.1 s = .next (u.credit i p.vc (flits p)).settle)
      ∧ (s.rtr.draining.getLsbD i.num = false →
      (∀ v, (a.err = .clean ∧ v = u ∨ ∃ n, a.err = .corrected n ∧ v = u.sat F.flitCorr n) →
        let free := v.credit i p.vc (flits p)
        let enter (w : State) (owed : Nat) : State := { w with rtr := { w.rtr with inq := w.rtr.inq ++ [(i, p, owed)] } }
        let good : Prop := s.routable = true ∧ typeDefined a.pkt.ty = true
        (good → lenOk e.2 p.len.toNat = true → p.hops ≠ 127 → exec e.1 s = .next
          (if p.xcls = true ∧ s.escBusy i p.vc = false then enter free 0 else enter v (flits p)).settle)
        ∧ (s.routable = false → exec e.1 s = .next (free.sat F.earlyDrop 1).settle)
        ∧ (s.routable = true → typeDefined a.pkt.ty = false → exec e.1 s = .next (free.sat F.badPkt 1).settle)
        ∧ (good → lenOk e.2 p.len.toNat = false → exec e.1 s = .next
          (if isRequest p then (free.sat F.badPkt 1).sendError p 6 else free.sat F.badPkt 1).settle)
        ∧ (good → lenOk e.2 p.len.toNat = true → p.hops = 127 → exec e.1 s = .next (free.sat F.hopDrop 1).settle))
      ∧ (∀ n, a.err = .body n →
          let w := ((u.credit i p.vc (flits p)).sat F.flitCorr n).record { source := 0x02, cls := 2, ctx := none, info := where', addr := p.dst.toNat }
          exec e.1 s = .next (if s.routable = true ∧ isRequest p = true then w.sendError p 2 else w).settle)
      ∧ (∀ n, a.err = .header n →
          let w := ((u.credit i p.vc (flits p)).sat F.flitCorr n).record { source := 0x03, cls := 4, ctx := none, info := where', addr := 0 }
          let w := w.put F.portFail (setBits (w.g F.portFail) i.num 1 1)
          exec e.1 s = .next (State.settle { w with rtr := { w.rtr with
            draining := BitVec.ofNat 4 (setBits w.rtr.draining.toNat i.num 1 1), drainEnd := BitVec.ofNat 4 (setBits w.rtr.drainEnd.toNat i.num 1 0) } })))

/-- R75, R76, R79: a COORD at W gives X, at S gives Y, one more than the sender's; the second coordinate known sets VALID and sends
COORD on; one that disagrees is start-up fault 4. An ENUM gives the die ID and size once, goes on to the other neighbours, is held
until the coordinates are known, and is start-up fault 6 or 7 where it disagrees or does not fit. The timeout is fault 5.
Log entries of the model's own choices and readings here: 12, 19. -/
def Obligations.CoordinatesAndIds : Prop :=
  (∀ (s : State) (a : Arrival),
    let i := a.port
    let v : State := { s with rtr := { s.rtr with idle := false, idleTicks := 0 } }
    let free := v.credit i a.pkt.vc 1
    let x := (a.pkt.payload.getD 0 0).toNat % 32
    let y := (a.pkt.payload.getD 1 0).toNat % 32
    let die := leNat (a.pkt.payload.take 2) % 4096
    let w := (a.pkt.payload.getD 2 0).toNat % 64
    let h := (a.pkt.payload.getD 3 0).toNat % 64
    let p (ty : BitVec 5) : Packet :=
      if s.portMode i = 3 then { a.pkt with ty := ty, host := true, shost := true, sport := BitVec.ofNat 2 i.num, src := s.self }
      else { a.pkt with ty := ty }
    let known (u : State) (isX : Bool) : State :=
      { u with up := { u.up with xKnown := u.up.xKnown || isX, yKnown := u.up.yKnown || !isX } }
    let firstX := known (free.put F.coordX (x + 1)) true
    let firstY := known (free.put F.coordY (y + 1)) false
    let id := ((free.put F.die die).put F.dieW w).put F.dieH h |>.put F.dieValid 1
    let hint := s.g F.hint
    a.pkt.len = 32 → a.pkt.payload.length = 32 → s.listens i = true → s.rtr.draining.getLsbD i.num = false → a.err = .clean → a.pkt.hops ≠ 127 →
    typeDefined a.pkt.ty = true →
      (i = .w → s.up.xKnown = false → s.up.yKnown = false → x < 31 → exec (.coord a) s = .next firstX.settle)
      ∧ (i = .s → s.up.xKnown = false → s.up.yKnown = false → y < 31 → exec (.coord a) s = .next firstY.settle)
      ∧ (i = .w → s.up.xKnown = false → s.up.yKnown = true → s.g F.coordY = y → x < 31 → s.is F.coordValid = false → bit hint 10 = false →
          s.up.held = none → exec (.coord a) s = .next ((firstX.put F.coordValid 1).sendCoords).settle)
      ∧ (i = .s → s.up.yKnown = false → s.up.xKnown = true → s.g F.coordX = x → y < 31 → s.is F.coordValid = false → bit hint 10 = false →
          s.up.held = none → exec (.coord a) s = .next ((firstY.put F.coordValid 1).sendCoords).settle)
      ∧ (i = .w → s.up.xKnown = true → s.g F.coordX ≠ x + 1 → s.up.yKnown = false → exec (.coord a) s = .next (free.startUpFault 4).settle)
      ∧ ((i = .n ∨ i = .e) → exec (.coord a) s = .next free.settle)
      ∧ (s.is F.coordValid = false → s.up.held = none →
          exec (.enum a) s = .next (State.settle { free with up := { free.up with held := some { pkt := p 0x10, port := i } } }))
      ∧ (s.is F.coordValid = true → s.is F.dieValid = true →
          exec (.enum a) s = .next (if die = s.g F.die then free else free.startUpFault 6).settle)
      ∧ (s.is F.coordValid = true → s.is F.dieValid = false → (w = 0 ∨ 32 < w ∨ h = 0 ∨ 32 < h ∨ w ≤ s.g F.coordX ∨ h ≤ s.g F.coordY) →
          exec (.enum a) s = .next (free.startUpFault 7).settle)
      ∧ (s.is F.coordValid = true → s.is F.dieValid = false → 1 ≤ w → w ≤ 32 → 1 ≤ h → h ≤ 32 → s.g F.coordX < w → s.g F.coordY < h →
          exec (.enum a) s = .next (([Port.n, .e, .s, .w].foldl (fun u q =>
            if q ≠ i ∧ u.portMode q = 0 then u.hold .l q (p 0x10) 0 else u) id).tryBootWait).settle))
  ∧ ∀ s : State,
      let t : State := { s with up := { s.up with readyTicks := 2501 } }
      let seen : Prop := ∀ p ∈ [Port.n, .e, .s, .w], s.meshPort p = true → s.up.creditSeen.getLsbD p.num = true
      (¬ (s.up.ready = true ∧ s.up.readyTicks = 2500) → exec .coordTimeout s = .next s)
      ∧ (s.up.ready = true → s.up.readyTicks = 2500 → seen → Yields .coordTimeout s (if s.is F.coordValid then t else t.startUpFault 5))

/-- R330, R334: a packet of this die for another node steps along X, then along Y, one hop more on it, while the neighbour's port
stands; a lone packet for this node is handed to its block. -/
def Obligations.Routing : Prop :=
  ∀ (s : State) (i : Port) (p : Packet) (owed : Nat),
    let x := s.g F.coordX
    let y := s.g F.coordY
    let tx := bits p.dst.toNat 40 5
    let ty := bits p.dst.toNat 45 5
    let out : Port := if x < tx then .e else if tx < x then .w else if y < ty then .n else .s
    p.ty ≠ 0x0B → p.ty ≠ 0x0E → p.ty ≠ 0x0D → p.dst.getLsbD 63 = false → bits p.dst.toNat 50 12 = s.g F.die →
      ((tx ≠ x ∨ ty ≠ y) → tx < s.g F.dieW → ty < s.g F.dieH → p.wpv = false → s.portMode out = 0 → bit (s.g F.portFail) out.num = false →
        s.route i p owed = ({ s with rtr := { s.rtr with held := s.rtr.held ++
          [{ pkt := { p with hops := p.hops + 1 }, inp := i, out := out, branch := false, sent := 0, owed := owed, ticks := 0,
             cls1 := p.xcls, drop := 0 }] } }, none))
      ∧ (tx = x → ty = y → x < s.g F.dieW → y < s.g F.dieH → p.tohost = false → p.xd = false → s.mustHold p = false → s.routable = true →
          (∀ q, (s.lnk q).inbound = []) → (i = .l ∨ owed = 0 ∨ p.xcls = false) → s.rtr.inq = [(i, p, owed)] → s.rtr.held = [] → s.rtr.ply = [] → s.rtr.plyWait = [] → s.rtr.ingress = [] →
          ∃ v, s.settleStep = some (v.consume p) ∧
            Like (State.credit (State.granted { s with rtr := { s.rtr with inq := [], idle := false, idleTicks := 0 } } .l i p.vc) i p.vc owed) v)

/-- R84, R195, R211, R336, R340, R386, R412, R413: what a request does at its node in service: WRITE stores and is acknowledged, READ
and ATOMIC answer with the bytes found, a page that does not admit it refuses it and so does bit 62 of the address (R31), DOORBELL and
MSG enter their FIFOs, entries that fail their parity discarded first (R460), or are dropped when these are full, and a fenced node
answers FENCED. Log entries of the model's own choices and readings here: 53. -/
def Obligations.RequestsServed : Prop :=
  ∀ (s : State) (p : Packet),
    let off := offOf p.dst
    let n : Nat := if p.ty = 1 then p.aux.toNat % 512 else if p.ty = 5 then 8 else p.payload.length
    let good : Prop := ∀ w ∈ eccWords off n, s.eccOf w = .good
    let pages (op : Nat) : Bool := s.remoteRangeOk off n op p.host
    let ring := bits p.aux.toNat 0 4
    let tail := bits p.aux.toNat 16 16
    let c := CtxId.named p.aux.toNat
    let u := s.purge
    let atomic (old : Word) : Word :=
      let a := BitVec.ofNat 64 (field p.payload 0 8)
      if p.aux.getLsbD 0 then (if old = a then BitVec.ofNat 64 (field p.payload 8 8) else old) else old + a
    (s.isFenced = true → p.ty.toNat ∈ [1, 3, 5, 6, 7, 0x0B] → isSink p = false → off < 0x400000 → s.consume p = s.sendFenced p)
    ∧ (s.inRun = true → s.isFenced = false → s.power < 2 →
      (p.ty.toNat ∈ [1, 3, 5, 0x0B] → 1 ≤ n → n ≤ 256 → off + n ≤ benchBase → (p.ty = 5 → off % 8 = 0) →
        (p.dst.getLsbD 62 = true → s.consume p = s.refuse p stUnmapped)
        ∧ (p.dst.getLsbD 62 = false → (pages (if p.ty = 1 then 1 else if p.ty = 5 then 3 else 2) = false → s.consume p = s.refuse p 1)
        ∧ (good → (p.ty = 3 ∨ p.ty = 0x0B) → pages 2 = true → ∃ m e v,
            s.consume p = (if isSink p then v else v.sendAck p 0).inboundWrote off n ∧ Like { s with mem := m, ecc := e } v
            ∧ (∀ a, Mem.byte m a = if off ≤ a ∧ a < off + n then p.payload.getD (a - off) 0 else s.mem.byte a)
            ∧ ∀ w, tget EccMark.good e w = if w ∈ eccWords off n then .good else s.eccOf w)
        ∧ (good → p.ty = 1 → pages 1 = true → ∃ v, s.consume p = v.sendData p (s.mem.read off n) ∧ Like s v)
        ∧ (good → p.ty = 5 → pages 3 = true → ∃ m e v,
            s.consume p = v.sendData p (s.mem.read off 8) ∧ Like { s with mem := m, ecc := e } v
            ∧ (∀ a, Mem.byte m a = if off ≤ a ∧ a < off + 8 then (bytesOf 8 (atomic (s.dw off))).getD (a - off) 0 else s.mem.byte a)
            ∧ ∀ w, tget EccMark.good e w = if w ∈ eccWords off 8 then .good else s.eccOf w)))
      ∧ (s.qe.bad = [] → u = s)
      ∧ (p.ty = 6 →
        let letIn : Prop := u.is (F.rEn ring) = true ∧ tail < u.ringSize ring ∧ (u.g (F.rDbPerm ring) = 3 ∨ (1 ≤ u.g (F.rDbPerm ring) ∧ p.host = true)
          ∨ (u.g (F.rDbPerm ring) = 2 ∧ bits p.src.toNat 10 12 = u.g F.die))
        (¬ letIn → s.consume p = u.refuse p 1)
        ∧ (letIn → 32 ≤ u.qe.db.length → s.consume p = (u.put F.dbOvr 1).sendDropped p false)
        ∧ (letIn → u.qe.db.length < 32 → s.consume p = { u with qe := { u.qe with
            db := u.qe.db ++ [(BitVec.ofNat 4 ring, BitVec.ofNat 16 tail)],
            timers := if u.qe.db = [] then tput 0 u.qe.timers 0 0 else u.qe.timers } }))
      ∧ (p.ty = 7 →
        let letIn : Prop := u.is (F.imqEn c.num) = true ∧ (u.is (F.imqHostOnly c.num) = true → p.host = true)
        let mine := u.qe.imq.filter fun e => e.ctx = c
        (¬ letIn → s.consume p = u.refuse p 1)
        ∧ (letIn → (128 ≤ u.qe.imq.length ∨ u.g (F.imqLim c.num) ≤ mine.length) →
            s.consume p = (u.put (F.imqOvr c.num) 1).sendDropped p (decide (c = .c1)))
        ∧ (letIn → u.qe.imq.length < 128 → mine.length < u.g (F.imqLim c.num) →
            Like { u with qe := { u.qe with
              imq := u.qe.imq ++ [{ ctx := c, bytes := u.imqBytes p }],
              timers := if mine = [] then tput 0 u.qe.timers (1 + c.num) 0 else u.qe.timers } } (s.consume p))))

/-- R209, R210, R212, R336, R414, R440, R456, R465, R476: what the other packets do at their block: an answer no one awaits is counted
stray; an acknowledged store retires and a failed one is kept and recorded; the data of a load goes to its register, a sector of code
to L1I, whose context goes on with its fetch or raises what failed (R203); MSG_DROPPED is counted; BUDGET, SKEIN, FENCE_CMD and
FAULT_REPORT are taken or counted and refused. Log entries of the model's own choices and readings here: 7, 12, 25, 48, 55, 56. -/
def Obligations.BlockPackets : Prop :=
  ∀ (s : State) (p : Packet),
    let b := p.payload
    let resp : Prop := p.ty = 2 ∨ p.ty = 4 ∨ p.ty = 8 ∨ p.ty = 9 ∨ p.ty = 0x0C
    let done (v : State) : State := { v with qe := { v.qe with outst := v.qe.outst.filter fun e => e.1 ≠ p.tag } }
    let live : Prop := s.isFenced = false ∧ s.inRun = true ∧ s.power < 2
    let gen := leNat (b.take 2)
    let fl := leNat ((b.drop 2).take 1)
    let word (i : Nat) : Nat := leNat ((b.drop i).take 4)
    (resp → s.isFenced = true → s.consume p = s.sat F.stray 1)
    ∧ (live → (p.ty = 2 ∨ p.ty = 4 ∨ p.ty = 0x0C) → (∀ e ∈ s.qe.outst, e.1 ≠ p.tag) → s.consume p = s.sat F.stray 1)
    ∧ (live → p.ty = 8 → bits p.aux.toNat 17 5 = 7 →
        s.consume p = (((s.sat (F.sendDrop (p.tag.toNat % 2)) 1).put (F.sendSeq (p.tag.toNat % 2)) (bits p.aux.toNat 0 16)).put
          (F.sendFenced (p.tag.toNat % 2)) 0).put (F.sendNode (p.tag.toNat % 2)) p.src.toNat)
    ∧ (∀ c, live → s.ownerOf p.tag = some (.store c) →
        (p.ty = 4 → p.status = 0 → ∃ v, Like s v ∧ s.consume p = (done v).setCtx c { s.ctx c with posted := (s.ctx c).posted.filter fun e => e.tag ≠ p.tag })
        ∧ (p.ty = 4 → p.status ≠ 0 → ∃ v, Like s v ∧ s.consume p = ((done v).setCtx c { s.ctx c with
            posted := (s.ctx c).posted.map fun e => if e.tag = p.tag then { e with answer := some p.status } else e }).record
              { source := 0x04, cls := 2, ctx := some c, info := p.status.toNat,
                addr := (((s.ctx c).posted.find? fun e => e.tag = p.tag).map fun e => e.addr.toNat).getD 0 }))
    ∧ (∀ c tag a f, live → s.ownerOf p.tag = some (.load c) → (s.ctx c).wait = .load tag a f false → p.ty = 2 →
        (p.status = 0 → ∃ v, Like s v ∧ s.consume p = ((done v).setCtx c (({ s.ctx c with wait := .run } : Ctx).wr f.rd (f.value b))).retireOf c ((s.ctx c).pc + 4))
        ∧ (p.status ≠ 0 → ∃ v, Like s v ∧ s.consume p = ((done v).setCtx c { s.ctx c with wait := .run }).raiseOf c (if p.status = 2 then cMemData else cAccess) a
            (s.ctx c).pc f.inst))
    ∧ (∀ c at0 tag a inst, live → s.ownerOf p.tag = some (.code c at0) → (s.ctx c).wait = .fetch tag a inst → p.ty = 2 → ∃ v, Like s v ∧
        let filled := (done v).codeFill c at0 b
        (p.status = 0 → s.consume p = if tag = p.tag then filled.setCtx c { s.ctx c with wait := .run } else filled)
        ∧ (p.status ≠ 0 → s.consume p = if tag = p.tag then ((done v).setCtx c { s.ctx c with wait := .run }).raiseOf c
            (if p.status = 2 then cMemData else cAccess) a (s.ctx c).pc inst else done v))
    ∧ (p.ty = 0x0F →
      let ok : Prop := (p.host = true ∨ (s.is F.bSrcValid = true ∧ p.src.toNat = s.g F.bSrc))
        ∧ (s.is F.bGenValid = true → 1 ≤ (gen + 65536 - s.g F.bGen) % 65536 ∧ (gen + 65536 - s.g F.bGen) % 65536 ≤ 32767)
        ∧ fl < 16 ∧ leNat ((b.drop 3).take 1) = 0 ∧ leNat ((b.drop 6).take 2) = 0 ∧ (∀ i, i < 12 → b.getD (20 + i) 0 = 0) ∧ b.length = 32
        ∧ p.aux = 0 ∧ (bit fl 1 = true → 1 ≤ word 8) ∧ (bit fl 3 = true → 25 ≤ word 16 ∧ word 16 ≤ 100000000)
      (¬ ok → s.consume p = s.hwAdd F.bRej 1)
      ∧ (ok → let t := s.consume p
          t.g F.bGen = gen ∧ t.is F.bGenValid = true ∧ t.g F.fill = (if bit fl 0 then leNat ((b.drop 4).take 2) else s.g F.fill)
          ∧ t.g F.cap = (if bit fl 1 then word 8 else s.g F.cap) ∧ t.g F.debtMax = (if bit fl 2 then word 12 else s.g F.debtMax)
          ∧ t.g F.epoch = (if bit fl 3 then word 16 else s.g F.epoch) ∧ t.g (F.spnEvt 6) = 1 ∧ t.core = s.core ∧ t.mem = s.mem ∧ t.rtr = s.rtr))
    ∧ (p.ty = 0x0E →
      let accept : Prop := s.g F.obsAccept = 0 ∨ p.host = true ∨ (s.g F.obsAccept = 1 ∧ p.xd = false)
      (¬ accept → s.consume p = s.sat F.skeinRej 1)
      ∧ (accept → s.consume p = s.trigger {
          kind := 0, id := leNat (b.take 2), hops := p.hops.toNat, xd := p.xd, src := p.src.toNat, host := p.host,
          orig := some (leNat ((b.drop 8).take 8)) }))
    ∧ (p.ty = 0x0A →
      let op := leNat (b.take 1)
      let nonce := leNat ((b.drop 8).take 8)
      let key := (List.range 4).flatMap fun j => toLe 8 (s.g (F.fcKey j))
      let direct : Prop := p.host = true ∧ s.is F.hostOk = true
      let mac : Prop := (hmac384 key (slice b 0 16 ++ toLe 4 s.self.toNat)).take 16 = slice b 16 16
      let note (src info : Nat) : FaultRec := { source := src, cls := 5, ctx := none, info := info + 2 ^ 10 * p.src.toNat, addr := nonce }
      let taken : State := (s.put F.fcNonce nonce).record (note 0x30 (op % 4 + 4 * (if p.host then 1 else 0)))
      (¬ direct → s.is F.fcKeyValid = false → s.consume p = (s.record (note 0x31 1)).hwAdd F.fcRej 1)
      ∧ (¬ direct → s.is F.fcKeyValid = true → ¬ mac → s.consume p = (s.record (note 0x31 2)).hwAdd F.fcRej 1)
      ∧ ((direct ∨ (s.is F.fcKeyValid = true ∧ mac)) →
        (nonce ≤ s.g F.fcNonce → s.consume p = (s.record (note 0x31 3)).hwAdd F.fcRej 1)
        ∧ (s.g F.fcNonce < nonce → (op ≠ 1 ∧ op ≠ 2 ∨ leNat ((b.drop 1).take 7) ≠ 0) → s.consume p = (s.record (note 0x31 4)).hwAdd F.fcRej 1)
        ∧ (s.g F.fcNonce < nonce → leNat ((b.drop 1).take 7) = 0 →
            (op = 1 → s.consume p = taken.fence 4) ∧ (op = 2 → s.consume p = taken.requestReset))))
    ∧ (p.ty = 0x12 → s.consume p = if s.is F.rxEn then (if 16 ≤ s.fltRx.length then s.hwSet F.rxOvr else { s with fltRx := s.fltRx ++ [slice b 0 32] }) else s)

/-- R46, R49, R317, R326, R339, R343, R348, R353, R455, R459: the events of the router: a credit and a WAKE come in; an output sends what
it grants, whole in class 0, as far as its credits go in class 1 and on a host port, to the edge adapter on a link port, each flit with
its check bits (R48); a branch that has lacked its credits past the
hold time is dropped and reported by the MC_DROP its entry asked for; a Ply instance past its time, at least 1, goes on; filter entries
expire; the unsent record is reported; draining ends.
Log entries of the model's own choices and readings here: 3, 6, 10, 15, 24, 34, 74. -/
def Obligations.RouterEvents : Prop :=
  ∀ s : State,
    let rtr (f : Router → Router) : State := { s with rtr := f s.rtr }
    (∀ (p : Port) (vc : BitVec 2),
      let k := 4 * p.num + vc.toNat
      let on : Prop := s.pins.porstN = true ∧ p ≠ .l ∧ (s.portMode p = 0 ∨ s.portMode p = 3)
      (on → exec (.creditReturn p vc) s = .next { s with
          rtr := { s.rtr with credits := tput 0 s.rtr.credits k (tget 0 s.rtr.credits k + 1) },
          up := { s.up with creditSeen := s.up.creditSeen ||| (1 <<< p.num) } })
      ∧ (¬ on → exec (.creditReturn p vc) s = .next s)
      ∧ (∀ t, on → exec (.wakeIn ⟨p, t⟩) s = .next (rtr fun r => { r with
          idle := false, idleTicks := 0, wakeIn := r.wakeIn ||| (1 <<< p.num), wakeLeft := tput 0 r.wakeLeft p.num (max t (tget 0 r.wakeLeft p.num)) }))
      ∧ (∀ t, ¬ on → exec (.wakeIn ⟨p, t⟩) s = .next s))
    ∧ (∀ (p : Port) (h : Held), s.sends p = true → s.rtr.held = [h] → h.out = p → h.sent = 0 → h.inp = .l → bit (s.g F.portFail) p.num = false →
        (s.portMode p = 1 → h.pkt.xcls = false ∧ s.is (F.lInsvc p.num) = true) →
        let k := 4 * p.num + h.pkt.vc.toNat
        let c := tget 0 s.rtr.credits k
        let need : Nat := if h.pkt.xcls = true ∨ s.portMode p = 3 then 1 else flits h.pkt + 3
        let n := min c (flits h.pkt)
        let fs := (toFlits h.pkt).take n
        let run : Bundle := { flit := fs.getLastD 0, fecc := flitEcc (fs.getLastD 0) h.pkt.vc, fvalid := true, fvc := h.pkt.vc, wake := true,
                              run := fs.map fun f => (f, flitEcc f h.pkt.vc) }
        (need ≤ c → (∀ q, (s.lnk q).inbound = []) → s.rtr.inq = [] → s.rtr.ply = [] → s.rtr.plyWait = [] → s.rtr.ingress = [] →
          let u := rtr fun r => { r with
              bundle := tput Bundle.quiet r.bundle p.num run,
              credits := tput 0 r.credits k (c - n), turn := tput 4 r.turn k 4,
              vcTurn := if h.pkt.vc = 2 then r.vcTurn else tput 3 r.vcTurn p.num h.pkt.vc.toNat, idle := false, idleTicks := 0,
              held := if n = flits h.pkt then [] else [{ h with sent := n }] }
          let out : State := if s.portMode p = 1 then u.setLnk p { u.lnk p with packets := (u.lnk p).packets ++
              [{ pkt := h.pkt, flits := toFlits h.pkt, started := false, last := none, owed := flits h.pkt, esc := false }] }
            else { u with rtr := { u.rtr with
              driven := if n = flits h.pkt then tput Packet.blank u.rtr.driven p.num h.pkt else u.rtr.driven } }
          ∃ v, Like out v ∧ exec (.packetSend p) s = .next v.refresh)
        ∧ (c < need → exec (.packetSend p) s = .next s.settle))
    ∧ (∀ p, s.sends p = false → exec (.packetSend p) s = .next s)
    ∧ (let short (h : Held) : Prop := bit (s.g F.portFail) h.out.num = true ∨ tget 0 s.rtr.credits (4 * h.out.num + h.pkt.vc.toNat)
          < if h.pkt.xcls = true ∨ s.portMode h.out = 3 then 1 else flits h.pkt + 3
       let due (p : Port) (h : Held) : Prop := h.out = p ∧ h.branch = true ∧ h.sent = 0 ∧ max 1 (s.g F.mcHold) < h.ticks ∧ short h
       (∀ p : Port, (∀ h ∈ s.rtr.held, ¬ due p h) → exec (.mcBranchHoldExpiry p) s = .next s)
       ∧ (∀ (p : Port) (h : Held) (r : List Held), s.rtr.held = h :: r → due p h →
          let v := rtr fun q => { q with held := r }
          let w := if r.any fun k => h.sameBuf k then v else v.credit h.inp h.pkt.vc h.owed
          exec (.mcBranchHoldExpiry p) s = .next ((w.sat F.mcDrop 1).inject
            (respondTo h.pkt 0x0C 2 0 (BitVec.ofNat 64 h.drop) [])).settle)
       ∧ ∀ (i o : Port) (q : Packet) (owed : Nat), q.ty = 0x0B →
          let x := q.aux.toNat
          State.copyOut i owed s (o, q) = rtr fun r => { r with held := r.held ++ [{
            pkt := { q with hops := q.hops + 1 }, inp := i, out := o, branch := true, sent := 0, owed := owed, ticks := 0, cls1 := q.xcls,
            drop := if bit x 20 then s.g (F.mcgRect (bits x 0 6) o.num) + 2 ^ 20 * s.g (F.mcgCount (bits x 0 6) o.num)
              else bits x 0 20 + 2 ^ 20 * ((rectX1 x - rectX0 x + 1) * (rectY1 x - rectY0 x + 1)) }] })
    ∧ (∀ (entry : BitVec 5) (inst : BitVec 16),
        let due (h : PlyInst) : Prop := h.entry = entry.toNat ∧ h.inst = inst ∧ max 1 (bits h.conf.toNat 32 16) ≤ h.age
        ((∀ h ∈ s.rtr.ply, ¬ due h) → exec (.plyTimeout entry inst) s = .next s)
        ∧ (∀ h r, s.rtr.ply = h :: r → due h →
            let out := bits h.conf.toNat 17 3
            let v := ((rtr fun q => { q with ply := r }).put (F.plyLast h.entry) inst.toNat).put (F.plyLastV h.entry) 1
            let some' : Prop := ∃ e ∈ h.inputs, e.1 ∉ h.spoilt
            let goes : Prop := out < 4 ∧ s.portMode (Port.named out) = 0
            (¬ some' → exec (.plyTimeout entry inst) s = .next v.settle)
            ∧ (some' → out = 4 → exec (.plyTimeout entry inst) s = .next (State.toL .l (v, some (s.plyResult h, 0))).settle)
            ∧ (some' → goes → exec (.plyTimeout entry inst) s = .next (State.settle (State.hold { v with fresh := s.fresh + 2 } .l (Port.named out)
                { s.plyResult h with seq := (Config.freeWord s.fresh).setWidth 16, dst := Config.freeWord (s.fresh + 1) } 0)))
            ∧ (some' → out ≠ 4 → ¬ goes → exec (.plyTimeout entry inst) s = .next (v.sat F.unreach 1).settle)))
    ∧ exec .dupEntryExpiry s = .next (rtr fun r => { r with dup := r.dup.filter fun e => e.age < s.g F.dupWin })
    ∧ (((s.is F.rptValid && s.is F.dieValid && s.up.ready) = false ∨ ∀ i, i < 32 → s.is (F.recValid i) = true → s.is (F.recSent i) = true) →
        s.still → Yields .faultReportSend s s)
    ∧ (∀ i, i < 32 → s.is F.rptValid = true → s.is F.dieValid = true → s.up.ready = true → s.is (F.recValid i) = true → s.is (F.recSent i) = false →
        (∀ j, j < 32 → j ≠ i → s.is (F.recValid j) = true → s.is (F.recSent j) = true) →
        exec .faultReportSend s = .next ((s.inject { Packet.mk' 0x12 2 (BitVec.ofNat 64 (s.g F.rptNode * 2 ^ 40)) 0 0
          ((List.range 4).flatMap fun k => toLe 8 (s.g (F.rec i k))) with tohost := s.is F.rptToHost, hport := BitVec.ofNat 2 (s.g F.rptHport) }).put
            (F.recSent i) 1).settle)
    ∧ ∀ p : Port,
        let due : Prop := p ≠ .l ∧ s.rtr.drainEnd.getLsbD p.num = true ∧ bit (s.g F.portFail) p.num = false
        (due → exec (.portDrainingEnd p) s = .next (rtr fun r => { r with draining := r.draining &&& ~~~((1 : BitVec 4) <<< p.num), drainEnd := r.drainEnd &&& ~~~((1 : BitVec 4) <<< p.num) }))
        ∧ (¬ due → exec (.portDrainingEnd p) s = .next s)

/-! ### Edge adapters -/

/-- R51, R358, R363, R364, R368, R369, R371, R372, R373, R374, R375, R377: the events of an edge adapter: the states left at their times,
lanes becoming healthy and losing health, alignment, the NAK and replay timers, error windows, and a width change not answered.
Log entries of the model's own choices and readings here: 3, 47. -/
def Obligations.LinkEvents : Prop :=
  ∀ (s : State) (p : Port), s.pins.porstN = true → s.isLink p = true →
    let i := p.num
    let x := s.lnk p
    let st := s.linkSt p
    let ends (c : Instr) (u : State) : Prop := exec c s = .next u.settle
    let reset (u : State) (y : LinkPort) : State := u.linkAnew p (s.is (F.lRate i)) y
    let fresh := { x with winTicks := 0, crcWin := 0, uncWin := [], corWin := [] }
    let repTo := max 1 (s.g (F.lRepTo i))
    let narrow' (m : BitVec 4) : BitVec 4 :=
      if m = 0xF ∨ (lanesOf m).length ≤ 2 then m else ((lanesOf m).take 2).foldl (fun a l => a ||| (1 <<< l)) 0
    let mask := s.linkMask p
    let capping : Prop := st = 4 ∨ (st = 6 ∧ 16 ≤ x.matched)
    -- PHY_LSTAT becomes `l`
    let show' (l : BitVec 16) : LinkPort :=
      let y := { x with lstat := l, okTicks := x.okTicks.filter fun e => (healthyOf l).getLsbD e.1 }
      if st = 3 then { y with laneEn := y.healthy &&& ~~~x.retired } else y
    (∀ e ∈ [((Instr.linkResetDone p, 1, 25) : Instr × Nat × Nat), (.detachedDone p, 7, 25), (.alignTimeout p, 3, 250), (.capTimeout p, 4, 2500),
        (.retrainTimeout p, 6, 2750)], (st ≠ e.2.1 ∨ x.timer < e.2.2) → ends e.1 s)
    ∧ (st = 1 → 25 ≤ x.timer → ends (.linkResetDone p) (s.linkIn p 2 { x with rstN := true, laneEn := 0xF }))
    ∧ (st = 7 → 25 ≤ x.timer → ends (.detachedDone p) (s.linkIn p 2 { x with rstN := true, laneEn := 0xF }))
    ∧ (st = 3 → 250 ≤ x.timer → ends (.alignTimeout p) (if x.detaching then s.detachEnd p true else reset s x))
    ∧ (st = 4 → 2500 ≤ x.timer → ends (.capTimeout p) (if x.detaching then s.detachEnd p true else (s.linkOut p 9 x).put (F.lEvt i 4) 1))
    ∧ (st = 6 → 2750 ≤ x.timer → x.detaching = false → ends (.retrainTimeout p) (s.channelGone p))
    ∧ (∀ lstat : BitVec 16,
        let y := show' (x.lstat ||| lstat)
        let m := healthyOf (x.lstat ||| lstat) &&& ~~~x.sick
        let u := (s.put (F.lHealthy i) m.toNat).setLnk p y
        let long : Prop := ∃ l ∈ lanesOf (m &&& ~~~x.retired), 25 ≤ tget 0 y.okTicks l
        (x.rstN = false → ends (.phyHealthy p lstat) s)
        ∧ (x.rstN = true → (st ≠ 2 ∨ ¬ long) → ends (.phyHealthy p lstat) u)
        ∧ (x.rstN = true → st = 2 → long → ends (.phyHealthy p lstat) (u.linkIn p 3 { y with laneEn := m &&& ~~~x.retired, matched := 0 })))
    ∧ (∀ rx : List LaneWord,
        let ls := lanesOf (x.healthy &&& ~~~x.retired)
        let brings (l : Nat) (m : BitVec 4) : Prop :=
          rx.getD l none = some (BitVec.ofNat 256 (leNat [0x4C, 0x4E, 0x4B, 0x41, BitVec.ofNat 8 l, BitVec.ofNat 8 m.toNat]))
        let aligning : Prop := st = 3 ∨ (st = 6 ∧ x.matched < 16)
        let match' (m : BitVec 4) : Prop := ls ≠ [] ∧ brings (ls.headD 0) m ∧ ∀ l ∈ ls, ∃ k, brings l k
        ((¬ aligning ∨ ∀ w ∈ rx, w = none) → ends (.alignWord p rx) s)
        ∧ (aligning → (∃ w ∈ rx, w ≠ none) → (∀ m, ¬ match' m) → ends (.alignWord p rx) (s.setLnk p { x with matched := 0 }))
        ∧ (∀ theirs, aligning → match' theirs →
          let y := { x with matched := x.matched + 1, theirs := theirs }
          let t := narrow' (x.usable &&& theirs)
          let z := { y with
            capGot := false, capAck := false, capSent := false, wmask := 0, limit := 0, txd := [], txRest := [], txPos := 0,
            rxMask := t, rxWords := [], rxPos := 0, rxRest := [], rxTry := [] }
          (x.matched + 1 < 16 → ends (.alignWord p rx) (s.setLnk p y))
          ∧ (15 ≤ x.matched → t = 0 → x.detaching = false → ends (.alignWord p rx) (reset s y))
          ∧ (15 ≤ x.matched → t ≠ 0 → st = 6 → ends (.alignWord p rx) ((s.put (F.lMask i) t.toNat).setLnk p z))
          ∧ (15 ≤ x.matched → t ≠ 0 → st = 3 → ends (.alignWord p rx) ((s.put (F.lMask i) t.toNat).linkIn p 4 { z with
              laneEn := t, nextSeq := 0, expect := 0, ackV := false, replay := [], again := [], repEnds := [], rxCred := [], freed := [], placed := [],
              freedHere := [], partial0 := [], nakOut := false, nakSend := false, crcRun := 0, repAge := 0, retrain := false, nullSent := true,
              packets := x.packets.map (fun k => { k with flits := toFlits k.pkt, started := false, last := none }),
              inbound := x.inbound.map fun e => (e.1, 0) }))))
    ∧ (st = 5 → x.nakOut = true → repTo ≤ x.nakAge → ends (.nakTimerExpiry p) (s.setLnk p { x with nakSend := true, nakAge := 0 }))
    ∧ ((st ≠ 5 ∨ x.nakOut = false ∨ x.nakAge < repTo) → ends (.nakTimerExpiry p) s)
    ∧ (∀ f a, st = 5 → x.replay = a ++ [f] → repTo ≤ x.repAge → ends (.replayTimerExpiry p)
        ((s.setLnk p { x with again := x.replay.map (fun f => f.seq), repAge := 0, repEnds := x.repEnds ++ [f.seq] }).sat (F.lReplay i) 1))
    ∧ ((st ≠ 5 ∨ x.replay = [] ∨ x.repAge < repTo) → ends (.replayTimerExpiry p) s)
    ∧ (∀ f r, x.replay = f :: r →
        ((st = 5 ∨ st = 6) → s.g (F.lRetTo i) ≤ f.age → x.detaching = false → ends (.rettoExpiry p) (s.channelGone p))
        ∧ ((f.age < s.g (F.lRetTo i) ∨ x.detaching = true ∨ (st ≠ 5 ∧ st ≠ 6)) → ends (.rettoExpiry p) s))
    ∧ (st = 5 → x.wreq = true → 25 ≤ x.wAge → ends (.widthChangeTimeout p) (s.linkAgain p x.wmask x))
    ∧ ((st ≠ 5 ∨ x.wreq = false ∨ x.wAge < 25) → ends (.widthChangeTimeout p) s)
    ∧ (∀ l : BitVec 2,
        let n := tget 0 x.uncWin l.toNat + 1
        let y := { x with uncWin := tput 0 x.uncWin l.toNat n }
        let u := (s.sat (F.lFecUnc i l.toNat) 1).setLnk p y
        let lane : BitVec 4 := 1 <<< l.toNat
        let now := if x.wreq = true ∨ x.wack = true then x.wmask else if x.limit ≠ 0 then x.limit else mask
        let m := narrow' (now &&& ~~~lane &&& ~~~x.retired &&& ~~~x.owing)
        let due : Prop := s.g (F.lUncTh i) ≤ n ∧ (st = 4 ∨ st = 5 ∨ st = 6) ∧ mask.getLsbD l.toNat = true ∧ x.retired.getLsbD l.toNat = false
        let v := u.record { source := 0x0C, cls := 4, ctx := none, info := i + 4 * l.toNat + 256 * m.toNat, addr := 0 }
        let out := { y with retired := x.retired ||| lane }
        let marked := { out with sick := x.sick ||| lane }
        let w := v.put (F.lHealthy i) marked.healthy.toNat
        (x.rstN = false → ends (.fecUncorrectable p l) s)
        ∧ (x.rstN = true → ¬ due → ends (.fecUncorrectable p l) u)
        ∧ (x.rstN = true → due →
          (m = 0 → x.detaching = false → ends (.fecUncorrectable p l) (u.channelGone p))
          ∧ (m ≠ 0 → capping → ends (.fecUncorrectable p l) (u.setLnk p { y with owing := x.owing ||| lane }))
          ∧ (m ≠ 0 → st = 6 → x.matched < 16 → ends (.fecUncorrectable p l) (w.setLnk p { marked with limit := m }))
          ∧ (m ≠ 0 → st = 5 → x.hitless = true → ends (.fecUncorrectable p l) (v.setLnk p { out with
              wreq := true, wack := false, wackSent := false, wmask := m, wAge := 0, rxTry := [] }))
          ∧ (m ≠ 0 → st = 5 → x.hitless = false → ends (.fecUncorrectable p l) (w.linkAgain p m { marked with critNow := true }))))
    ∧ (∀ (l : BitVec 2) (k : BitVec 8),
        let n := tget 0 x.corWin l.toNat + k.toNat
        let u := (s.sat (F.lFecCor i l.toNat) k.toNat).setLnk p { x with corWin := tput 0 x.corWin l.toNat n }
        (x.rstN = false → ends (.fecCorrected p l k) s)
        ∧ (x.rstN = true → n < s.g (F.lCorTh i) → ends (.fecCorrected p l k) u)
        ∧ (x.rstN = true → s.g (F.lCorTh i) ≤ n → ends (.fecCorrected p l k) (u.retireLanes p (1 <<< l.toNat))))
    ∧ ((x.winTicks < 1024 * max 1 (s.g (F.lWin i)) → ends (.errorWindowEnd p) s)
        ∧ (1024 * max 1 (s.g (F.lWin i)) ≤ x.winTicks →
            (x.crcWin < s.g (F.lCrcTh i) → x.uncWin = [] → x.corWin = [] → ends (.errorWindowEnd p) (s.setLnk p fresh))
            ∧ ((st = 4 ∨ st = 5 ∨ st = 6) → 0 < x.crcWin → s.g (F.lCrcTh i) ≤ x.crcWin → x.detaching = false →
                ends (.errorWindowEnd p) ((s.setLnk p fresh).channelGone p))))
    ∧ (∀ lstat : BitVec 16,
        let l := x.lstat &&& lstat
        let m := healthyOf l &&& ~~~x.sick
        let hit := healthyOf x.lstat &&& ~~~healthyOf l &&& mask
        let u := (s.put (F.lHealthy i) m.toNat).setLnk p { show' l with lostNow := x.lostNow ||| hit }
        let all : Prop := mask &&& ~~~(x.lostNow ||| hit) = 0
        (hit = 0 → ends (.laneHealthLoss p lstat) u)
        ∧ (hit ≠ 0 → all → x.detaching = false → ends (.laneHealthLoss p lstat) (u.channelGone p))
        ∧ (hit ≠ 0 → ¬ all → m &&& mask = 0 → ends (.laneHealthLoss p lstat) (u.detachEnd p x.detaching))
        ∧ (hit ≠ 0 → ¬ all → m &&& mask ≠ 0 → ends (.laneHealthLoss p lstat) (u.retireLanes p hit)))

/-- R356 to R366, R368 to R371, R375 to R377: what an edge adapter sends and what a received frame does: bytes go to the lanes in use in
turn, word by word, and come back in that order; a bad frame is counted and asks once for a NAK, a DATA frame in sequence is accepted and
its packets wait for the router, one already received is dropped and one ahead asks for a NAK, DETACH ends service, CAP gives the
partner's figures, and header fields acknowledge and return credits, those of a CAP frame too; eight bad frames in a row in ACTIVE
retrain, CRCTH of them in a window retire the channel; three DETACH frames end a detach; and the writes of LNK_CTL.
Log entries of the model's own choices and readings here: 47, 81, 84. -/
def Obligations.LinkFrames : Prop :=
  ∀ (s : State) (p : Port), s.pins.porstN = true → s.isLink p = true →
    let i := p.num
    let x := s.lnk p
    let st := s.linkSt p
    let ends (c : Instr) (u : State) : Prop := exec c s = .next u.settle
    let nak (y : LinkPort) : LinkPort := if y.nakOut then y else { y with nakSend := true, nakOut := true, nakAge := 0 }
    let aligning : Prop := st = 3 ∨ (st = 6 ∧ x.matched < 16)
    let capping : Prop := st = 4 ∨ (st = 6 ∧ 16 ≤ x.matched)
    (∀ (m : BitVec 4) (d : List Byte), m ≠ 0 →
      let ls := lanesOf m
      let n := ls.length
      let y := LinkPort.emit { x with txd := [], txRest := [], txPos := 0 } m d
      (∀ w, 32 * (w + 1) ≤ d.length → (tget [] y.txd (ls.getD (w % n) 0)).getD (w / n) 0 = wordAt d w)
      ∧ (∀ l, l ∉ ls → tget [] y.txd l = [])
      ∧ ∀ (k : Nat) (other : Nat → Nat → LaneWord), d.length = 32 * n * k →
          (LinkPort.receive { x with rxWords := [], rxPos := 0 } m ((List.range k).map fun c => (List.range 4).map fun l =>
            if l ∈ ls then some (wordAt d (n * c + ls.idxOf l)) else other c l)).rxRest = x.rxRest ++ d)
    ∧ (∀ (rx : List (List LaneWord)), ∀ c ∈ [Instr.dataFrame p rx, .nullFrame p rx, .capFrame p rx, .detachFrame p rx],
      let old := x.receive x.rxMask rx
      let anew := s.rxAnew p x (x.tries rx)
      let kept := (x.tries rx).map (s.rxOn p x)
      let heard : Prop := st = 5 ∨ capping ∨ (st = 6 ∧ x.critNow = true)
      let good (f : List Byte) : Prop := field f (f.length - 4) 4 = frameCrc (f.take (f.length - 4)) ∧ field f 0 1 % 16 ≤ 3
      (¬ heard → ends c s)
      ∧ (heard → anew = none → s.rxTake p old = none → ends c (s.setLnk p { old with rxTry := kept }))
      ∧ (∀ f z, s.rxTake p old = some (f, z) → ¬ good f → anew = none → heard →
          let n := z.crcWin + 1
          let y := { (if st = 5 then nak z else z) with crcRun := if st = 5 then z.crcRun + 1 else 0, crcWin := n, rxTry := kept }
          let u := (s.sat (F.lCrcErr i) 1).setLnk p y
          (n < s.g (F.lCrcTh i) → (st = 5 → z.crcRun < 7) → ends c u)
          ∧ (n < s.g (F.lCrcTh i) → st = 5 → 7 ≤ z.crcRun → ends c (u.linkAgain p 0 y))
          ∧ (s.g (F.lCrcTh i) ≤ n → z.detaching = false → ends c (u.channelGone p)))
      ∧ (∀ f z, good f → heard → ((∃ q, s.rxTake p old = some (f, q) ∧ z = { q with rxTry := [] })
            ∨ (anew = some (f, z) ∧ ∀ g y, s.rxTake p old = some (g, y) → ¬ good g)) →
          let body := f.take (f.length - 4)
          let pay := body.drop 8
          let h := field body 0 8
          let seq := BitVec.ofNat 12 (bits h 4 12)
          let v := s.setLnk p { z with crcRun := 0 }
          let w := v.frameFields p h
          let y := w.lnk p
          (st = 5 →
            (h % 16 = 0 → ends c (if y.retrain then w.setLnk p { y.replayAll with retrain := false } else w))
            ∧ (h % 16 = 1 → seq = y.expect → ends c ((slotsOf h pay).foldl (State.acceptFlit p)
                ((w.setLnk p { y with expect := y.expect + 1, nakOut := false, ackV := true }).sat (F.lRxData i) 1)))
            ∧ (h % 16 = 1 → seq ≠ y.expect → (y.expect - seq).toNat ≤ 64 → ends c w)
            ∧ (h % 16 = 1 → 64 < (y.expect - seq).toNat → ends c (w.setLnk p (nak y)))
            ∧ (h % 16 = 2 → ends c (v.frameCredit p h))
            ∧ (h % 16 = 3 → w.linkSt p = 5 → y.detaching = false →
                let b := w.linkReturns p
                ends c ((b.put (F.lEvt i 1) 1).linkOut p 7 (b.lnk p))))
          ∧ (st ≠ 5 → (h % 16 ≠ 2 ∨ ¬ capping) → ends c v)
          ∧ (capping → h % 16 = 2 → let u := v.frameCredit p h; let z := u.lnk p
             1 ≤ field pay 0 1 % 4 → field pay 3 1 = b2n z.rate → (∀ k, k < 4 → field pay (8 + k) 1 ≠ 0) → z.capSent = false →
              let ver := if 2 ≤ field pay 0 1 % 4 then 2 else 1
              let t := (u.put (F.lVer i) ver).put (F.lPl128 i) (b2n (field pay 2 1 = 0))
              let t := (t.put (F.lPeerDie i) (field pay 12 2 % 4096)).put (F.lPeerValid i) (b2n (field pay 12 2 ≠ 0xFFFF))
              let t := (t.put (F.lPeerNode i) (field pay 14 2 % 1024)).put (F.lPeerPort i) (field pay 16 1 % 4)
              ends c (t.setLnk p { z with
                capGot := true, capAck := z.capAck || field pay 17 1 = 1, hitless := ver = 2 && bit (field pay 4 4) 0,
                rxCred := [(0, field pay 8 1), (1, field pay 9 1), (2, field pay 10 1), (3, field pay 11 1)] }))
          ∧ (capping → h % 16 = 2 → let u := v.frameCredit p h; let z := u.lnk p
             (field pay 0 1 % 4 = 0 ∨ field pay 3 1 ≠ b2n z.rate ∨ ∃ k, k < 4 ∧ field pay (8 + k) 1 = 0) → z.detaching = false →
              ends c ((u.linkOut p 9 z).put (F.lEvt i 4) 1))))
    ∧ (∀ h : Nat, s.g (F.lVer i) = 1 → bit h 29 = false →
        let v := bits h 42 2
        let k := tget 0 x.freed v
        let freed := tput 0 x.freed v (k + (bits h 44 12 + 4096 - k % 4096) % 4096)
        let seq := BitVec.ofNat 12 (bits h 16 12)
        ((bit h 28 = false ∨ ∀ f ∈ x.replay, f.seq ≠ seq) → s.frameFields p h = s.setLnk p { x with freed := freed })
        ∧ (∀ a f r, x.replay = a ++ f :: r → f.seq = seq → (∀ q ∈ a, q.seq ≠ seq) → bit h 28 = true → ∃ v, Like s v ∧
            s.frameFields p h = v.setLnk p { x with
              replay := r, repAge := 0, freed := freed, repEnds := x.repEnds.filter fun e => !((a ++ [f]).any fun q => q.seq = e),
              packets := x.packets.filter fun k => !((a ++ [f]).any fun q => k.last = some q.seq) }))
    ∧ (∀ q : Slot,
        let l := tget [] x.partial0 q.vc.toNat ++ [q.flit]
        let whole : Prop := flitCount (l.headD 0) ≤ l.length
        let u : State := { s with rtr := { s.rtr with idle := false, idleTicks := 0 } }
        (¬ whole → State.acceptFlit p s q = u.setLnk p { x with partial0 := tput [] x.partial0 q.vc.toNat l })
        ∧ (whole → State.acceptFlit p s q = u.setLnk p { x with
            partial0 := tput [] x.partial0 q.vc.toNat [],
            inbound := x.inbound ++ [({ ofFlits q.vc l with host := false, shost := false, exitV := false, wpv := false, hops := 0 }, l.length)] }))
    ∧ (let frame (ty seq slots : Nat) (b : List Byte) : List Byte :=
         let h := toLe 8 (ty + 2 ^ 4 * seq + 2 ^ 16 * ((x.expect.toNat + 4095) % 4096) + 2 ^ 28 * b2n x.ackV + slots
           + 2 ^ 42 * x.cvc.toNat + 2 ^ 44 * (tget 0 x.freedHere x.cvc.toNat % 4096)) ++ b
         h ++ toLe 4 (frameCrc h)
       let zeros := List.replicate (s.linkP p) (0 : Byte)
       let sent (f : List Byte) : LinkPort :=
         { LinkPort.emit { x with txd := [] } (s.linkMask p) f with
           frameOut := f, nakSend := false, cvc := x.cvc + 1, wackSent := x.wackSent || x.wack }
       (aligning → ends (.frameSend p) (s.setLnk p { x with
         txd := (lanesOf (x.healthy &&& ~~~x.retired)).map fun l =>
           (l, [BitVec.ofNat 256 (leNat [0x4C, 0x4E, 0x4B, 0x41, BitVec.ofNat 8 l, BitVec.ofNat 8 x.usable.toNat])]) }))
       ∧ (st ≠ 5 → ¬ aligning → ¬ capping → ends (.frameSend p) s)
       ∧ (x.nakSend = false → s.g (F.lVer i) = 1 →
        (st = 5 → (x.retrain = true ∨ x.nullSent = false ∨ (x.again = [] ∧ x.detaching = false ∧ x.packets = [])) →
            ends (.frameSend p) (s.setLnk p { sent (frame 0 0 0 zeros) with nullSent := true }))
        ∧ (st = 5 → x.retrain = false → x.nullSent = true → x.again = [] → x.detaching = true → (x.replay = [] ∨ s.g (F.lRetTo i) ≤ x.detAge) →
            (x.detSent < 3 → ends (.frameSend p) (s.setLnk p { sent (frame 3 0 0 zeros) with detSent := x.detSent + 1 }))
            ∧ (3 ≤ x.detSent → ends (.frameSend p) (s.detachEnd p true)))
        ∧ (∀ (k : TxPacket) (fl : BitVec 512), st = 5 → x.retrain = false → x.nullSent = true → x.again = [] → x.detaching = false → x.replay = [] →
            x.packets = [k] → k.flits = [fl] → k.started = false → k.pkt.xcls = false →
            flits k.pkt + 5 + tget 0 x.placed k.pkt.vc.toNat ≤ tget 0 x.rxCred k.pkt.vc.toNat + tget 0 x.freed k.pkt.vc.toNat → 1 ≤ s.g (F.lRepMax i) →
            let u : State := { s with rtr := { s.rtr with
              idle := false, idleTicks := 0,
              credits := (List.range 4).foldl (fun t v => tput 0 t (4 * i + v)
                (tget 0 t (4 * i + v) + if k.pkt.vc.toNat = v ∧ 1 ≤ k.owed then 1 else 0)) s.rtr.credits } }
            ends (.frameSend p) ((u.setLnk p { sent (frame 1 x.nextSeq.toNat (2 ^ 30 + 2 ^ 34 * k.pkt.vc.toNat) (toLe 64 fl.toNat ++ zeros.drop 64)) with
              packets := [{ k with flits := [], started := true, last := some x.nextSeq, owed := k.owed - 1 }],
              placed := tput 0 x.placed k.pkt.vc.toNat (tget 0 x.placed k.pkt.vc.toNat + 1),
              nextSeq := x.nextSeq + 1, repAge := 0,
              replay := [{ seq := x.nextSeq, slots := [⟨k.pkt.vc, fl⟩], sends := 1, age := 0 }] }).sat (F.lTxData i) 1))
        ∧ (st = 4 → (x.capGot = false ∨ x.capAck = false) →
            ends (.frameSend p) (s.setLnk p { sent (frame 2 0 0
                ([3, BitVec.ofNat 8 (s.g (F.lMask i)), 1, BitVec.ofNat 8 (b2n x.rate)] ++ toLe 4 (if x.capGot then 0 else 1) ++ [32, 32, 32, 32]
                  ++ toLe 2 (if s.is F.dieValid then s.g F.die else 0xFFFF) ++ toLe 2 (s.g F.node) ++ [BitVec.ofNat 8 i, if x.capGot then 1 else 0]
                  ++ List.replicate 238 0)) with capSent := x.capSent || x.capGot }))))
    ∧ ∀ w : RegWr, s.reaches w.who (F.lk i 0) true = true → s.mayWrite (s.accOf w.who) (F.lk i 0) = true →
        let set (en : Nat) : State := (s.put (F.lEn i) en).put (F.lRate i) (b2n (w.v.getLsbD 1))
        let acked (u : State) : State := if w.who = .core then u else u.ackWrite (asWrite w.req)
        let reset : State := (set 1).linkAnew p (w.v.getLsbD 1) x
        let retires := BitVec.ofNat 4 (bits w.v.toNat 4 4)
        (w.v.getLsbD 0 = true → st = 0 → s.up.ready = true → ends (.lnkCtlEn p w) (acked reset))
        ∧ (w.v.getLsbD 0 = false → st = 0 → ends (.lnkCtlEn p w) (acked (set 0)))
        ∧ (w.v.getLsbD 0 = false → st = 5 → x.detaching = false → retires &&& s.linkMask p &&& ~~~x.retired = 0 → ends (.lnkCtlEn p w)
            (acked (((set 0).put (F.lInsvc i) 0).setLnk p { x with detaching := true, detSent := 0, detAge := 0 })))
        ∧ (w.v.getLsbD 0 = true → (st = 8 ∨ st = 9) → ends (.rearm p w) (acked reset))
        ∧ (w.v.getLsbD 0 = true → w.v.getLsbD 2 = false → x.detaching = false → st ≠ 0 → st ≠ 8 → st ≠ 9 →
            ends (.retire p w) (acked ((set 1).retireLanes p retires)))

/-! ### The queue engine -/

/-- R387, R391 to R393, R395, R396, R398, R400 to R402, R404, R405, R407, R411, R415, R460: the queue engine applies the doorbells whose
entries pass their parity, fetches heads, starts each type of descriptor, completes it, ends it when its watchdog expires, and marks stale FIFOs.
R196, R497: a transfer that is refused ends a descriptor with ACCESS, one that cannot be read with DATA; remote ends take READs and WRITEs.
R436, R437: the flits and transfers of a ring's engine count in its activity. The watchdog of a KERNEL marks the slot that KERNEL fills.
Log entries of the model's own choices and readings here: 3, 6, 28, 32, 45, 58, 61, 83. -/
def Obligations.QueueEvents : Prop :=
  ∀ s : State, s.inRun = true → s.nodeRuns = true →
    let left := s.purge
    (left.qe.db = [] → exec .doorbellApply s = .next left)
    ∧ (∀ e r, left.qe.db = e :: r →
        let n := e.1.toNat
        let size := left.ringSize n
        let ahead (t : Nat) : Nat := (t + size - left.g (F.rHead n) % size) % size
        let u : State := { left with qe := { left.qe with db := r, timers := tput 0 left.qe.timers 0 0 } }
        Yields .doorbellApply s (if ahead (left.g (F.rTail n)) ≤ ahead e.2.toNat then u.put (F.rTail n) e.2.toNat else u.sat F.dbStaleCnt 1))
    ∧ (∀ ring : BitVec 4,
        let n := ring.toNat
        let r := s.ring n
        let c := s.ringCtx n
        let h := s.g (F.rHead n)
        let place := s.place (s.ringBase n + BitVec.ofNat 64 (64 * h))
        let ready : Prop := s.is (F.rEn n) = true ∧ h ≠ s.g (F.rTail n) ∧ r.exec = none ∧ r.head = none ∧ r.fetching = none ∧ s.is (F.rHeld n) = false
        let failed : State := ((s.put (F.rEn n) 0).put (F.rFerr n) 1).record
          { source := 0x05, cls := 2, ctx := some c, info := n + 2 ^ 16 * h, addr := (s.ringBase n).toNat }
        (¬ ready → exec (.descriptorFetch ring) s = .next s)
        ∧ (ready → (∃ a, place = .node a) → exec (.descriptorFetch ring) s = .next failed.settle)
        ∧ (∀ off, ready → place = .lm off → off + 64 ≤ benchBase →
          (s.rangeOk c 1 off 64 = false → exec (.descriptorFetch ring) s = .next failed.settle)
          ∧ (s.rangeOk c 1 off 64 = true → (∀ w ∈ eccWords off 64, s.eccOf w = .good) → ∃ v, Like s v ∧
              exec (.descriptorFetch ring) s = .next (State.settle (if v.formatBad (s.mem.read off 64) then
                v.complete n (s.mem.read off 64) h { status := 1, detail := 0, extra := 0, dovf := false } 0 0
              else (v.put (F.rHeld n) 1).setRing n { r with head := some (s.mem.read off 64), wait := 0 }))))
        ∧ (∀ a, ready → place = .ext a →
            let q := s.request (.fetch n) 1 0 a (BitVec.ofNat 64 64) c []
            exec (.descriptorFetch ring) s = .next (q.2.setRing n { r with fetching := some q.1 }).settle))
    ∧ (∀ (ring : BitVec 4) (x : Exec),
        let n := ring.toNat
        let r := s.ring n
        let c := s.ringCtx n
        let d := x.desc
        let good (off len : Nat) : Prop := off + len ≤ benchBase ∧ s.rangeOk c 1 off len = true ∧ ∀ w ∈ eccWords off len, s.eccOf w = .good
        let now (g : Engine) (e : Option DescEnd) (u : State) : State := u.setRing n { r with exec := some { x with eng := g, ended := e } }
        let run : Engine := { x.eng with started := true }
        let ok (rows : Nat) : Option DescEnd := some { status := 0, detail := 0, extra := rows, dovf := false }
        let X := s.g F.coordX
        let Y := s.g F.coordY
        let copies (c : Instr) (so eo len : Nat) (g : Engine) : Prop := ∃ m e v, exec c s = .next (now g (ok 1) v).settle ∧ Like { s with mem := m, ecc := e } v
            ∧ (∀ a, Mem.byte m a = if eo ≤ a ∧ a < eo + len then s.mem.byte (so + (a - eo)) else s.mem.byte a)
            ∧ ∀ w, tget EccMark.good e w = if w ∈ eccWords eo len then .good else s.eccOf w
        let refused : Option DescEnd := some { status := 2, detail := 0, extra := 0, dovf := false }
        let unreached (a len : Nat) : Prop := (∀ off, s.place (BitVec.ofNat 64 a) ≠ .lm off)
          ∨ ∃ off, s.place (BitVec.ofNat 64 a) = .lm off ∧ off / 256 = (off + len - 1) / 256 ∧ s.dmaOk c off len = false
        let plyOf (dt : Nat) (b : List Byte) : Packet := { Packet.mk' 0x0D 3 0
            (BitVec.ofNat 64 (field d 16 2 % 4096 + 2 ^ 12 * (field d 18 2 % 65536) + 2 ^ 28 * dt + 2 ^ 30)) 0 b with sctx := c = .c1 }
        r.exec = some x → x.eng = Engine.fresh → x.ended = none →
          (∀ e ∈ [((Instr.descNop ring, 0) : Instr × Nat), (.descKernel ring, 1), (.descDma ring, 2), (.descReshard ring, 3), (.descMulticast ring, 4),
            (.descPly ring, 5), (.descBarrier ring, 6), (.descSkein ring, 7)], dType d ≠ e.2 → exec e.1 s = .next s)
          ∧ (dType d = 0 → exec (.descNop ring) s = .next (now x.eng (ok 0) s).settle)
          ∧ (dType d = 1 → exec (.descKernel ring) s = .next (State.settle
              ((((((forN 8 (fun w u => u.put (F.kDesc c.num w) (field d (8 * w) 8)) (now run none s)).put (F.kFull c.num) 1).put (F.kTaken c.num) 0).put
                (F.kExpired c.num) 0).put (F.kRing c.num) n).put (F.kIndex c.num) x.index.toNat)))
          ∧ (∀ so eo, dType d = 2 → field d 36 2 = 0 → 1 ≤ field d 32 4 → field d 32 4 ≤ 256 → s.place (BitVec.ofNat 64 (field d 16 8)) = .lm so →
              s.place (BitVec.ofNat 64 (field d 24 8)) = .lm eo → good so (field d 32 4) → good eo (field d 32 4) →
              copies (.descDma ring) so eo (field d 32 4) { run with row := 1 })
          ∧ (dType d = 2 → field d 36 2 = 0 → 1 ≤ field d 32 4 → field d 32 4 ≤ 256 →
            let len := field d 32 4
            let src := s.dmaPlace (field d 16 8)
            let dst := s.dmaPlace (field d 24 8)
            let within (o : Nat) : Prop := o / 256 = (o + len - 1) / 256
            let fails (st : BitVec 8) (v : State) : Prop :=
              exec (.descDma ring) s = .next (now run (some { status := st, detail := 0, extra := 0, dovf := false }) v).settle
            ((src = none ∨ dst = none) → fails 2 s)
            ∧ (∀ so, src = some (.inl so) → dst ≠ none → within so →
                (s.dmaOk c so len = false → fails 2 s)
                ∧ (s.dmaOk c so len = true → (∃ w ∈ eccWords so len, s.eccOf w = .bad) → ∃ v, fails 3 v ∧ v.mem = s.mem ∧ v.core = s.core ∧ v.is F.eccValid = true))
            ∧ (∀ so eo, src = some (.inl so) → dst = some (.inl eo) → good so len → within eo → s.dmaOk c eo len = false → ∃ v, Like s v ∧ fails 2 v)
            ∧ (∀ so a, src = some (.inl so) → dst = some (.inr a) → good so len → a.toNat % 256 + len ≤ 256 → ∃ v, Like s v ∧
                let q := v.request (.ring n) 3 3 a 0 c (s.mem.read so len)
                exec (.descDma ring) s = .next (now { run with row := 1, outst := [⟨q.1, true, 0, len, 0, 0⟩] } none q.2).settle)
            ∧ (∀ a eo, src = some (.inr a) → dst = some (.inl eo) → a.toNat % 256 + len ≤ 256 →
                let q := s.request (.ring n) 1 0 a (BitVec.ofNat 64 (len + 512)) c []
                exec (.descDma ring) s = .next (now { run with row := 1, outst := [⟨q.1, false, eo, len, 0, 0⟩] } none q.2).settle))
          ∧ (dType d = 3 → let l := layoutAt d 32
              let t := layoutAt d 48
              let len := 2 ^ (field d 24 1 % 4)
              ((X < rectX0 l.rect ∨ rectX1 l.rect < X ∨ Y < rectY0 l.rect ∨ rectY1 l.rect < Y) →
                exec (.descReshard ring) s = .next (now x.eng (ok 0) s).settle)
              ∧ (rectX0 l.rect = X → X ≤ rectX1 l.rect → rectY0 l.rect = Y → Y ≤ rectY1 l.rect → rectX0 t.rect = X → rectY0 t.rect = Y →
                field d 16 4 = 1 → field d 20 4 = 1 → good l.base len → good t.base len →
                copies (.descReshard ring) l.base t.base len { run with row := 1, pos := 1 })
              ∧ (rectX0 l.rect = X → X ≤ rectX1 l.rect → rectY0 l.rect = Y → Y ≤ rectY1 l.rect → field d 16 4 = 1 → field d 20 4 = 1 →
                (l.base / 256 = (l.base + len - 1) / 256 → s.dmaOk c l.base len = false → exec (.descReshard ring) s = .next (now run refused s).settle)
                ∧ ((rectX0 t.rect ≠ X ∨ rectY0 t.rect ≠ Y) → good l.base len → ∃ v, Like s v ∧
                  let q := v.request (.ring n) 3 3 (nodeAddr (BitVec.ofNat 22 (s.g F.die * 1024 + rectY0 t.rect * 32 + rectX0 t.rect)) t.base) 0 c (s.mem.read l.base len)
                  exec (.descReshard ring) s = .next (now { run with row := 1, pos := 1, outst := [⟨q.1, true, 0, len, 0, 0⟩] } none q.2).settle)))
          ∧ (∀ so, dType d = 4 → 1 ≤ field d 32 4 → field d 32 4 ≤ 256 → s.place (BitVec.ofNat 64 (field d 16 8)) = .lm so → good so (field d 32 4) →
              ∃ v, Like s v ∧
                let q := v.request (.ring n) 0x0B 3 (BitVec.ofNat 64 (field d 24 8)) (BitVec.ofNat 64 (field d 36 4 % 2 ^ 21)) c (s.mem.read so (field d 32 4))
                let need := if bit (field d 36 4) 20 then field d 40 2 else rectCount (field d 36 4)
                exec (.descMulticast ring) s = .next (now { run with pos := 1, pieces := [⟨q.1, 0, 0, need⟩] } none q.2).settle)
          ∧ (dType d = 4 → 1 ≤ field d 32 4 → field d 32 4 ≤ 256 → unreached (field d 16 8) (field d 32 4) →
              exec (.descMulticast ring) s = .next (now run refused s).settle)
          ∧ (dType d = 5 → 1 ≤ field d 32 4 → unreached (field d 24 8) (field d 32 4) → exec (.descPly ring) s = .next (now x.eng refused s).settle)
          ∧ (∀ so, dType d = 5 → s.place (BitVec.ofNat 64 (field d 24 8)) = .lm so → 1 ≤ field d 32 4 → good so (field d 32 4) →
              let root := bit (field d 20 1) 2
              ∃ v, Like s v ∧ exec (.descPly ring) s = .next (State.settle ((now { run with waiting := root } (if root then none else ok 0) v).injectOf n
                (plyOf (field d 20 1 % 4) (s.mem.read so (field d 32 4))))))
          ∧ (dType d = 6 →
              let root := bit (field d 20 1) 0
              let u := (now { run with waiting := root } none s).injectOf n (plyOf 2 [1, 0, 0, 0])
              exec (.descBarrier ring) s = .next (State.settle (if root then u else u.checkRelease n)))
          ∧ (dType d = 7 → exec (.descSkein ring) s = .next (State.settle (((now x.eng (ok 0) s).tally (ringFlits n) 1).inject (Packet.mk' 0x0E 2
              (BitVec.ofNat 64 (field d 22 2 % 4096 * 2 ^ 50)) (BitVec.ofNat 64 (field d 18 4 % 2 ^ 21)) 0
              (toLe 8 (field d 16 2) ++ toLe 8 (s.g F.ltime) ++ toLe 16 0))))))
    ∧ (∀ (ring : BitVec 4) (x : Exec),
        let n := ring.toNat
        let r := s.ring n
        let c := s.ringCtx n
        let d := x.desc
        let sameRtr (v : State) : Prop := { v.rtr with inq := s.rtr.inq } = s.rtr ∧ (s.is F.trigBcast = false → v.rtr = s.rtr)
        let past (e : DescEnd) (v : State) : Prop := v.is (F.rBusy n) = false ∧ (v.ring n).exec = none ∧ v.g (F.rHead n) = (s.g (F.rHead n) + 1) % s.ringSize n
          ∧ v.g (F.rLast n) = e.status.toNat ∧ v.g F.resv = s.g F.resv - r.resv
        r.exec = some x →
          (x.ended = none → exec (.descriptorComplete ring) s = .next s)
          ∧ (∀ e, x.ended = some e → dMbx d = false → dCrec d = 0 → dCq d = true → (s.cq c).length < 32 → ∃ v,
              exec (.descriptorComplete ring) s = .next v.settle ∧ past e v ∧ v.mem = s.mem ∧ v.core = s.core ∧ sameRtr v
              ∧ v.cq c = s.cq c ++ [BitVec.ofNat 64 (x.index.toNat + 2 ^ 16 * n + 2 ^ 20 * dType d + 2 ^ 24 * e.status.toNat + 2 ^ 32 * min x.ticks (2 ^ 32 - 1))])
          ∧ (∀ e, x.ended = some e → dMbx d = true → s.mboxOwned (dMslot d) c = true → s.mboxBusy (dMslot d) = false → dCrec d = 0 → dCq d = false →
              dType d = 1 → ∃ v, exec (.descriptorComplete ring) s = .next v.settle ∧ past e v ∧ v.mem = s.mem ∧ v.qe.cq0 = s.qe.cq0 ∧ v.qe.cq1 = s.qe.cq1
              ∧ v.g (F.mbox (dMslot d)) = s.g (F.kResult c.num) ∧ bit (v.g F.mboxReady) (dMslot d) = true)
          ∧ (∀ e off, x.ended = some e → dMbx d = false → dCq d = false → dCrec d ≠ 0 → s.place (dCrec d) = .lm off → off % 8 = 0 → off + 16 ≤ benchBase →
              s.rangeOk c 1 off 16 = true →
              let b : List Byte := [BitVec.ofNat 8 (b2n (if dV2 d then dCphase d else r.phase) + 4 * b2n e.dovf), e.status] ++ toLe 2 x.index.toNat
                ++ [BitVec.ofNat 8 (n + 16 * dType d), e.detail] ++ toLe 2 (min e.extra 65535)
                ++ toLe 4 (min (x.energy / 256) (2 ^ 32 - 1)) ++ toLe 4 (min x.ticks (2 ^ 32 - 1))
              ∃ v, exec (.descriptorComplete ring) s = .next v.settle ∧ past e v ∧ sameRtr v
                ∧ ∀ a, v.mem.byte a = if off ≤ a ∧ a < off + 16 then b.getD (a - off) 0 else s.mem.byte a)
          ∧ ((dWexp d = 0 ∨ x.ticks < 2 ^ dWexp d ∨ x.ended.isSome = true) → exec (.watchdog ring) s = .next s)
          ∧ (dWexp d ≠ 0 → 2 ^ dWexp d ≤ x.ticks → x.ended = none → dMbx d = false → dCrec d = 0 → ∃ v,
              exec (.watchdog ring) s = .next v.settle ∧ past { status := 6, detail := 0, extra := 0, dovf := false } v ∧ v.mem = s.mem
              ∧ (dType d = 1 → let k := (s.kernelCtx n x).num
                v.is (F.kExpired k) = true ∧ v.g (F.kFull k) = s.g (F.kFull k))))
    ∧ (∀ e ∈ [((0, s.qe.db ≠ [], F.dbStale) : BitVec 3 × Prop × Fld), (1, 0 < s.imqCount .c0, F.imqStale 0), (2, 0 < s.imqCount .c1, F.imqStale 1),
        (3, s.qe.cq0 ≠ [], F.cqStale 0), (4, s.qe.cq1 ≠ [], F.cqStale 1)],
        let due : Prop := e.2.1 ∧ s.g F.staleTicks ≠ 0 ∧ s.g F.staleTicks ≤ tget 0 s.qe.timers e.1.toNat
        (due → Yields (.fifoStale e.1) s (s.put e.2.2 1)) ∧ (¬ due → exec (.fifoStale e.1) s = .next s))

/-! ### The Spindle -/

/-- R49, R58, R192, R418 to R424, R429 to R434, R435 to R439, R442 to R445, R483: the AON tick with its energy, its attribution, the ramp,
bucket and admission, operating points, droop, LDO and temperature, the power states and their wakes, comparators, epochs and the sleep of
the mesh. R42: without PLL_REF no change of operating point goes on. R462: a fenced node does not wake. The tick's energy is the node's activity,
counter by counter, times the coefficients of the fuse image; which counter takes which coefficient is the model's choice (log entry 61).
Log entries of the model's own choices and readings here: 3, 15, 26, 28, 29, 31, 61, 76, 87. -/
def Obligations.SpindleEvents : Prop :=
  ∀ s : State,
    let ends (c : Instr) (u : State) : Prop := exec c s = .next u.settle
    let same (c : Instr) : Prop := exec c s = .next s
    let spn (u : State) (f : Spn → Spn) : State := { u with spn := f u.spn }
    let cap : Int := (max 1 (s.g F.cap) * 256 : Nat)
    let debt : Int := (s.g F.debtMax * 256 : Nat)
    let volts (p : Nat) : Nat := [850, 800, 750, 700, 660, 620, 580, 550].getD p 550
    let moves : Prop := s.spn.ldoOn = true ∧ s.power < 2 ∧ s.up.pllLost = false
    let point := s.spn.oppTarget.toNat
    let woken (u : State) (mv : Nat) : State := spn (((u.put F.psState 0).put F.psSrc s.spn.wakeSrc.toNat).put F.vTarget mv)
      fun x => { x with ldoOn := true, devTicks := 0, stretch := false, wakeSrc := 0, dwell := 0, pwrLow := false }
    let awake : State := woken s (volts (s.g F.oppCur))
    let restful : Prop := s.inRun = true ∧ s.isFenced = false ∧ s.cx.wait = .wfe ∧ s.cx.latch = false ∧ s.engBusy = 0
      ∧ s.core.chestOp = none ∧ s.mx.drain = none ∧ (∀ e ∈ s.qe.outst, coreOwner e.2 = false) ∧ s.qe.db = [] ∧ s.rtr.ingress = []
    (∀ e : TickEnergy, s.pins.porstN = false → same (.aonTick e))
    ∧ (∀ e : TickEnergy, s.pins.porstN = true →
        let sum (l : List Nat) : Nat := l.foldl (· + ·) 0
        let acts := s.act ++ e.counts
        let energy (p : Nat → Bool) : Nat :=
          sum ((acts.filter fun x => p x.1).map fun x => x.2 * (Config.energyCoeff (slice s.up.fuse 192 32) (actUnit x.1)).toNat)
        let logic := energy logicAct
        let hist := ((e.sensed, logic) :: s.spn.eHist).take 256
        let seen := sum (hist.map fun x => x.1)
        let said := sum (hist.map fun x => x.2)
        let scaled (n : Nat) : Nat :=
          if 4 * seen < 3 * said then n * 3 / 4 else if 5 * said < 4 * seen then n * 5 / 4 else if said = 0 then n else n * seen / said
        let used := energy aonAct + scaled logic
        let part (n : Nat) (x : Exec) : Nat :=
          if execIsKernel x then
            energy fun k => issueAct (s.kernelCtx n x) k || (decide (s.core.mxOwner = s.kernelCtx n x) && unitAct k)
          else energy (engineAct n)
        ∃ v : State, exec (.aonTick e) s = .next v.settle ∧ v.mem = s.mem ∧ v.core = s.core ∧ v.g F.vSensed = e.vlog.toNat
        ∧ v.g F.ltime = (s.g F.ltime + 1) % 2 ^ 64
        ∧ v.g F.energy = (s.g F.energy + (s.spn.energyRem + used) / 16) % 2 ^ 64 ∧ v.spn.energyRem = (s.spn.energyRem + used) % 16
        ∧ v.spn.epochE = s.spn.epochE + used ∧ v.spn.epochTicks = s.spn.epochTicks + 1
        ∧ v.bucketLevel = max (min (s.bucketLevel + (s.g F.fill : Int) - (used : Int)) cap) (-debt)
        ∧ (∀ q, q < 5 → tget 0 v.qe.timers q = tget 0 s.qe.timers q + 1)
        ∧ (∀ q, q < 4 → v.rtr.wakeIn.getLsbD q = (s.rtr.wakeIn.getLsbD q && decide (0 < tget 0 s.rtr.wakeLeft q)))
        ∧ v.spn.scrubTicks = s.spn.scrubTicks + 1 ∧ v.spn.warnLeft = s.spn.warnLeft - 40 ∧ v.pins.pwrWarnN = decide (s.spn.warnLeft ≤ 40)
        ∧ (s.is F.oppBusy = true → moves →
            (s.g F.oppCur < point → v.g F.oppCur = point ∧ v.g F.vTarget = s.g F.vTarget)
            ∧ (point ≤ s.g F.oppCur → v.g F.oppCur = s.g F.oppCur ∧ v.g F.vTarget =
                (if s.g F.vTarget < volts point then min (volts point) (s.g F.vTarget + 10) else max (volts point) (s.g F.vTarget - 10))))
        ∧ (s.inRun = false → ∀ n x, n < 16 → (s.ring n).exec = some x → (v.ring n).exec = some { x with
            ticks := x.ticks + 1, energy := x.energy + scaled (part n x) }))
    ∧ ((s.bucketLevel - (s.g F.resv : Int) ≤ 0 → s.decideRing = none)
      ∧ (∀ n, n < 16 → 0 < s.bucketLevel - (s.g F.resv : Int) → (∀ m, m < 16 → (s.candidate m = true ↔ m = n)) →
          (s.g (F.rClass n) = 0 → s.decideRing = some n)
          ∧ (s.g (F.rClass n) ≠ 0 → s.deferred n = false → s.fitsRing n = true → s.decideRing = some n)
          ∧ (s.g (F.rClass n) ≠ 0 → (s.deferred n = true ∨ s.fitsRing n = false) → s.decideRing = none))
      ∧ (∀ n d, n < 16 → (s.ring n).head = some d →
          let v := s.admitRing n
          v.is (F.rBusy n) = true ∧ v.is (F.rHeld n) = false ∧ (v.ring n).head = none
          ∧ (∃ x, (v.ring n).exec = some x ∧ x.desc = d ∧ x.index = BitVec.ofNat 16 (s.g (F.rHead n)) ∧ x.ticks = 0 ∧ x.energy = 0 ∧ x.ended = none)
          ∧ v.g F.resv = (s.g F.resv + dEst d) % 2 ^ 56))
    ∧ ((let due : Prop := s.is F.oppBusy = true ∧ moves ∧ point ≤ s.g F.oppCur ∧ s.g F.vTarget = volts point
        let u := (s.put F.oppCur point).put F.oppBusy 0
        (¬ due → same .oppChangeDone)
        ∧ (due → Yields .oppChangeDone s (if s.inRun = true ∧ s.oppWanted ≠ point then
            spn (u.put F.oppBusy 1) fun x => { x with oppTarget := BitVec.ofNat 3 s.oppWanted } else u)))
      ∧ (s.is F.oppAuto = false →
          s.oppWanted = max (max (s.g F.oppReq) (s.g F.thCeil)) (max (s.g F.dbCeil) (if s.is F.floor then 7 else 0))))
    ∧ (∀ mv : BitVec 10,
        let low : Prop := s.spn.ldoOn = true ∧ s.spn.stretch = false ∧ mv.toNat + s.g F.droopTh < s.g F.vTarget
        (low → ∃ t, exec (.droopDetect mv) s = .next t ∧ Like (spn (s.hwAdd F.droopCnt 1) fun x => { x with stretch := true }) t)
        ∧ (¬ low → same (.droopDetect mv))
        ∧ exec .droopEnd s = .next (spn s fun x => { x with stretch := false })
        ∧ ∀ past : Bool,
          let bad : Prop := s.spn.ldoOn = true ∧ (past = true ∨ (4 ≤ s.spn.devTicks ∧ s.spn.stretch = true ∧ s.is F.oppBusy = false
            ∧ (s.g F.vTarget + 60 < mv.toNat ∨ mv.toNat + 60 < s.g F.vTarget)))
          let u := (s.record { source := 0x24, cls := 3, ctx := none, info := mv.toNat + 2 ^ 16 * s.g F.vTarget, addr := 0 }).fence 3
          (bad → s.isFenced = false → u.spn.ldoOn = false ∧ ends (.ldoFault mv past) u)
          ∧ (bad → s.isFenced = true → ends (.ldoFault mv past) (spn u.loseLogic fun x => { x with ldoOn := false, devTicks := 0, stretch := false }))
          ∧ (¬ bad → same (.ldoFault mv past)))
    ∧ (∀ t0 t1 : BitVec 12, s.pins.porstN = true →
        let m := max t0.toInt t1.toInt
        let soft : Int := s.g F.soft
        let hard : Int := s.g F.hard
        let trip : Int := s.g F.trip
        ∃ t : State, ends (.thermalSample t0 t1) t ∧ t.g F.t0 = t0.toNat ∧ t.g F.t1 = t1.toNat ∧ t.g F.tMax = unsigned 12 m ∧ t.mem = s.mem
          ∧ (soft ≤ m → t.spn.hot = true ∧ t.spn.cool = 0 ∧ (s.spn.hot = false → t.is (F.spnEvt 0) = true))
          ∧ (m < soft - 8 → t.spn.hot = false) ∧ (soft - 8 ≤ m → m < soft → t.spn.hot = s.spn.hot)
          ∧ (hard ≤ m → s.g F.thCeil < 7 → t.g F.thCeil = s.g F.thCeil + 1 ∧ t.is (F.spnEvt 1) = true)
          ∧ (m < hard - 20 → 9 ≤ s.spn.below → t.g F.thCeil = s.g F.thCeil - 1)
          ∧ (m < trip → t.spn.tripRun = 0)
          ∧ (trip ≤ m → (s.spn.tripRun = 1 ∨ (2 ≤ s.spn.tripRun ∧ s.isFenced = false)) →
              t.isFenced = true ∧ t.pins.thermTripN = false ∧ (s.isFenced = false → t.core.run = Core.reset.run)))
    ∧ (∀ k : BitVec 2,
        let i := k.toNat
        let val := s.g (F.cmpVal i)
        let per := s.g (F.cmpPeriod i)
        let now := s.g F.ltime
        let due : Prop := s.pins.porstN = true ∧ s.is (F.cmpEn i) = true ∧ val ≤ now ∧ s.spn.matched.getLsbD i = false
        (¬ due → same (.comparatorMatch k))
        ∧ (due → per = 0 → Yields (.comparatorMatch k) s (spn (s.hwSet (F.cmpHit i)) fun x => { x with matched := x.matched ||| (1 <<< i) }))
        ∧ (due → per ≠ 0 → Yields (.comparatorMatch k) s
            (((s.hwSet (F.cmpHit i)).put (F.cmpVal i) ((val + per * ((now - val) / per + 1)) % 2 ^ 64)).hwAdd (F.cmpMiss i) ((now - val) / per))))
    ∧ (((s.pins.porstN = false ∨ s.spn.epochTicks < max 25 (s.g F.epoch)) → same .epochEnd)
      ∧ (s.pins.porstN = true → max 25 (s.g F.epoch) ≤ s.spn.epochTicks →
          let u := (s.put F.epochE (s.spn.epochE / 16 % 2 ^ 48)).hwSet (F.spnEvt 7)
          Yields .epochEnd s (spn (if 0 < s.bucketLevel then u.put F.dbCeil (s.g F.dbCeil - 1) else u) fun x => { x with epochE := 0, epochTicks := 0 })))
    ∧ (let kept : Prop := (∃ i, i < 8 ∧ s.is (F.monEn i) = true ∧ 3 ≤ s.g (F.monSrc i) ∧ s.g (F.monSrc i) ≤ 5)
        ∨ ∃ j, j < 16 ∧ s.is (F.pcEn j) = true ∧ logicEvent (s.g (F.pcEvent j)) = true
      (s.rtr.wakeIn = 0 → ¬ kept → max 1 (s.g F.meshHold) ≤ s.rtr.idleTicks → exec .meshIdle s = .next { s with rtr := { s.rtr with idle := true } })
      ∧ ((s.rtr.wakeIn ≠ 0 ∨ kept ∨ s.rtr.idleTicks < max 1 (s.g F.meshHold)) → same .meshIdle))
    ∧ ((s.g F.maxAuto = 2 → restful → s.power < 2 → s.g F.n2Dwell ≤ s.spn.dwell →
        exec .n2Entry s = .next (spn ((s.put F.psState 2).put F.vTarget 500) fun x => { x with dwell := 0, wakeSrc := 0 }))
      ∧ ((s.g F.maxAuto ≠ 2 ∨ s.spn.dwell < s.g F.n2Dwell ∨ ¬ restful ∨ 2 ≤ s.power) → same .n2Entry)
      ∧ (s.power = 2 → s.spn.wakeSrc ≠ 0 → s.spn.pwrLow = false → s.isFenced = false → ends .n2Wake (if awake.wfeReady then awake.wfeDone else awake))
      ∧ ((s.power ≠ 2 ∨ s.spn.wakeSrc = 0 ∨ s.isFenced = true) → same .n2Wake)
      ∧ (s.is F.psPend = true → (s.g F.psCmd = 3 ∨ s.g F.psCmd = 4) → restful → s.power < 3 →
          exec .deepSleepEntry s = .next (spn { ((s.put F.psState (s.g F.psCmd)).put F.psPend 0).dropFetches with
            core := { Core.reset with chestCtr0 := s.core.chestCtr0, chestCtr1 := s.core.chestCtr1 }, mx := Mx.reset, cache := Caches.reset }
            fun x => { x with ldoOn := false, devTicks := 0, stretch := false, dwell := 0, wakeSrc := 0 }))
      ∧ ((s.is F.psPend = false ∨ ¬ restful ∨ 3 ≤ s.power) → same .deepSleepEntry)
      ∧ (s.power = 3 → s.spn.wakeSrc ≠ 0 → s.isFenced = false → s.spn.pwrLow = false →
          ends .deepWake { awake with core := { s.core with c0 := { s.core.c0 with pc := BitVec.ofNat 64 (s.g F.resumePc * 4) } } })
      ∧ (s.power = 4 → s.spn.wakeSrc ≠ 0 → s.isFenced = false → s.spn.pwrLow = false →
          ends .deepWake (woken (((((s.resetRegs lmSec).put F.memReady 0).put F.stage 1).put F.oppCur 7).put F.oppBusy 0) 550))
      ∧ ((s.spn.wakeSrc = 0 ∨ s.power < 3 ∨ s.isFenced = true) → same .deepWake))

/-! ### Start-up, resets and test -/

/-- R39, R42 to R44, R47, R58, R62 to R67, R69 to R72, R75, R80, R81, R83, R85, R86, R89 to R91, R420, R426, R427, R448, R461, R462, R468,
R504, R506: power-on, fuses, bring-up and boot, the node-domain reset, the emergency floor, and test access. A TAP edge drives TDO in the
two shift states only, a bit from TDI enters the register it shifts, and TRST_N holds it in Test-Logic-Reset (its state diagram is the IEEE
1149.1 one: log entry 75). The model's choices: MEM_READY falls in a reset that R82
holds too (log entry 66), which packets the node has not begun (88), which spare a column found by MBIST takes (65), FUSE_REQ falls at the
time-out (89), a measured image is hashed as it stands (91), the hash in use (7). An array whose domain is off takes nothing.
Log entries of the model's own choices and readings here: 3, 7, 15, 16, 27, 46, 57, 62, 65, 66, 73, 75, 87, 88, 89, 91. -/
def Obligations.StartUpAndReset : Prop :=
  ∀ s : State,
    let ends (c : Instr) (u : State) : Prop := exec c s = .next u.settle
    let same (c : Instr) : Prop := exec c s = .next s
    let on : Prop := s.pins.porstN = true
    let reqLow : State := { s with pins := { s.pins with fuseReq := false } }
    let noRing : Prop := ∀ n, n < 16 → s.is (F.rEn n) = false
    let acked (w : RegWr) (u : State) : State := if w.who = .core then u else u.ackWrite (asWrite w.req)
    let may (w : RegWr) (off : Nat) : Prop := s.reaches w.who off true = true ∧ s.mayWrite (s.accOf w.who) off = true
    let initRuns : Prop := on ∧ s.g F.stage = 1 ∧ s.up.phase = .off ∧ s.isFenced = false ∧ s.is F.memReady = false
    exec .porstNAssert s = .next { State.reset with pending := s.pending, fresh := s.fresh }
    ∧ (∀ st : Straps, (on → same (.porstNRelease st)) ∧ (¬ on →
        let u := (s.setReg 0x28 (BitVec.ofNat 64 (st.pmN.toNat + 4 * st.pmE.toNat + 16 * st.pmS.toNat + 64 * st.pmW.toNat + 256 * st.hint.toNat))).put F.stage 0
        exec (.porstNRelease st) s = .next { u with pins := { s.pins with porstN := true, fuseReq := true }, up := { s.up with fuseTicks := 0 } }))
    ∧ (∀ b : List Byte, b.length = 256 →
        let entry (m e : Nat) : Nat := leNat b / 2 ^ (11 * (16 * m + e)) % 2 ^ 11
        ((¬ on ∨ s.pins.fuseReq = false) → same (.fuseImage b))
        ∧ (on → s.pins.fuseReq = true → fuseCrcOk b = false → s.up.fuseFailed = false →
            exec (.fuseImage b) s = .next { s with up := { s.up with fuseFailed := true, fuseTicks := 0 } })
        ∧ (on → s.pins.fuseReq = true → fuseCrcOk b = false → s.up.fuseFailed = true → exec (.fuseImage b) s = .next (reqLow.startUpFault 0))
        ∧ (on → s.pins.fuseReq = true → fuseCrcOk b = true → s.up.repair = [] →
            (∀ m e, m < 8 → e < 16 → entry m e / 1024 = 1 → entry m e % 1024 < 576 ∧ ∀ k, k < 16 → k ≠ e → entry m k ≠ entry m e) →
            ∃ t : State, exec (.fuseImage b) s = .next t ∧ t.pins.fuseReq = false ∧ t.up.fuse = b ∧ t.is F.fuseOk = true
              ∧ t.g F.stage = (if s.g F.stage = 0 then 1 else s.g F.stage)
              ∧ (s.g F.stage = 0 → t.g F.vTarget = 550 ∧ t.spn.ldoOn = true) ∧ (s.g F.stage ≠ 0 → t.spn.ldoOn = s.spn.ldoOn) ∧ t.mem = s.mem ∧ t.core = s.core
              ∧ (∀ m e, m < 8 → e < 16 → tget noCol t.up.repair (16 * m + e)
                  = if entry m e / 1024 = 1 then BitVec.ofNat 10 (entry m e) else noCol)))
    ∧ ((on → s.pins.fuseReq = true → 25000 ≤ s.up.fuseTicks → exec .fuseTimeout s = .next (reqLow.startUpFault 1))
      ∧ ((¬ on ∨ s.pins.fuseReq = false ∨ s.up.fuseTicks < 25000) → same .fuseTimeout)
      ∧ (on → s.up.pllLost = false → ends .pllRefLoss ((State.record { s with up := { s.up with pllLost := true } }
          { source := 0x21, cls := 3, ctx := none, info := 0, addr := 0 }).fence 1))
      ∧ ((¬ on ∨ s.up.pllLost = true) → same .pllRefLoss)
      ∧ (∀ r, s.isFenced = false → let t := s.fence r
          t.isFenced = true ∧ t.g F.reason = r % 8 ∧ t.pins.faultOutN = false ∧ t.qe.outst = [] ∧ t.mem = s.mem ∧ t.rtr = s.rtr
          ∧ (∀ n, n < 16 → (t.ring n).exec = none ∧ (t.ring n).head = none) ∧ (r ≠ 2 → r ≠ 3 → t.core = s.core ∧ t.mx = s.mx ∧ t.spn = s.spn)
          ∧ ((r = 2 ∨ r = 3) → t.mx = Mx.reset ∧ t.cache = Caches.reset ∧ t.spn.ldoOn = false
            ∧ t.core = { Core.reset with chestCtr0 := s.core.chestCtr0, chestCtr1 := s.core.chestCtr1 })))
    ∧ (on → s.up.ready = false →
        let u := State.firstCredits { s with up := { s.up with ready := true, readyTicks := 0, xKnown := s.portMode .w ≠ 0, yKnown := s.portMode .s ≠ 0 } }
        (s.portMode .w = 0 → s.portMode .s = 0 → ends .routerReady u.linksReady)
        ∧ (s.portMode .w ≠ 0 → s.portMode .s = 0 → ends .routerReady (u.put F.coordX 0).linksReady)
        ∧ (s.portMode .w = 0 → s.portMode .s ≠ 0 → ends .routerReady (u.put F.coordY 0).linksReady)
        ∧ (s.portMode .w ≠ 0 → s.portMode .s ≠ 0 → s.is F.coordValid = false → bit (s.g F.hint) 10 = false → s.up.held = none →
            ends .routerReady (((u.put F.coordX 0).put F.coordY 0).put F.coordValid 1).sendCoords.linksReady))
    ∧ ((¬ on ∨ s.up.ready = true) → same .routerReady)
    ∧ ((¬ initRuns → same .memReady) ∧ (initRuns → ∃ v : State, exec .memReady s = .next v.settle ∧ v.mem = [] ∧ v.ecc = [] ∧ v.core = s.core
        ∧ (∀ q, q < 256 → v.g (F.page q) = 3) ∧ v.is F.memReady = true ∧ v.g F.oppCur = 7 ∧ v.g F.vTarget = s.g F.vTarget
        ∧ v.g F.stage = (if s.is F.dieValid then 2 else 1)))
    ∧ (∀ w : RegWr,
        let len := s.g F.bootLen
        let good : Prop := len ≠ 0 ∧ len % 128 = 0 ∧ s.g F.bootBase * 0x4000 + len ≤ benchBase
        (may w 0x68 → w.v.getLsbD 0 = true → good → ends (.idBootGo w) (acked w (s.put F.stage 3)))
        ∧ (may w 0x68 → w.v.getLsbD 0 = false → ends (.idBootGo w) (acked w s))
        ∧ ((¬ may w 0x68 ∨ (w.v.getLsbD 0 = true ∧ ¬ good)) → ends (.idBootGo w) (s.regRefused w.who 0x68 true (asWrite w.req)))
        ∧ (may w 0x20 → noRing → (w.v.toNat % 16 = 1 ∨ w.v.toNat % 16 = 2) → ∃ v, ends (.idDescSelWrite w) (acked w v) ∧ v.g F.descSel = w.v.toNat % 16
            ∧ Like (s.setReg 0x20 (v.reg 0x20)) v)
        ∧ (may w 0x20 → noRing → w.v.toNat % 16 ≠ 1 → w.v.toNat % 16 ≠ 2 → ∃ v, ends (.idDescSelWrite w) (acked w v) ∧ v.g F.descSel = s.g F.descSel
            ∧ Like (s.setReg 0x20 (v.reg 0x20)) v)
        ∧ (may w 0x20 → ¬ noRing → ends (.idDescSelWrite w) (acked w s))
        ∧ (¬ may w 0x20 → ends (.idDescSelWrite w) (s.regRefused w.who 0x20 true (asWrite w.req))))
    ∧ (s.g F.stage = 3 → s.nodeOn = true → s.isFenced = false →
        let a := s.g F.bootBase * 0x4000
        let h := sha384 ((List.range 6).flatMap (fun j => toLe 8 (s.g (F.meas 0 j))) ++ sha384 (s.mem.read a (s.g F.bootLen)))
        ∃ t : State, exec .measurementDone s = .next t ∧ t.g F.stage = 4 ∧ t.core.c0.pc = BitVec.ofNat 64 a ∧ t.mem = s.mem
          ∧ ∀ j, j < 6 → t.g (F.meas 0 j) = field h (8 * j) 8)
    ∧ ((s.g F.stage ≠ 3 ∨ s.isFenced = true) → same .measurementDone)
    ∧ (∀ ticks : Nat, (on → 2 ≤ ticks → s.g F.stage ≠ 0 →
          exec (.nodeRstN ticks) s = .next { s with pins := { s.pins with nodeRstN := false }, up := { s.up with phase := .requested } })
        ∧ (on → 2 ≤ ticks → s.g F.stage = 0 → exec (.nodeRstN ticks) s = .next { s with pins := { s.pins with nodeRstN := false } })
        ∧ ((¬ on ∨ ticks < 2) → same (.nodeRstN ticks)))
    ∧ (s.up.phase ≠ .requested → same .nodeDomainReset)
    ∧ (s.up.phase = .requested →
        let held : Prop := bits (s.g F.suFault) 0 6 ≠ 0 ∨ bit (s.g F.suFault) 7 = true
        ∃ t : State, ends .nodeDomainReset t
          ∧ (∀ o, (o / 0x10000 = 2 ∨ o / 0x10000 = 5 ∨ (o / 0x10000 = 9 ∧ ¬ (0x90100 ≤ o ∧ o < 0x90200))) → t.reg o = regReset o)
          ∧ (∀ o, (o / 0x10000 = 3 ∨ o / 0x10000 = 4 ∨ o / 0x10000 = 8 ∨ (0x90100 ≤ o ∧ o < 0x90200)) → t.reg o = s.reg o)
          ∧ (∀ o, o / 0x10000 = 1 → o ∉ [0x10000, 0x10018, 0x10068] → ¬ (0x10200 ≤ o ∧ o < 0x10280) → t.reg o = s.reg o)
          ∧ (∀ n, n < 16 → t.g (F.ringLevel n) = s.g (F.ringLevel n))
          ∧ t.core = { Core.reset with chestCtr0 := s.core.chestCtr0, chestCtr1 := s.core.chestCtr1 } ∧ t.mx = Mx.reset ∧ t.cache = Caches.reset
          ∧ t.qe = { Queue.reset with tags := s.qe.tags, rings := (List.range 16).flatMap s.ringKept } ∧ t.rtr = s.dropUnbegun.rtr ∧ t.rtr.ingress = []
          ∧ t.mem = s.mem ∧ t.isFenced = true ∧ t.spn = { s.spn with wakeSrc := 0, dwell := 0, ldoOn := false, devTicks := 0, stretch := false }
          ∧ (s.isFenced = false → t.g F.reason = 5) ∧ t.is F.memReady = false ∧ t.power = 0 ∧ t.is F.oppBusy = false
          ∧ t.g F.oppCur = (if s.up.pllLost then s.g F.oppCur else 7) ∧ (held → t.up.phase = .off ∧ t.g F.stage = s.g F.stage) ∧ (¬ held → t.up.phase = .holding ∧ t.g F.stage = 1))
    ∧ (on → let u : State := { s with pins := { s.pins with nodeRstN := true } }
        let rel : Prop := (s.up.phase = .holding ∨ (s.up.phase = .fenced ∧ s.g F.reason = 2)) ∧ (s.g F.reason ≠ 2 ∨ 10 ≤ s.spn.cool)
          ∧ bits (s.g F.suFault) 0 6 = 0 ∧ bit (s.g F.suFault) 7 = false ∧ s.up.pllLost = false ∧ s.up.testMode = false
        (rel → exec .nodeResetRelease s = .next { ((u.put F.fenced 0).put F.reason 0).put F.vTarget 550 with
            pins := { u.pins with faultOutN := true, thermTripN := true }, up := { s.up with phase := .off }
            spn := { s.spn with ldoOn := true, devTicks := 0, stretch := false } })
        ∧ (¬ rel → exec .nodeResetRelease s = .next u))
    ∧ (∀ ns : Nat, (ns < 10 → same (.pwrWarn ns)) ∧ (on → 10 ≤ ns →
        let low : State := { s with pins := { s.pins with pwrWarnN := false }, spn := { s.spn with holdTicks := 0, warnLeft := max ns s.spn.warnLeft } }
        let u := if s.is F.floor then low else (low.put F.floor 1).hwSet (F.spnEvt 2)
        (2 ≤ s.power → exec (.pwrWarn ns) s = .next { low with spn := { low.spn with pwrLow := true } })
        ∧ (s.power < 2 → s.up.pllLost = true → Yields (.pwrWarn ns) s u)
        ∧ (s.power < 2 → s.up.pllLost = false → Yields (.pwrWarn ns) s { (u.put F.oppCur 7).put F.oppBusy (if s.g F.vTarget = 550 then 0 else 1) with spn := { low.spn with oppTarget := 7 } })))
    ∧ (let due : Prop := s.is F.floor = true ∧ s.pins.pwrWarnN = true ∧ s.g F.hold ≤ s.spn.holdTicks
       (due → Yields .floorExit s ((s.put F.floor 0).hwSet (F.spnEvt 3))) ∧ (¬ due → same .floorExit))
    ∧ (on → ∃ t : State, ends .testModeRise t ∧ t.up.testMode = true ∧ t.isFenced = true ∧ t.mem = s.mem
        ∧ (∀ c j, c < 2 → j < 4 → t.g (F.key c j) = 0 ∧ t.is (F.keyValid c) = false) ∧ (∀ i j, i < 4 → j < 6 → t.g (F.meas i j) = 0))
    ∧ (let gate : Prop := on ∧ (s.up.ran = false ∨ s.is F.dbgEn = true)
       let opened (o : Nat) : Prop := o < 0x10000 ∨ (0x80200 ≤ o ∧ o < 0x80400) ∨ (0xA0000 ≤ o ∧ o < 0xB0000)
       let on : Prop := on ∧ s.pins.trstN = true
       let powered : Prop := s.spn.ldoOn = true
       let reads (t : TestAcc) (x : Nat) : Prop := exec (.testAccess t) s = .next (s.testOut x (testData t))
       (∀ (p : Pins) (tms tdi : Bool), let q := p.tck (tms, tdi)
         (q.tdo.isSome = true ↔ (q.tap = .shiftDr ∨ q.tap = .shiftIr))
         ∧ (p.trstN = false → q.tap = .testLogicReset)
         ∧ (p.trstN = true → q.tap = .shiftDr → q.tdo = some (q.dr.getLsbD 0))
         ∧ (p.trstN = true → p.tap = .shiftDr → ∀ i, i < 128 → q.dr.getLsbD i = if i = 127 then tdi else p.dr.getLsbD (i + 1)))
       ∧ (s.pins.trstN = true → ∀ v d, (s.testOut v d).pins.shifted = BitVec.ofNat 128 v ∧ (s.testOut v d).pins.dr = BitVec.ofNat 128 d)
       ∧ (¬ on → ∀ t, same (.testAccess t))
       ∧ (on → (∀ o, (opened o ∨ gate) → reads (.regRead o) (s.readReg .test o).1.toNat)
         ∧ (∀ o, ¬ opened o → ¬ gate → reads (.regRead o) 0)
         ∧ (∀ o, ((0x90040 ≤ o ∧ o < 0x90080) ∨ (0x90100 ≤ o ∧ o < 0x90120)) → reads (.regRead o) 0)
         ∧ (∀ o, (s.readReg .test o).2 = s) ∧ (∀ k, reads (.fuseRead k) (s.up.fuse.getD k 0).toNat)
         ∧ (∀ c n, reads (.sysRead c n) (if s.gateOpen then (s.sysRead c n.toNat).toNat else 0))
         ∧ (∀ a, ¬ gate → reads (.memRead a) 0 ∧ reads (.tileRead a) 0 ∧ reads (.accRead a) 0)
         ∧ (∀ a, gate → a < 0x400000 → s.power ≠ 4 → reads (.memRead a) (s.mem.byte a).toNat)
         ∧ (∀ a, gate → a < 0x10000 → powered → reads (.tileRead a) (s.mx.file.byte a).toNat)
         ∧ (¬ powered → ∀ a b k c g, reads (.tileRead a) 0 ∧ reads (.accRead k) 0 ∧ reads (.tileWrite a b) 0 ∧ reads (.accWrite k c g) 0)
         ∧ (∀ k, gate → k < 512 → powered → let c := tget AccCell.zero s.mx.acc.cells k
             reads (.accRead k) (c.v.toNat + 2 ^ 96 * c.anchor.toNat)))
       ∧ (on → ¬ gate → ∀ a o v b k c g, reads (.memWrite a b) 0 ∧ reads (.regWrite o v) 0 ∧ reads (.tileWrite a b) 0
           ∧ reads (.accWrite k c g) 0) ∧ (∀ a l, ¬ gate → same (.mbistRun a l))
       ∧ (∀ l, (s.power = 4 → same (.mbistRun .localMem l)) ∧ (¬ powered → same (.mbistRun .tile l)))
       ∧ (∀ o v, on → gate → (¬ s.mayWrite .test o ∨ s.ownRefuses o v.toNat [(o, v.toNat)] = true) → reads (.regWrite o v) 0)
       ∧ (∀ o v, on → gate → s.mayWrite .test o → s.ownRefuses o v.toNat [(o, v.toNat)] = false →
           ends (.testAccess (.regWrite o v)) ((s.testOut 0 v.toNat).writeReg .test o v))
       ∧ (∀ o, s.mayWrite .test o ↔ (regInfo o = none ∨ o ∉ [0x58, 0x60, 0x68] ∨ s.g F.stage = 2))
       ∧ (∀ a v, on → gate → powered → a < 0x10000 → ∃ f, exec (.testAccess (.tileWrite a v)) s = .next { s.testOut 0 v.toNat with mx := { s.mx with file := f } }
           ∧ ∀ c, Mem.byte f c = if c = a then v else s.mx.file.byte c)
       ∧ (∀ k v g, on → gate → powered → k < 512 → ∃ l, exec (.testAccess (.accWrite k v g)) s =
             .next { s.testOut 0 (v.toNat + 2 ^ 96 * g.toNat) with mx := { s.mx with acc := { s.mx.acc with cells := l } } }
           ∧ ∀ c, tget AccCell.zero l c = if c = k then ⟨v, g⟩ else tget AccCell.zero s.mx.acc.cells c)
       ∧ (∀ a v, gate → s.eccOf (a / 8) = .bad → on → reads (.memWrite a v) 0)
       ∧ (∀ a v, on → gate → a < 0x400000 → s.power ≠ 4 → s.eccOf (a / 8) ≠ .bad →
           ∃ m e, exec (.testAccess (.memWrite a v)) s = .next { s.testOut 0 v.toNat with mem := m, ecc := e }
          ∧ (∀ c, Mem.byte m c = if c = a then v else s.mem.byte c) ∧ (∀ w, tget EccMark.good e w = if w = a / 8 then .good else s.eccOf w))
       ∧ (gate → ∃ m e n f k, (s.power ≠ 4 → exec (.mbistRun .localMem []) s = .next { s with mem := m, ecc := e, fresh := n })
          ∧ (powered → exec (.mbistRun .tile []) s = .next { s with mx := { s.mx with file := f }, fresh := k }) ∧ same (.mbistRun .other []))
       ∧ (∀ (arr : MbistArray) (m : BitVec 3) (col : BitVec 10), gate → (arr = .localMem → s.power ≠ 4) → (arr = .tile → powered) → col.toNat < 576 → (∀ e, e < 16 → tget noCol s.up.repair (16 * m.toNat + e) = noCol) →
          ∃ t : State, exec (.mbistRun arr [(m, col)]) s = .next t ∧ (arr ≠ .localMem → t.mem = s.mem) ∧ tget noCol t.up.repair (16 * m.toNat) = col
            ∧ t.g (F.repairUsed m.toNat) = 1))

/-! ### Registers -/

/-- R15, R16, R18, R31, R84, R124, R463, R496 to R502, R505: who may write, a refused access has no effect on the register (it raises
ACCESS, at an offset that is no multiple of 8 ALIGN, for the core and is answered REFUSED, ALIGN, UNMAPPED or FENCED for a host or a node; that the rows of the commands raise and answer so, and the
instruction the exception names, is the model's choice, log entry 13), a write changes each bit by its type (RW, W1C, W1S, RO, and RWL
under its LOCK) but clears no bit that hardware has set in this cycle, a reserved encoding leaves its field, an undefined offset reads 0
and ignores writes, and a read clears the RC bits but keeps what hardware has added in this cycle (a cycle of an AON register is the AON
tick: log entry 76); a read through the IEEE 1687 network clears none (R19).
Log entries of the model's own choices and readings here: 13, 14, 57, 76. -/
def Obligations.RegisterRules : Prop :=
  ∀ s : State,
    let acked (w : RegWr) (u : State) : State := if w.who = .core then u else u.ackWrite (asWrite w.req)
    let answered (who : Requester) (req : Packet) (x : Word) (u : State) : State := if who = .core then u else u.sendData (asRead req) (toLe 8 x.toNat)
    (∀ (w : RegWr) (o : BitVec 20) (c : CtxId) (j k : BitVec 2) (n : BitVec 4) (m : BitVec 3),
      ∀ e ∈ [((Instr.registerWrite o w, o.toNat) : Instr × Nat), (.idBootGo w, 0x68), (.idDescSelWrite w, 0x20), (.pscmdN3 w, 0x10010),
        (.pscmdN4 w, 0x10010), (.pscmdWithdraw w, 0x10010), (.spnWakeGo w, 0x10028), (.cmpValWrite k w, 0x10100 + 0x10 * k.toNat),
        (.spnEpochWrite w, 0x10040), (.qeKdone c w, 0x20250 + 0x100 * c.num), (.kslotTaken c w, 0x20240 + 0x100 * c.num), (.qeMboxAck w, 0x20018),
        (.ringEnable n w, 0x20808 + 0x20 * n.toNat), (.ringDisable n w, 0x20808 + 0x20 * n.toNat), (.tailWrite n w, 0x20810 + 0x20 * n.toNat),
        (.fltNrst w, 0xA0028), (.fltRxpop w, 0xA0060), (.secKeyWrite c j w, 0x90040 + 0x20 * c.num + 8 * j.toNat), (.secKeyclr w, 0x90010),
        (.secExtgo w, 0x90020), (.secDbgctlWrite w, 0x90018), (.secFckeyWrite j w, 0x90100 + 8 * j.toNat), (.secFcclr w, 0x90128),
        (.obsSwtrig w, 0x80040), (.monitorClr m w, 0x80400 + 0x200 * m.toNat)],
        (s.reaches w.who e.2 true = false ∨ s.mayWrite (s.accOf w.who) e.2 = false ∨ e.2 % 8 ≠ 0 ∨ 0xB0000 ≤ e.2) →
          exec e.1 s = .next (s.regRefused w.who e.2 true (asWrite w.req)).settle)
    ∧ (∀ (o : Nat) (b : Bool) (p : Packet),
        let routed : Prop := s.is F.coordValid = true ∧ s.is F.dieValid = true ∧ s.up.ready = true
        (s.canIssue = false → s.regRefused .core o b p = s)
        ∧ (s.canIssue = true → ∃ inst, s.regRefused .core o b p
          = s.tick.raise (if o % 8 = 0 then cAccess else cAlign) (BitVec.ofNat 64 (0x0100000000 + o)) s.cx.pc inst)
        ∧ ∀ who, who ≠ .core → (¬ routed → s.regRefused who o b p = s)
          ∧ (routed → s.serveCtrl o 8 b = .fenced → s.regRefused who o b p = s.sendFenced p)
          ∧ (routed → s.serveCtrl o 8 b = .refused → s.regRefused who o b p = s.refuse p stRefused)
          ∧ (routed → s.serveCtrl o 8 b = .ok → s.regRefused who o b p
            = s.refuse p (if 0xB0000 ≤ o then stUnmapped else if o % 8 ≠ 0 then stAlign else stRefused)))
    ∧ (∀ off i, regInfo off = some i → (kernelReg off).isNone = true →
        s.mayWrite .node off = false
        ∧ (∀ c, s.mayWrite (.loc c 0) off = false)
        ∧ (off / 0x10000 = 5 → s.mayWrite .host off = false)
        ∧ ((off = 0x90000 ∨ off = 0x90010 ∨ off = 0x90018 ∨ off = 0x90020 ∨ (0x90040 ≤ off ∧ off < 0x900B0)) → s.mayWrite .host off = false)
        ∧ (off / 0x10000 = 9 → s.mayRead .node off = false ∧ ∀ c, s.mayRead (.loc c 1) off = false)
        ∧ ((off = 0x58 ∨ off = 0x60 ∨ off = 0x68) → (∀ a, a ≠ .test → (s.mayWrite a off = true ↔ a = .host ∧ s.g F.stage = 2)))
        ∧ ((off / 0x10000 = 1 ∨ off / 0x10000 = 3 ∨ off / 0x10000 = 4 ∨ off / 0x10000 = 10) →
            s.mayWrite .host off = true ∧ ∀ c, s.mayWrite (.loc c 2) off = true))
    ∧ (∀ (o : BitVec 20) (w : RegWr), regInfo o.toNat = none →
        (s.reaches w.who o.toNat true = true → exec (.registerWrite o w) s = .next (acked w s).settle)
        ∧ ∀ a, (s.readReg a o.toNat).1 = 0 ∧ (s.readReg a o.toNat).2 = s)
    ∧ (∀ (o : BitVec 20) (w : RegWr) (i : RegInfo),
        o.toNat ∈ [0x10000, 0x10020, 0x10030, 0x10048, 0x10050, 0x10058, 0x10078, 0x10088, 0x100B0, 0x100C8, 0x100D8, 0x100E0, 0x100E8, 0x100F0, 0x20000, 0x20008,
          0x20020, 0x30000, 0x30020, 0x30028, 0x30030, 0x30040, 0x30800, 0x30808, 0x40000, 0x50010, 0x50028, 0x50040, 0x50100, 0x80008, 0x80030, 0x90000,
          0x90120, 0xA0000, 0xA0008, 0xA0010, 0xA0100] →
        regInfo o.toNat = some i → s.reaches w.who o.toNat true = true → s.mayWrite (s.accOf w.who) o.toNat = true →
          let locked : Nat := if (o.toNat = 0x100B0 ∧ s.is F.spnLock = true) ∨ (o.toNat = 0x90120 ∧ s.is F.secLock = true) then i.rwl else 0
          let wrote (x : Word) : State := if o.toNat / 0x10000 = 3 ∧ o.toNat < 0x31200 then (s.setReg o.toNat x).tblWritten (tblEntry (o.toNat - 0x30000))
            else s.setReg o.toNat x
          ∃ x, exec (.registerWrite o w) s = .next (acked w (wrote x)).settle ∧ ∀ k, k < 64 → x.getLsbD k =
            if (bit i.rw k || bit i.wo k) && !bit locked k then w.v.getLsbD k
            else if bit i.w1c k then (s.reg o.toNat).getLsbD k && !(w.v.getLsbD k && !bit (tget 0 s.up.aonSet o.toNat) k)
            else if bit i.w1s k then (s.reg o.toNat).getLsbD k || w.v.getLsbD k
            else (s.reg o.toNat).getLsbD k)
    ∧ (∀ w : RegWr, s.reaches w.who 0x20 true = true → s.mayWrite (s.accOf w.who) 0x20 = true → w.v.toNat % 16 ≠ 1 → w.v.toNat % 16 ≠ 2 →
        ∃ v, exec (.idDescSelWrite w) s = .next (acked w v).settle ∧ v.g F.descSel = s.g F.descSel)
    ∧ (∀ o : Nat, ∃ t, exec (.testAccess (.regRead o)) s = .next t ∧ { t with pins := s.pins } = s)
    ∧ (∀ (f : Fld) (i : RegInfo) (v n : Nat), f.lo < 64 →
        bit ((s.hwSet f).cleared f.off i v) f.lo = false ∧ (s.hwSet f).reg f.off = (s.put f 1).reg f.off
        ∧ (s.hwAdd f n).addedNow f.off = s.addedNow f.off + ((s.sat f n).g f - s.g f) * 2 ^ f.lo)
    ∧ (∀ (who : Requester) (o : BitVec 20) (req : Packet),
        ((s.reaches who o.toNat false = false ∨ s.mayRead (s.accOf who) o.toNat = false ∨ o.toNat % 8 ≠ 0 ∨ 0xB0000 ≤ o.toNat) →
            exec (.rcRead ⟨who, req⟩ o) s = .next (s.regRefused who o.toNat false (asRead req)).settle)
        ∧ (∀ i, s.reaches who o.toNat false = true → s.mayRead (s.accOf who) o.toNat = true → regInfo o.toNat = some i → i.rc ≠ 0 →
            kernelReg o.toNat = none → (∀ p, linkOf o.toNat = some p → s.isLink p = true) →
            let x := BitVec.ofNat 64 (s.shown o.toNat - s.addedNow o.toNat)
            ∃ y, exec (.rcRead ⟨who, req⟩ o) s = .next (answered who req x (s.setReg o.toNat y)).settle
              ∧ (s.addedNow o.toNat = 0 → ∀ k, k < 64 → y.getLsbD k = ((s.reg o.toNat).getLsbD k && !bit i.rc k))
              ∧ y = BitVec.ofNat 64 (((s.reg o.toNat).toNat &&& (2 ^ 64 - 1 ^^^ i.rc)) + s.addedNow o.toNat)))

/-- R83, R177 to R179, R384, R387, R396, R397, R409, R411, R415, R430, R434, R435, R456, R467, R468, R478, R479, R483, R485: what the commands
that write a register with an effect do when the requester reaches it and may write it; a host or a node is answered. A software trigger
advances LOCSEQ (log entry 40), and EXTENSION_DONE with none under way has no effect (log entry 3).
Log entries of the model's own choices and readings here: 3, 7, 13, 40, 44, 45. -/
def Obligations.RegisterCommands : Prop :=
  ∀ (s : State) (w : RegWr),
    let ends (c : Instr) (u : State) : Prop := exec c s = .next u.settle
    let a := s.accOf w.who
    let may (off : Nat) : Prop := s.reaches w.who off true = true ∧ s.mayWrite a off = true
    let acked (u : State) : State := if w.who = .core then u else u.ackWrite (asWrite w.req)
    let meas (k : Nat) : List Byte := (List.range 6).flatMap fun j => toLe 8 (s.g (F.meas k j))
    (may 0x10010 → ends (.pscmdN3 w) (acked ((s.put F.psCmd 3).put F.psPend 1)) ∧ ends (.pscmdN4 w) (acked ((s.put F.psCmd 4).put F.psPend 1))
        ∧ ends (.pscmdWithdraw w) (acked ((s.put F.psCmd 0).put F.psPend 0)))
    ∧ (may 0x10028 → ends (.spnWakeGo w) (acked (if 3 ≤ s.power then { s with spn := { s.spn with wakeSrc := 6 } } else s)))
    ∧ (may 0x10040 → ∃ v, ends (.spnEpochWrite w) (acked v) ∧ v.g F.epoch = w.v.toNat % 2 ^ 32 ∧ v.spn = { s.spn with epochE := 0, epochTicks := 0 }
        ∧ (∀ o, o ≠ 0x10040 → v.reg o = s.reg o) ∧ v.core = s.core ∧ v.mem = s.mem ∧ v.rtr = s.rtr ∧ v.qe = s.qe)
    ∧ (∀ k : BitVec 2, may (0x10100 + 0x10 * k.toNat) → ∃ v, ends (.cmpValWrite k w) (acked v) ∧ v.g (F.cmpVal k.toNat) = w.v.toNat
        ∧ v.is (F.cmpHit k.toNat) = false ∧ v.spn.matched.getLsbD k.toNat = false ∧ v.core = s.core ∧ v.mem = s.mem ∧ v.rtr = s.rtr ∧ v.qe = s.qe)
    ∧ (∀ c : CtxId, may (0x20250 + 0x100 * c.num) →
        let st := w.v.toNat % 256
        let n := s.g (F.kRing c.num)
        let own : Prop := w.who = .core ∧ s.core.cur = c ∧ 1 ≤ s.cx.pl.toNat
        ((¬ own ∨ s.is (F.kFull c.num) = false) → ends (.qeKdone c w) s)
        ∧ (own → s.is (F.kFull c.num) = true → s.is (F.kExpired c.num) = true → ∃ v, ends (.qeKdone c w) v ∧ v.is (F.kFull c.num) = false
            ∧ v.is (F.kExpired c.num) = false ∧ v.mem = s.mem ∧ v.rtr = s.rtr ∧ v.qe = s.qe)
        ∧ (∀ x, own → s.is (F.kFull c.num) = true → s.is (F.kExpired c.num) = false → (s.ring n).exec = some x → dMbx x.desc = false → dCrec x.desc = 0 →
            ∃ v, ends (.qeKdone c w) v ∧ v.is (F.kFull c.num) = false ∧ v.mem = s.mem ∧ v.is (F.rBusy n) = false ∧ (v.ring n).exec = none
            ∧ v.g (F.rHead n) = (s.g (F.rHead n) + 1) % s.ringSize n ∧ v.g (F.rLast n) = if st = 0 ∨ 0x80 ≤ st then st else 0x80))
    ∧ (∀ c : CtxId, may (0x20240 + 0x100 * c.num) → w.who = .core → s.core.cur = c → 1 ≤ s.cx.pl.toNat →
        ∃ v, ends (.kslotTaken c w) v ∧ v.is (F.kTaken c.num) = true ∧ v.g (F.kFull c.num) = s.g (F.kFull c.num) ∧ v.qe = s.qe ∧ v.core = s.core)
    ∧ (∀ c : CtxId, may (0x20240 + 0x100 * c.num) → ¬ (s.core.cur = c ∧ 1 ≤ s.cx.pl.toNat) → w.who = .core ∧ ends (.kslotTaken c w) s)
    ∧ (∀ c : CtxId, s.reaches w.who (0x20218 + 0x100 * c.num) false = false →
        ends (.qeCqpop c ⟨w.who, w.req⟩) (s.regRefused w.who (0x20218 + 0x100 * c.num) false (asRead w.req)))
    ∧ (∀ c : CtxId, s.reaches w.who (0x20218 + 0x100 * c.num) false = true →
        let own : Prop := w.who = .core ∧ s.core.cur = c ∧ 1 ≤ s.cx.pl.toNat
        let q (l : List Word) (e : Word) : Queue := match c with
          | .c0 => { s.qe with cq0 := l, cqLast0 := e, timers := tput 0 s.qe.timers 3 0 }
          | .c1 => { s.qe with cq1 := l, cqLast1 := e, timers := tput 0 s.qe.timers 4 0 }
        (¬ own → ends (.qeCqpop c ⟨w.who, w.req⟩) (if w.who = .core then s else s.sendData (asRead w.req) (toLe 8 0)))
        ∧ (own → s.cq c = [] → ends (.qeCqpop c ⟨w.who, w.req⟩) (s.put (F.cqUdr c.num) 1))
        ∧ (∀ e l, own → s.cq c = e :: l → ends (.qeCqpop c ⟨w.who, w.req⟩) { s with qe := q l e }))
    ∧ (may 0x20018 → ∃ m, ends (.qeMboxAck w) (acked (s.put F.mboxReady m)) ∧ m < 256 ∧ ∀ i, i < 8 → bit m i =
        (bit (s.g F.mboxReady) i && !(w.v.getLsbD i && (w.who ≠ .core || s.cx.pl = 2 || s.mboxOwned i s.core.cur))))
    ∧ (∀ ring : BitVec 4,
        let n := ring.toNat
        let keep (v : State) : Prop := (v.ring n).exec = (s.ring n).exec ∧ v.core = s.core ∧ v.mem = s.mem ∧ v.rtr = s.rtr
        let size := s.ringSize n
        let t := bits w.v.toNat 16 16
        let ahead (x : Nat) : Nat := (x + size - s.g (F.rHead n) % size) % size
        (may (0x20808 + 0x20 * n) → ∃ v, ends (.ringEnable ring w) (acked v) ∧ keep v ∧ v.is (F.rEn n) = true ∧ v.g (F.rClass n) = bits w.v.toNat 2 2
          ∧ v.g (F.rShare n) = bits w.v.toNat 16 8
          ∧ (s.is (F.rEn n) = false → v.g (F.rHead n) = 0 ∧ v.g (F.rTail n) = 0 ∧ v.g (F.rCtx n) = bits w.v.toNat 1 1 ∧ v.g (F.rDbPerm n) = bits w.v.toNat 8 2)
          ∧ (s.is (F.rEn n) = true → v.g (F.rHead n) = s.g (F.rHead n) ∧ v.g (F.rTail n) = s.g (F.rTail n) ∧ v.g (F.rCtx n) = s.g (F.rCtx n)
            ∧ v.g (F.rLog n) = s.g (F.rLog n) ∧ v.g (F.rDbPerm n) = s.g (F.rDbPerm n)))
        ∧ (may (0x20808 + 0x20 * n) → ∃ v, ends (.ringDisable ring w) (acked v) ∧ keep v ∧ v.is (F.rEn n) = false ∧ v.g (F.rHead n) = s.g (F.rHead n)
          ∧ v.g (F.rTail n) = s.g (F.rTail n) ∧ v.g (F.rBusy n) = s.g (F.rBusy n))
        ∧ (may (0x20810 + 0x20 * n) → ends (.tailWrite ring w) (acked (if size ≤ t then s else if ahead (s.g (F.rTail n)) ≤ ahead t then s.put (F.rTail n) t
          else s.sat F.dbStaleCnt 1))))
    ∧ (may 0xA0028 → ends (.fltNrst w) (acked (if s.g F.stage = 0 then s else { s with up := { s.up with phase := .requested } })))
    ∧ (may 0xA0060 → (s.fltRx = [] → ends (.fltRxpop w) (acked (s.hwSet F.rxUdr)))
        ∧ ∀ e r, s.fltRx = e :: r → ends (.fltRxpop w) (acked { s with fltRx := r, fltRxLast := e }))
    ∧ (∀ (c : CtxId) (j : BitVec 2), may (0x90040 + 0x20 * c.num + 8 * j.toNat) →
        (s.is (F.keyValid c.num) = true → ends (.secKeyWrite c j w) (acked s))
        ∧ (s.is (F.keyValid c.num) = false → ∃ v, ends (.secKeyWrite c j w) (acked v) ∧ v.g (F.key c.num j.toNat) = w.v.toNat
            ∧ (v.is (F.keyValid c.num) = true ↔ j = 3) ∧ ∀ o, o ≠ (F.key c.num j.toNat).off → o ≠ 0x90008 → v.reg o = s.reg o))
    ∧ (may 0x90010 → ∃ v, ends (.secKeyclr w) (acked v) ∧ v.mem = s.mem ∧ ∀ c j, c < 2 → j < 4 →
        (w.v.getLsbD c = true → v.g (F.key c j) = 0 ∧ v.is (F.keyValid c) = false)
        ∧ (w.v.getLsbD c = false → v.g (F.key c j) = s.g (F.key c j) ∧ v.is (F.keyValid c) = s.is (F.keyValid c)))
    ∧ (may 0x90020 → ends (.secExtgo w) (acked (if s.is F.extBusy then s else { s.put F.extBusy 1 with up := { s.up with extIdx := BitVec.ofNat 2 w.v.toNat } })))
    ∧ ((s.is F.extBusy = false → exec .extensionDone s = .next s)
      ∧ (s.is F.extBusy = true →
          let k := s.up.extIdx.toNat
          let h := sha384 (meas k ++ (List.range 6).flatMap fun j => toLe 8 (s.g (F.extData j)))
          ∃ t : State, exec .extensionDone s = .next t ∧ t.is F.extBusy = false ∧ (∀ j, j < 6 → t.g (F.meas k j) = field h (8 * j) 8)
            ∧ t.mem = s.mem ∧ t.core = s.core))
    ∧ (may 0x90018 →
        (s.is F.secLock = true → ∃ v, ends (.secDbgctlWrite w) (acked v) ∧ v.is F.dbgEn = s.is F.dbgEn)
        ∧ (s.is F.secLock = false → s.is F.dbgEn = false → w.v.getLsbD 0 = true →
            let h := sha384 (meas 3 ++ sha384 (toLe 8 w.v.toNat))
            ∃ v, ends (.secDbgctlWrite w) (acked v) ∧ v.is F.dbgEn = true ∧ ∀ j, j < 6 → v.g (F.meas 3 j) = field h (8 * j) 8)
        ∧ (s.is F.secLock = false → (s.is F.dbgEn = true ∨ w.v.getLsbD 0 = false) →
            ∃ v, ends (.secDbgctlWrite w) (acked v) ∧ v.is F.dbgEn = w.v.getLsbD 0 ∧ ∀ k j, v.g (F.meas k j) = s.g (F.meas k j)))
    ∧ (∀ j : BitVec 2, may (0x90100 + 8 * j.toNat) →
        (s.is F.fcKeyValid = true → ends (.secFckeyWrite j w) (acked s))
        ∧ (s.is F.fcKeyValid = false → ∃ v, ends (.secFckeyWrite j w) (acked v) ∧ v.g (F.fcKey j.toNat) = w.v.toNat ∧ (v.is F.fcKeyValid = true ↔ j = 3)))
    ∧ (may 0x90128 → ∃ v, ends (.secFcclr w) (acked v) ∧ v.is F.fcKeyValid = false ∧ (∀ j, j < 4 → v.g (F.fcKey j) = 0) ∧ v.is F.hostOk = s.is F.hostOk)
    ∧ (may 0x80040 → ends (.obsSwtrig w) (acked ((s.put F.locSeq ((s.g F.locSeq + 1) % 256)).trigger
        { kind := 3, id := w.v.toNat % 65536, hops := 0, xd := false, src := s.self.toNat, host := false, orig := none })))
    ∧ (∀ i : BitVec 3, may (0x80400 + 0x200 * i.toNat) → ∃ v, ends (.monitorClr i w) (acked v) ∧ v.g (F.monCount i.toNat) = 0 ∧ v.g (F.monSum i.toNat) = 0
        ∧ v.reg (0x80418 + 0x200 * i.toNat) = 0x7FFFFFFFFFFFFFFF ∧ v.reg (0x80420 + 0x200 * i.toNat) = 0x8000000000000000
        ∧ (∀ k, k < 16 → v.reg (0x80500 + 0x200 * i.toNat + 8 * k) = 0) ∧ Like s { v with rtr := s.rtr }
        ∧ v.rtr = if v.meshKept then { s.rtr with idle := false, idleTicks := 0 } else s.rtr)
end

