-- ==== Sys2Proof/Laws/Tab.lean ====
section
/-! SUPPORT. Laws of the sparse arrays and of memory: a read after a write, every other place, and the one canonical
form kept by every operation. -/

set_option Elab.async false

namespace Sys2Proof.Machine

variable {α : Type}

/-! ### Reading after writing -/

theorem tget_tins_self {d v : α} {t : Tab α} {k : Nat} : tget d (tins t k v) k = v := by
  induction t with
  | nil => simp [tins, tget]
  | cons e r ih =>
    obtain ⟨i, x⟩ := e
    simp only [tins]
    split
    · simp [tget]
    · split
      · simp [tget]
      · rename_i h
        simp [tget, h, ih]

theorem tget_tins_other {d v : α} {t : Tab α} {k j : Nat} (h : j ≠ k) : tget d (tins t k v) j = tget d t j := by
  induction t with
  | nil => simp [tins, tget, h]
  | cons e r ih =>
    obtain ⟨i, x⟩ := e
    simp only [tins]
    split
    · simp [tget, h]
    · split
      · rename_i hk
        subst hk
        simp [tget, h]
      · simp [tget, ih]

theorem tget_filter_out {d : α} {t : Tab α} {p : Nat × α → Bool} {k : Nat} (h : ∀ v, p (k, v) = false) :
    tget d (t.filter p) k = d := by
  induction t with
  | nil => rfl
  | cons e r ih =>
    obtain ⟨i, x⟩ := e
    simp only [List.filter]
    split
    · rename_i hp
      have : k ≠ i := by rintro rfl; simp [h] at hp
      simp [tget, this, ih]
    · exact ih

theorem tget_filter_in {d : α} {t : Tab α} {p : Nat × α → Bool} {k : Nat} (h : ∀ v, p (k, v) = true) :
    tget d (t.filter p) k = tget d t k := by
  induction t with
  | nil => rfl
  | cons e r ih =>
    obtain ⟨i, x⟩ := e
    simp only [List.filter]
    split
    · simp [tget, ih]
    · rename_i hp
      have : k ≠ i := by rintro rfl; simp [h] at hp
      simp [tget, this, ih]

/-- A read after a write of the same place gives the value written. -/
@[simp] theorem tget_tput_self [DecidableEq α] {d v : α} {t : Tab α} {k : Nat} : tget d (tput d t k v) k = v := by
  unfold tput
  split
  · rename_i h
    subst h
    exact tget_filter_out (by simp)
  · exact tget_tins_self

/-- A write leaves every other place alone. -/
theorem tget_tput_other [DecidableEq α] {c d v : α} {t : Tab α} {k j : Nat} (h : j ≠ k) :
    tget c (tput d t k v) j = tget c t j := by
  unfold tput
  split
  · exact tget_filter_in (by simp [h])
  · exact tget_tins_other h

/-- The same, as one equation. -/
theorem tget_tput [DecidableEq α] {d v : α} {t : Tab α} {k j : Nat} :
    tget d (tput d t k v) j = if j = k then v else tget d t j := by
  by_cases h : j = k
  · subst h; simp
  · rw [tget_tput_other h, if_neg h]

/-! ### The canonical form -/

theorem twf_iff [DecidableEq α] {d : Nat → α} {t : Tab α} :
    twf d t = true ↔ (∀ e ∈ t, e.2 ≠ d e.1) ∧ t.Pairwise (fun a b => a.1 < b.1) := by
  induction t with
  | nil => simp [twf]
  | cons e r ih =>
    obtain ⟨i, x⟩ := e
    cases r with
    | nil => simp [twf]
    | cons e' r' =>
      obtain ⟨j, y⟩ := e'
      simp only [twf, Bool.and_eq_true, ih]
      simp only [List.mem_cons, List.pairwise_cons, decide_eq_true_eq, ne_eq]
      constructor
      · rintro ⟨⟨h1, h2⟩, h3, h4, h5⟩
        refine ⟨?_, ?_, h4, h5⟩
        · rintro e (rfl | h)
          · simpa using h1
          · exact h3 e h
        · rintro e (rfl | h)
          · exact h2
          · exact Nat.lt_trans h2 (h4 e h)
      · rintro ⟨h1, h2, h4, h5⟩
        exact ⟨⟨by simpa using h1 (i, x) (Or.inl rfl), h2 (j, y) (Or.inl rfl)⟩, fun e h => h1 e (Or.inr h), h4, h5⟩

theorem twf_filter [DecidableEq α] {d : Nat → α} {t : Tab α} (p : Nat × α → Bool) (h : twf d t = true) :
    twf d (t.filter p) = true := by
  rw [twf_iff] at h ⊢
  exact ⟨fun e he => h.1 e (List.mem_filter.1 he).1, h.2.filter p⟩

theorem twf_tclear [DecidableEq α] {d : Nat → α} {t : Tab α} (lo n : Nat) (h : twf d t = true) :
    twf d (tclear t lo n) = true := twf_filter _ h

theorem mem_tins {t : Tab α} {k : Nat} {v : α} {e : Nat × α} (h : e ∈ tins t k v) : e = (k, v) ∨ e ∈ t := by
  induction t with
  | nil => simpa [tins] using h
  | cons e' r ih =>
    obtain ⟨i, x⟩ := e'
    simp only [tins] at h
    split at h
    · simpa using h
    · split at h
      · rcases List.mem_cons.1 h with h | h
        · exact Or.inl h
        · exact Or.inr (List.mem_cons_of_mem _ h)
      · simp only [List.mem_cons] at h ⊢
        rcases h with h | h
        · exact Or.inr (Or.inl h)
        · rcases ih h with h | h
          · exact Or.inl h
          · exact Or.inr (Or.inr h)

theorem twf_tins [DecidableEq α] {d : Nat → α} {t : Tab α} {k : Nat} {v : α} (hv : v ≠ d k) (h : twf d t = true) :
    twf d (tins t k v) = true := by
  rw [twf_iff] at h ⊢
  refine ⟨?_, ?_⟩
  · intro e he
    rcases mem_tins he with rfl | he
    · exact hv
    · exact h.1 e he
  · replace h := h.2
    induction t with
    | nil => simp [tins]
    | cons e r ih =>
      obtain ⟨i, x⟩ := e
      simp only [List.pairwise_cons] at h
      simp only [tins]
      split
      · rename_i hk
        simp only [List.pairwise_cons, List.mem_cons]
        refine ⟨?_, h⟩
        rintro e (rfl | he)
        · exact hk
        · exact Nat.lt_trans hk (h.1 e he)
      · split
        · rename_i hk
          subst hk
          simp only [List.pairwise_cons]
          exact h
        · simp only [List.pairwise_cons]
          refine ⟨?_, ih h.2⟩
          intro e he
          rcases mem_tins he with rfl | he
          · simp only; omega
          · exact h.1 e he

/-- A write keeps the canonical form. -/
theorem twf_tput [DecidableEq α] {d : Nat → α} {t : Tab α} {k : Nat} {v : α} (h : twf d t = true) :
    twf d (tput (d k) t k v) = true := by
  unfold tput
  split
  · exact twf_filter _ h
  · exact twf_tins ‹_› h

/-- The same for an array with one default everywhere. -/
theorem twf_tput_const [DecidableEq α] {c : α} {t : Tab α} {k : Nat} {v : α} (h : twf (fun _ => c) t = true) :
    twf (fun _ => c) (tput c t k v) = true := twf_tput (d := fun _ => c) h

/-! ### Memory -/

@[simp] theorem Mem.byte_put_self {m : Mem} {a : Nat} {b : Byte} : (m.put a b).byte a = b := tget_tput_self

theorem Mem.byte_put_other {m : Mem} {a c : Nat} {b : Byte} (h : c ≠ a) : (m.put a b).byte c = m.byte c :=
  tget_tput_other h

/-- Every byte of memory after a write of a list of bytes. -/
theorem Mem.byte_write {m : Mem} {a c : Nat} {l : List Byte} :
    (m.write a l).byte c = if a ≤ c ∧ c < a + l.length then l.getD (c - a) 0 else m.byte c := by
  induction l generalizing m a with
  | nil =>
    simp only [Mem.write, List.length_nil]
    rw [if_neg (by omega)]
  | cons b r ih =>
    simp only [Mem.write, ih, List.length_cons]
    by_cases hc : c = a
    · subst hc
      rw [if_neg (by omega), if_pos (by omega), Mem.byte_put_self]
      simp
    · by_cases h : a + 1 ≤ c ∧ c < a + 1 + r.length
      · rw [if_pos h, if_pos (by omega)]
        obtain ⟨n, hn⟩ : ∃ n, c - a = n + 1 := ⟨c - a - 1, by omega⟩
        rw [hn, show c - (a + 1) = n from by omega]
        simp
      · rw [if_neg h, if_neg (by omega), Mem.byte_put_other hc]

/-- Bytes outside a write stand as before. -/
theorem Mem.byte_write_other {m : Mem} {a c : Nat} {l : List Byte} (h : c < a ∨ a + l.length ≤ c) :
    (m.write a l).byte c = m.byte c := by
  rw [Mem.byte_write, if_neg (by omega)]

/-- What was written is read back. -/
theorem Mem.read_write_self {m : Mem} {a : Nat} {l : List Byte} : (m.write a l).read a l.length = l := by
  apply List.ext_getElem
  · simp [Mem.read]
  · intro i h1 h2
    simp only [Mem.read, List.getElem_map, List.getElem_range, Mem.byte_write]
    rw [if_pos (by omega)]
    simp [h2]

theorem Mem.wf_put {m : Mem} {a : Nat} {b : Byte} (h : m.wf) : (m.put a b).wf := twf_tput_const h

theorem Mem.wf_write {m : Mem} {a : Nat} {l : List Byte} (h : m.wf) : (m.write a l).wf := by
  induction l generalizing m a with
  | nil => exact h
  | cons b r ih => exact ih (Mem.wf_put h)

theorem Mem.wf_clear {m : Mem} (lo n : Nat) (h : m.wf) : Mem.wf (tclear m lo n) := twf_tclear lo n h

/-- Writes at listed places keep the form. -/
theorem Mem.wf_puts {m : Mem} (l : List (Nat × Byte)) (h : m.wf) :
    Mem.wf (l.foldl (fun m e => m.put e.1 e.2) m) := by
  induction l generalizing m with
  | nil => exact h
  | cons e r ih => exact ih (Mem.wf_put h)

/-- Setting the same value at listed places keeps the form. -/
theorem twf_foldl_tput [DecidableEq α] {c v : α} {t : Tab α} (l : List Nat) (h : twf (fun _ => c) t = true) :
    twf (fun _ => c) (l.foldl (fun t k => tput c t k v) t) = true := by
  induction l generalizing t with
  | nil => exact h
  | cons k r ih => exact ih (twf_tput_const h)

/-- A table read off a rising list of keys, its default entries left out, is in canonical form. -/
theorem twf_range_map [DecidableEq α] {c : α} {n : Nat} {f : Nat → α} :
    twf (fun _ => c) (((List.range n).map fun i => (i, f i)).filter fun e => e.2 ≠ c) = true := by
  rw [twf_iff]
  refine ⟨fun e he => by simpa using (List.mem_filter.1 he).2, List.Pairwise.filter _ ?_⟩
  rw [List.pairwise_map]
  exact List.pairwise_lt_range

end Sys2Proof.Machine
end

