-- ==== Sys2Proof/Laws/State.lean ====
section
/-! SUPPORT. One lemma per field per update of State, true by unfolding the update, so that no proof unfolds a record. -/

set_option Elab.async false

namespace Sys2Proof.Machine

variable {s : State}

@[simp] theorem State.setReg_pending {off : Nat} {v : Word} : (s.setReg off v).pending = s.pending := rfl
@[simp] theorem State.setReg_pins {off : Nat} {v : Word} : (s.setReg off v).pins = s.pins := rfl
@[simp] theorem State.setReg_up {off : Nat} {v : Word} : (s.setReg off v).up = s.up := rfl
@[simp] theorem State.setReg_core {off : Nat} {v : Word} : (s.setReg off v).core = s.core := rfl
@[simp] theorem State.setReg_mx {off : Nat} {v : Word} : (s.setReg off v).mx = s.mx := rfl
@[simp] theorem State.setReg_mem {off : Nat} {v : Word} : (s.setReg off v).mem = s.mem := rfl
@[simp] theorem State.setReg_ecc {off : Nat} {v : Word} : (s.setReg off v).ecc = s.ecc := rfl
@[simp] theorem State.setReg_cache {off : Nat} {v : Word} : (s.setReg off v).cache = s.cache := rfl
@[simp] theorem State.setReg_rtr {off : Nat} {v : Word} : (s.setReg off v).rtr = s.rtr := rfl
@[simp] theorem State.setReg_lnkN {off : Nat} {v : Word} : (s.setReg off v).lnkN = s.lnkN := rfl
@[simp] theorem State.setReg_lnkE {off : Nat} {v : Word} : (s.setReg off v).lnkE = s.lnkE := rfl
@[simp] theorem State.setReg_lnkS {off : Nat} {v : Word} : (s.setReg off v).lnkS = s.lnkS := rfl
@[simp] theorem State.setReg_lnkW {off : Nat} {v : Word} : (s.setReg off v).lnkW = s.lnkW := rfl
@[simp] theorem State.setReg_qe {off : Nat} {v : Word} : (s.setReg off v).qe = s.qe := rfl
@[simp] theorem State.setReg_spn {off : Nat} {v : Word} : (s.setReg off v).spn = s.spn := rfl
@[simp] theorem State.setReg_fltRx {off : Nat} {v : Word} : (s.setReg off v).fltRx = s.fltRx := rfl
@[simp] theorem State.setReg_fltRxLast {off : Nat} {v : Word} : (s.setReg off v).fltRxLast = s.fltRxLast := rfl
@[simp] theorem State.setReg_act {off : Nat} {v : Word} : (s.setReg off v).act = s.act := rfl
@[simp] theorem State.setReg_fresh {off : Nat} {v : Word} : (s.setReg off v).fresh = s.fresh := rfl

@[simp] theorem State.put_pending {f : Fld} {v : Nat} : (s.put f v).pending = s.pending := rfl
@[simp] theorem State.put_pins {f : Fld} {v : Nat} : (s.put f v).pins = s.pins := rfl
@[simp] theorem State.put_up {f : Fld} {v : Nat} : (s.put f v).up = s.up := rfl
@[simp] theorem State.put_core {f : Fld} {v : Nat} : (s.put f v).core = s.core := rfl
@[simp] theorem State.put_mx {f : Fld} {v : Nat} : (s.put f v).mx = s.mx := rfl
@[simp] theorem State.put_mem {f : Fld} {v : Nat} : (s.put f v).mem = s.mem := rfl
@[simp] theorem State.put_ecc {f : Fld} {v : Nat} : (s.put f v).ecc = s.ecc := rfl
@[simp] theorem State.put_cache {f : Fld} {v : Nat} : (s.put f v).cache = s.cache := rfl
@[simp] theorem State.put_rtr {f : Fld} {v : Nat} : (s.put f v).rtr = s.rtr := rfl
@[simp] theorem State.put_lnkN {f : Fld} {v : Nat} : (s.put f v).lnkN = s.lnkN := rfl
@[simp] theorem State.put_lnkE {f : Fld} {v : Nat} : (s.put f v).lnkE = s.lnkE := rfl
@[simp] theorem State.put_lnkS {f : Fld} {v : Nat} : (s.put f v).lnkS = s.lnkS := rfl
@[simp] theorem State.put_lnkW {f : Fld} {v : Nat} : (s.put f v).lnkW = s.lnkW := rfl
@[simp] theorem State.put_qe {f : Fld} {v : Nat} : (s.put f v).qe = s.qe := rfl
@[simp] theorem State.put_spn {f : Fld} {v : Nat} : (s.put f v).spn = s.spn := rfl
@[simp] theorem State.put_fltRx {f : Fld} {v : Nat} : (s.put f v).fltRx = s.fltRx := rfl
@[simp] theorem State.put_fltRxLast {f : Fld} {v : Nat} : (s.put f v).fltRxLast = s.fltRxLast := rfl
@[simp] theorem State.put_act {f : Fld} {v : Nat} : (s.put f v).act = s.act := rfl
@[simp] theorem State.put_fresh {f : Fld} {v : Nat} : (s.put f v).fresh = s.fresh := rfl

@[simp] theorem State.sat_pending {f : Fld} {n : Nat} : (s.sat f n).pending = s.pending := rfl
@[simp] theorem State.sat_pins {f : Fld} {n : Nat} : (s.sat f n).pins = s.pins := rfl
@[simp] theorem State.sat_up {f : Fld} {n : Nat} : (s.sat f n).up = s.up := rfl
@[simp] theorem State.sat_core {f : Fld} {n : Nat} : (s.sat f n).core = s.core := rfl
@[simp] theorem State.sat_mx {f : Fld} {n : Nat} : (s.sat f n).mx = s.mx := rfl
@[simp] theorem State.sat_mem {f : Fld} {n : Nat} : (s.sat f n).mem = s.mem := rfl
@[simp] theorem State.sat_ecc {f : Fld} {n : Nat} : (s.sat f n).ecc = s.ecc := rfl
@[simp] theorem State.sat_cache {f : Fld} {n : Nat} : (s.sat f n).cache = s.cache := rfl
@[simp] theorem State.sat_rtr {f : Fld} {n : Nat} : (s.sat f n).rtr = s.rtr := rfl
@[simp] theorem State.sat_lnkN {f : Fld} {n : Nat} : (s.sat f n).lnkN = s.lnkN := rfl
@[simp] theorem State.sat_lnkE {f : Fld} {n : Nat} : (s.sat f n).lnkE = s.lnkE := rfl
@[simp] theorem State.sat_lnkS {f : Fld} {n : Nat} : (s.sat f n).lnkS = s.lnkS := rfl
@[simp] theorem State.sat_lnkW {f : Fld} {n : Nat} : (s.sat f n).lnkW = s.lnkW := rfl
@[simp] theorem State.sat_qe {f : Fld} {n : Nat} : (s.sat f n).qe = s.qe := rfl
@[simp] theorem State.sat_spn {f : Fld} {n : Nat} : (s.sat f n).spn = s.spn := rfl
@[simp] theorem State.sat_fltRx {f : Fld} {n : Nat} : (s.sat f n).fltRx = s.fltRx := rfl
@[simp] theorem State.sat_fltRxLast {f : Fld} {n : Nat} : (s.sat f n).fltRxLast = s.fltRxLast := rfl
@[simp] theorem State.sat_act {f : Fld} {n : Nat} : (s.sat f n).act = s.act := rfl
@[simp] theorem State.sat_fresh {f : Fld} {n : Nat} : (s.sat f n).fresh = s.fresh := rfl

@[simp] theorem State.setRing_pending {n : Nat} {r : Ring} : (s.setRing n r).pending = s.pending := rfl
@[simp] theorem State.setRing_pins {n : Nat} {r : Ring} : (s.setRing n r).pins = s.pins := rfl
@[simp] theorem State.setRing_up {n : Nat} {r : Ring} : (s.setRing n r).up = s.up := rfl
@[simp] theorem State.setRing_ctrl {n : Nat} {r : Ring} : (s.setRing n r).ctrl = s.ctrl := rfl
@[simp] theorem State.setRing_core {n : Nat} {r : Ring} : (s.setRing n r).core = s.core := rfl
@[simp] theorem State.setRing_mx {n : Nat} {r : Ring} : (s.setRing n r).mx = s.mx := rfl
@[simp] theorem State.setRing_mem {n : Nat} {r : Ring} : (s.setRing n r).mem = s.mem := rfl
@[simp] theorem State.setRing_ecc {n : Nat} {r : Ring} : (s.setRing n r).ecc = s.ecc := rfl
@[simp] theorem State.setRing_cache {n : Nat} {r : Ring} : (s.setRing n r).cache = s.cache := rfl
@[simp] theorem State.setRing_rtr {n : Nat} {r : Ring} : (s.setRing n r).rtr = s.rtr := rfl
@[simp] theorem State.setRing_lnkN {n : Nat} {r : Ring} : (s.setRing n r).lnkN = s.lnkN := rfl
@[simp] theorem State.setRing_lnkE {n : Nat} {r : Ring} : (s.setRing n r).lnkE = s.lnkE := rfl
@[simp] theorem State.setRing_lnkS {n : Nat} {r : Ring} : (s.setRing n r).lnkS = s.lnkS := rfl
@[simp] theorem State.setRing_lnkW {n : Nat} {r : Ring} : (s.setRing n r).lnkW = s.lnkW := rfl
@[simp] theorem State.setRing_spn {n : Nat} {r : Ring} : (s.setRing n r).spn = s.spn := rfl
@[simp] theorem State.setRing_fltRx {n : Nat} {r : Ring} : (s.setRing n r).fltRx = s.fltRx := rfl
@[simp] theorem State.setRing_fltRxLast {n : Nat} {r : Ring} : (s.setRing n r).fltRxLast = s.fltRxLast := rfl
@[simp] theorem State.setRing_act {n : Nat} {r : Ring} : (s.setRing n r).act = s.act := rfl
@[simp] theorem State.setRing_fresh {n : Nat} {r : Ring} : (s.setRing n r).fresh = s.fresh := rfl

@[simp] theorem State.dirty_pending {gs : List Nat} : (s.dirty gs).pending = s.pending := rfl
@[simp] theorem State.dirty_pins {gs : List Nat} : (s.dirty gs).pins = s.pins := rfl
@[simp] theorem State.dirty_up {gs : List Nat} : (s.dirty gs).up = s.up := rfl
@[simp] theorem State.dirty_ctrl {gs : List Nat} : (s.dirty gs).ctrl = s.ctrl := rfl
@[simp] theorem State.dirty_mx {gs : List Nat} : (s.dirty gs).mx = s.mx := rfl
@[simp] theorem State.dirty_mem {gs : List Nat} : (s.dirty gs).mem = s.mem := rfl
@[simp] theorem State.dirty_ecc {gs : List Nat} : (s.dirty gs).ecc = s.ecc := rfl
@[simp] theorem State.dirty_cache {gs : List Nat} : (s.dirty gs).cache = s.cache := rfl
@[simp] theorem State.dirty_rtr {gs : List Nat} : (s.dirty gs).rtr = s.rtr := rfl
@[simp] theorem State.dirty_lnkN {gs : List Nat} : (s.dirty gs).lnkN = s.lnkN := rfl
@[simp] theorem State.dirty_lnkE {gs : List Nat} : (s.dirty gs).lnkE = s.lnkE := rfl
@[simp] theorem State.dirty_lnkS {gs : List Nat} : (s.dirty gs).lnkS = s.lnkS := rfl
@[simp] theorem State.dirty_lnkW {gs : List Nat} : (s.dirty gs).lnkW = s.lnkW := rfl
@[simp] theorem State.dirty_qe {gs : List Nat} : (s.dirty gs).qe = s.qe := rfl
@[simp] theorem State.dirty_spn {gs : List Nat} : (s.dirty gs).spn = s.spn := rfl
@[simp] theorem State.dirty_fltRx {gs : List Nat} : (s.dirty gs).fltRx = s.fltRx := rfl
@[simp] theorem State.dirty_fltRxLast {gs : List Nat} : (s.dirty gs).fltRxLast = s.fltRxLast := rfl
@[simp] theorem State.dirty_act {gs : List Nat} : (s.dirty gs).act = s.act := rfl
@[simp] theorem State.dirty_fresh {gs : List Nat} : (s.dirty gs).fresh = s.fresh := rfl

@[simp] theorem State.setMx_pending {m : Mx} {gs : List Nat} : (s.setMx m gs).pending = s.pending := rfl
@[simp] theorem State.setMx_pins {m : Mx} {gs : List Nat} : (s.setMx m gs).pins = s.pins := rfl
@[simp] theorem State.setMx_up {m : Mx} {gs : List Nat} : (s.setMx m gs).up = s.up := rfl
@[simp] theorem State.setMx_ctrl {m : Mx} {gs : List Nat} : (s.setMx m gs).ctrl = s.ctrl := rfl
@[simp] theorem State.setMx_mem {m : Mx} {gs : List Nat} : (s.setMx m gs).mem = s.mem := rfl
@[simp] theorem State.setMx_ecc {m : Mx} {gs : List Nat} : (s.setMx m gs).ecc = s.ecc := rfl
@[simp] theorem State.setMx_cache {m : Mx} {gs : List Nat} : (s.setMx m gs).cache = s.cache := rfl
@[simp] theorem State.setMx_rtr {m : Mx} {gs : List Nat} : (s.setMx m gs).rtr = s.rtr := rfl
@[simp] theorem State.setMx_lnkN {m : Mx} {gs : List Nat} : (s.setMx m gs).lnkN = s.lnkN := rfl
@[simp] theorem State.setMx_lnkE {m : Mx} {gs : List Nat} : (s.setMx m gs).lnkE = s.lnkE := rfl
@[simp] theorem State.setMx_lnkS {m : Mx} {gs : List Nat} : (s.setMx m gs).lnkS = s.lnkS := rfl
@[simp] theorem State.setMx_lnkW {m : Mx} {gs : List Nat} : (s.setMx m gs).lnkW = s.lnkW := rfl
@[simp] theorem State.setMx_qe {m : Mx} {gs : List Nat} : (s.setMx m gs).qe = s.qe := rfl
@[simp] theorem State.setMx_spn {m : Mx} {gs : List Nat} : (s.setMx m gs).spn = s.spn := rfl
@[simp] theorem State.setMx_fltRx {m : Mx} {gs : List Nat} : (s.setMx m gs).fltRx = s.fltRx := rfl
@[simp] theorem State.setMx_fltRxLast {m : Mx} {gs : List Nat} : (s.setMx m gs).fltRxLast = s.fltRxLast := rfl
@[simp] theorem State.setMx_act {m : Mx} {gs : List Nat} : (s.setMx m gs).act = s.act := rfl
@[simp] theorem State.setMx_fresh {m : Mx} {gs : List Nat} : (s.setMx m gs).fresh = s.fresh := rfl

@[simp] theorem State.setVec_pending {r : BitVec 5} {v : Nat} : (s.setVec r v).pending = s.pending := rfl
@[simp] theorem State.setVec_pins {r : BitVec 5} {v : Nat} : (s.setVec r v).pins = s.pins := rfl
@[simp] theorem State.setVec_up {r : BitVec 5} {v : Nat} : (s.setVec r v).up = s.up := rfl
@[simp] theorem State.setVec_ctrl {r : BitVec 5} {v : Nat} : (s.setVec r v).ctrl = s.ctrl := rfl
@[simp] theorem State.setVec_mem {r : BitVec 5} {v : Nat} : (s.setVec r v).mem = s.mem := rfl
@[simp] theorem State.setVec_ecc {r : BitVec 5} {v : Nat} : (s.setVec r v).ecc = s.ecc := rfl
@[simp] theorem State.setVec_cache {r : BitVec 5} {v : Nat} : (s.setVec r v).cache = s.cache := rfl
@[simp] theorem State.setVec_rtr {r : BitVec 5} {v : Nat} : (s.setVec r v).rtr = s.rtr := rfl
@[simp] theorem State.setVec_lnkN {r : BitVec 5} {v : Nat} : (s.setVec r v).lnkN = s.lnkN := rfl
@[simp] theorem State.setVec_lnkE {r : BitVec 5} {v : Nat} : (s.setVec r v).lnkE = s.lnkE := rfl
@[simp] theorem State.setVec_lnkS {r : BitVec 5} {v : Nat} : (s.setVec r v).lnkS = s.lnkS := rfl
@[simp] theorem State.setVec_lnkW {r : BitVec 5} {v : Nat} : (s.setVec r v).lnkW = s.lnkW := rfl
@[simp] theorem State.setVec_qe {r : BitVec 5} {v : Nat} : (s.setVec r v).qe = s.qe := rfl
@[simp] theorem State.setVec_spn {r : BitVec 5} {v : Nat} : (s.setVec r v).spn = s.spn := rfl
@[simp] theorem State.setVec_fltRx {r : BitVec 5} {v : Nat} : (s.setVec r v).fltRx = s.fltRx := rfl
@[simp] theorem State.setVec_fltRxLast {r : BitVec 5} {v : Nat} : (s.setVec r v).fltRxLast = s.fltRxLast := rfl
@[simp] theorem State.setVec_act {r : BitVec 5} {v : Nat} : (s.setVec r v).act = s.act := rfl
@[simp] theorem State.setVec_fresh {r : BitVec 5} {v : Nat} : (s.setVec r v).fresh = s.fresh := rfl

@[simp] theorem State.tick_pending  : (s.tick).pending = s.pending := rfl
@[simp] theorem State.tick_pins  : (s.tick).pins = s.pins := rfl
@[simp] theorem State.tick_up  : (s.tick).up = s.up := rfl
@[simp] theorem State.tick_ctrl  : (s.tick).ctrl = s.ctrl := rfl
@[simp] theorem State.tick_core  : (s.tick).core = s.core := rfl
@[simp] theorem State.tick_mx  : (s.tick).mx = s.mx := rfl
@[simp] theorem State.tick_mem  : (s.tick).mem = s.mem := rfl
@[simp] theorem State.tick_ecc  : (s.tick).ecc = s.ecc := rfl
@[simp] theorem State.tick_cache  : (s.tick).cache = s.cache := rfl
@[simp] theorem State.tick_rtr  : (s.tick).rtr = s.rtr := rfl
@[simp] theorem State.tick_lnkN  : (s.tick).lnkN = s.lnkN := rfl
@[simp] theorem State.tick_lnkE  : (s.tick).lnkE = s.lnkE := rfl
@[simp] theorem State.tick_lnkS  : (s.tick).lnkS = s.lnkS := rfl
@[simp] theorem State.tick_lnkW  : (s.tick).lnkW = s.lnkW := rfl
@[simp] theorem State.tick_qe  : (s.tick).qe = s.qe := rfl
@[simp] theorem State.tick_spn  : (s.tick).spn = s.spn := rfl
@[simp] theorem State.tick_fltRx  : (s.tick).fltRx = s.fltRx := rfl
@[simp] theorem State.tick_fltRxLast  : (s.tick).fltRxLast = s.fltRxLast := rfl
@[simp] theorem State.tick_act  : (s.tick).act = s.act := rfl

@[simp] theorem State.hwSet_pending {f : Fld} : (s.hwSet f).pending = s.pending := rfl
@[simp] theorem State.hwSet_pins {f : Fld} : (s.hwSet f).pins = s.pins := rfl
@[simp] theorem State.hwSet_core {f : Fld} : (s.hwSet f).core = s.core := rfl
@[simp] theorem State.hwSet_mx {f : Fld} : (s.hwSet f).mx = s.mx := rfl
@[simp] theorem State.hwSet_mem {f : Fld} : (s.hwSet f).mem = s.mem := rfl
@[simp] theorem State.hwSet_ecc {f : Fld} : (s.hwSet f).ecc = s.ecc := rfl
@[simp] theorem State.hwSet_cache {f : Fld} : (s.hwSet f).cache = s.cache := rfl
@[simp] theorem State.hwSet_rtr {f : Fld} : (s.hwSet f).rtr = s.rtr := rfl
@[simp] theorem State.hwSet_lnkN {f : Fld} : (s.hwSet f).lnkN = s.lnkN := rfl
@[simp] theorem State.hwSet_lnkE {f : Fld} : (s.hwSet f).lnkE = s.lnkE := rfl
@[simp] theorem State.hwSet_lnkS {f : Fld} : (s.hwSet f).lnkS = s.lnkS := rfl
@[simp] theorem State.hwSet_lnkW {f : Fld} : (s.hwSet f).lnkW = s.lnkW := rfl
@[simp] theorem State.hwSet_qe {f : Fld} : (s.hwSet f).qe = s.qe := rfl
@[simp] theorem State.hwSet_spn {f : Fld} : (s.hwSet f).spn = s.spn := rfl
@[simp] theorem State.hwSet_fltRx {f : Fld} : (s.hwSet f).fltRx = s.fltRx := rfl
@[simp] theorem State.hwSet_fltRxLast {f : Fld} : (s.hwSet f).fltRxLast = s.fltRxLast := rfl
@[simp] theorem State.hwSet_act {f : Fld} : (s.hwSet f).act = s.act := rfl
@[simp] theorem State.hwSet_fresh {f : Fld} : (s.hwSet f).fresh = s.fresh := rfl

@[simp] theorem State.hwAdd_pending {f : Fld} {n : Nat} : (s.hwAdd f n).pending = s.pending := rfl
@[simp] theorem State.hwAdd_pins {f : Fld} {n : Nat} : (s.hwAdd f n).pins = s.pins := rfl
@[simp] theorem State.hwAdd_core {f : Fld} {n : Nat} : (s.hwAdd f n).core = s.core := rfl
@[simp] theorem State.hwAdd_mx {f : Fld} {n : Nat} : (s.hwAdd f n).mx = s.mx := rfl
@[simp] theorem State.hwAdd_mem {f : Fld} {n : Nat} : (s.hwAdd f n).mem = s.mem := rfl
@[simp] theorem State.hwAdd_ecc {f : Fld} {n : Nat} : (s.hwAdd f n).ecc = s.ecc := rfl
@[simp] theorem State.hwAdd_cache {f : Fld} {n : Nat} : (s.hwAdd f n).cache = s.cache := rfl
@[simp] theorem State.hwAdd_rtr {f : Fld} {n : Nat} : (s.hwAdd f n).rtr = s.rtr := rfl
@[simp] theorem State.hwAdd_lnkN {f : Fld} {n : Nat} : (s.hwAdd f n).lnkN = s.lnkN := rfl
@[simp] theorem State.hwAdd_lnkE {f : Fld} {n : Nat} : (s.hwAdd f n).lnkE = s.lnkE := rfl
@[simp] theorem State.hwAdd_lnkS {f : Fld} {n : Nat} : (s.hwAdd f n).lnkS = s.lnkS := rfl
@[simp] theorem State.hwAdd_lnkW {f : Fld} {n : Nat} : (s.hwAdd f n).lnkW = s.lnkW := rfl
@[simp] theorem State.hwAdd_qe {f : Fld} {n : Nat} : (s.hwAdd f n).qe = s.qe := rfl
@[simp] theorem State.hwAdd_spn {f : Fld} {n : Nat} : (s.hwAdd f n).spn = s.spn := rfl
@[simp] theorem State.hwAdd_fltRx {f : Fld} {n : Nat} : (s.hwAdd f n).fltRx = s.fltRx := rfl
@[simp] theorem State.hwAdd_fltRxLast {f : Fld} {n : Nat} : (s.hwAdd f n).fltRxLast = s.fltRxLast := rfl
@[simp] theorem State.hwAdd_act {f : Fld} {n : Nat} : (s.hwAdd f n).act = s.act := rfl
@[simp] theorem State.hwAdd_fresh {f : Fld} {n : Nat} : (s.hwAdd f n).fresh = s.fresh := rfl

@[simp] theorem State.ldo_pending {b : Bool} : (s.ldo b).pending = s.pending := rfl
@[simp] theorem State.ldo_pins {b : Bool} : (s.ldo b).pins = s.pins := rfl
@[simp] theorem State.ldo_up {b : Bool} : (s.ldo b).up = s.up := rfl
@[simp] theorem State.ldo_ctrl {b : Bool} : (s.ldo b).ctrl = s.ctrl := rfl
@[simp] theorem State.ldo_core {b : Bool} : (s.ldo b).core = s.core := rfl
@[simp] theorem State.ldo_mx {b : Bool} : (s.ldo b).mx = s.mx := rfl
@[simp] theorem State.ldo_mem {b : Bool} : (s.ldo b).mem = s.mem := rfl
@[simp] theorem State.ldo_ecc {b : Bool} : (s.ldo b).ecc = s.ecc := rfl
@[simp] theorem State.ldo_cache {b : Bool} : (s.ldo b).cache = s.cache := rfl
@[simp] theorem State.ldo_rtr {b : Bool} : (s.ldo b).rtr = s.rtr := rfl
@[simp] theorem State.ldo_lnkN {b : Bool} : (s.ldo b).lnkN = s.lnkN := rfl
@[simp] theorem State.ldo_lnkE {b : Bool} : (s.ldo b).lnkE = s.lnkE := rfl
@[simp] theorem State.ldo_lnkS {b : Bool} : (s.ldo b).lnkS = s.lnkS := rfl
@[simp] theorem State.ldo_lnkW {b : Bool} : (s.ldo b).lnkW = s.lnkW := rfl
@[simp] theorem State.ldo_qe {b : Bool} : (s.ldo b).qe = s.qe := rfl
@[simp] theorem State.ldo_fltRx {b : Bool} : (s.ldo b).fltRx = s.fltRx := rfl
@[simp] theorem State.ldo_fltRxLast {b : Bool} : (s.ldo b).fltRxLast = s.fltRxLast := rfl
@[simp] theorem State.ldo_act {b : Bool} : (s.ldo b).act = s.act := rfl
@[simp] theorem State.ldo_fresh {b : Bool} : (s.ldo b).fresh = s.fresh := rfl

@[simp] theorem State.leaveN1_pending  : (s.leaveN1).pending = s.pending := rfl
@[simp] theorem State.leaveN1_pins  : (s.leaveN1).pins = s.pins := rfl
@[simp] theorem State.leaveN1_up  : (s.leaveN1).up = s.up := rfl
@[simp] theorem State.leaveN1_ctrl  : (s.leaveN1).ctrl = s.ctrl := rfl
@[simp] theorem State.leaveN1_core  : (s.leaveN1).core = s.core := rfl
@[simp] theorem State.leaveN1_mx  : (s.leaveN1).mx = s.mx := rfl
@[simp] theorem State.leaveN1_mem  : (s.leaveN1).mem = s.mem := rfl
@[simp] theorem State.leaveN1_ecc  : (s.leaveN1).ecc = s.ecc := rfl
@[simp] theorem State.leaveN1_cache  : (s.leaveN1).cache = s.cache := rfl
@[simp] theorem State.leaveN1_rtr  : (s.leaveN1).rtr = s.rtr := rfl
@[simp] theorem State.leaveN1_lnkN  : (s.leaveN1).lnkN = s.lnkN := rfl
@[simp] theorem State.leaveN1_lnkE  : (s.leaveN1).lnkE = s.lnkE := rfl
@[simp] theorem State.leaveN1_lnkS  : (s.leaveN1).lnkS = s.lnkS := rfl
@[simp] theorem State.leaveN1_lnkW  : (s.leaveN1).lnkW = s.lnkW := rfl
@[simp] theorem State.leaveN1_qe  : (s.leaveN1).qe = s.qe := rfl
@[simp] theorem State.leaveN1_fltRx  : (s.leaveN1).fltRx = s.fltRx := rfl
@[simp] theorem State.leaveN1_fltRxLast  : (s.leaveN1).fltRxLast = s.fltRxLast := rfl
@[simp] theorem State.leaveN1_act  : (s.leaveN1).act = s.act := rfl
@[simp] theorem State.leaveN1_fresh  : (s.leaveN1).fresh = s.fresh := rfl

@[simp] theorem State.await_pending {t : BitVec 16} {w : Owner} : (s.await t w).pending = s.pending := rfl
@[simp] theorem State.await_pins {t : BitVec 16} {w : Owner} : (s.await t w).pins = s.pins := rfl
@[simp] theorem State.await_up {t : BitVec 16} {w : Owner} : (s.await t w).up = s.up := rfl
@[simp] theorem State.await_ctrl {t : BitVec 16} {w : Owner} : (s.await t w).ctrl = s.ctrl := rfl
@[simp] theorem State.await_core {t : BitVec 16} {w : Owner} : (s.await t w).core = s.core := rfl
@[simp] theorem State.await_mx {t : BitVec 16} {w : Owner} : (s.await t w).mx = s.mx := rfl
@[simp] theorem State.await_mem {t : BitVec 16} {w : Owner} : (s.await t w).mem = s.mem := rfl
@[simp] theorem State.await_ecc {t : BitVec 16} {w : Owner} : (s.await t w).ecc = s.ecc := rfl
@[simp] theorem State.await_cache {t : BitVec 16} {w : Owner} : (s.await t w).cache = s.cache := rfl
@[simp] theorem State.await_rtr {t : BitVec 16} {w : Owner} : (s.await t w).rtr = s.rtr := rfl
@[simp] theorem State.await_lnkN {t : BitVec 16} {w : Owner} : (s.await t w).lnkN = s.lnkN := rfl
@[simp] theorem State.await_lnkE {t : BitVec 16} {w : Owner} : (s.await t w).lnkE = s.lnkE := rfl
@[simp] theorem State.await_lnkS {t : BitVec 16} {w : Owner} : (s.await t w).lnkS = s.lnkS := rfl
@[simp] theorem State.await_lnkW {t : BitVec 16} {w : Owner} : (s.await t w).lnkW = s.lnkW := rfl
@[simp] theorem State.await_spn {t : BitVec 16} {w : Owner} : (s.await t w).spn = s.spn := rfl
@[simp] theorem State.await_fltRx {t : BitVec 16} {w : Owner} : (s.await t w).fltRx = s.fltRx := rfl
@[simp] theorem State.await_fltRxLast {t : BitVec 16} {w : Owner} : (s.await t w).fltRxLast = s.fltRxLast := rfl
@[simp] theorem State.await_act {t : BitVec 16} {w : Owner} : (s.await t w).act = s.act := rfl
@[simp] theorem State.await_fresh {t : BitVec 16} {w : Owner} : (s.await t w).fresh = s.fresh := rfl

@[simp] theorem State.settled_pending {t : BitVec 16} : (s.settled t).pending = s.pending := rfl
@[simp] theorem State.settled_pins {t : BitVec 16} : (s.settled t).pins = s.pins := rfl
@[simp] theorem State.settled_up {t : BitVec 16} : (s.settled t).up = s.up := rfl
@[simp] theorem State.settled_ctrl {t : BitVec 16} : (s.settled t).ctrl = s.ctrl := rfl
@[simp] theorem State.settled_core {t : BitVec 16} : (s.settled t).core = s.core := rfl
@[simp] theorem State.settled_mx {t : BitVec 16} : (s.settled t).mx = s.mx := rfl
@[simp] theorem State.settled_mem {t : BitVec 16} : (s.settled t).mem = s.mem := rfl
@[simp] theorem State.settled_ecc {t : BitVec 16} : (s.settled t).ecc = s.ecc := rfl
@[simp] theorem State.settled_cache {t : BitVec 16} : (s.settled t).cache = s.cache := rfl
@[simp] theorem State.settled_rtr {t : BitVec 16} : (s.settled t).rtr = s.rtr := rfl
@[simp] theorem State.settled_lnkN {t : BitVec 16} : (s.settled t).lnkN = s.lnkN := rfl
@[simp] theorem State.settled_lnkE {t : BitVec 16} : (s.settled t).lnkE = s.lnkE := rfl
@[simp] theorem State.settled_lnkS {t : BitVec 16} : (s.settled t).lnkS = s.lnkS := rfl
@[simp] theorem State.settled_lnkW {t : BitVec 16} : (s.settled t).lnkW = s.lnkW := rfl
@[simp] theorem State.settled_spn {t : BitVec 16} : (s.settled t).spn = s.spn := rfl
@[simp] theorem State.settled_fltRx {t : BitVec 16} : (s.settled t).fltRx = s.fltRx := rfl
@[simp] theorem State.settled_fltRxLast {t : BitVec 16} : (s.settled t).fltRxLast = s.fltRxLast := rfl
@[simp] theorem State.settled_act {t : BitVec 16} : (s.settled t).act = s.act := rfl
@[simp] theorem State.settled_fresh {t : BitVec 16} : (s.settled t).fresh = s.fresh := rfl

@[simp] theorem State.setMx_mx {m : Mx} {gs : List Nat} : (s.setMx m gs).mx = m := rfl
@[simp] theorem State.tick_fresh : s.tick.fresh = s.fresh + 1 := rfl

@[simp] theorem State.tally_pending {k n : Nat} : (s.tally k n).pending = s.pending := by unfold State.tally; split <;> rfl
@[simp] theorem State.tally_pins {k n : Nat} : (s.tally k n).pins = s.pins := by unfold State.tally; split <;> rfl
@[simp] theorem State.tally_up {k n : Nat} : (s.tally k n).up = s.up := by unfold State.tally; split <;> rfl
@[simp] theorem State.tally_ctrl {k n : Nat} : (s.tally k n).ctrl = s.ctrl := by unfold State.tally; split <;> rfl
@[simp] theorem State.tally_core {k n : Nat} : (s.tally k n).core = s.core := by unfold State.tally; split <;> rfl
@[simp] theorem State.tally_mx {k n : Nat} : (s.tally k n).mx = s.mx := by unfold State.tally; split <;> rfl
@[simp] theorem State.tally_mem {k n : Nat} : (s.tally k n).mem = s.mem := by unfold State.tally; split <;> rfl
@[simp] theorem State.tally_ecc {k n : Nat} : (s.tally k n).ecc = s.ecc := by unfold State.tally; split <;> rfl
@[simp] theorem State.tally_cache {k n : Nat} : (s.tally k n).cache = s.cache := by unfold State.tally; split <;> rfl
@[simp] theorem State.tally_rtr {k n : Nat} : (s.tally k n).rtr = s.rtr := by unfold State.tally; split <;> rfl
@[simp] theorem State.tally_lnkN {k n : Nat} : (s.tally k n).lnkN = s.lnkN := by unfold State.tally; split <;> rfl
@[simp] theorem State.tally_lnkE {k n : Nat} : (s.tally k n).lnkE = s.lnkE := by unfold State.tally; split <;> rfl
@[simp] theorem State.tally_lnkS {k n : Nat} : (s.tally k n).lnkS = s.lnkS := by unfold State.tally; split <;> rfl
@[simp] theorem State.tally_lnkW {k n : Nat} : (s.tally k n).lnkW = s.lnkW := by unfold State.tally; split <;> rfl
@[simp] theorem State.tally_qe {k n : Nat} : (s.tally k n).qe = s.qe := by unfold State.tally; split <;> rfl
@[simp] theorem State.tally_spn {k n : Nat} : (s.tally k n).spn = s.spn := by unfold State.tally; split <;> rfl
@[simp] theorem State.tally_fltRx {k n : Nat} : (s.tally k n).fltRx = s.fltRx := by unfold State.tally; split <;> rfl
@[simp] theorem State.tally_fltRxLast {k n : Nat} : (s.tally k n).fltRxLast = s.fltRxLast := by unfold State.tally; split <;> rfl
@[simp] theorem State.tally_fresh {k n : Nat} : (s.tally k n).fresh = s.fresh := by unfold State.tally; split <;> rfl
@[simp] theorem State.tally_reg {k n off : Nat} : (s.tally k n).reg off = s.reg off := by unfold State.tally; split <;> rfl

@[simp] theorem State.setCtx_pending {c : CtxId} {x : Ctx} : (s.setCtx c x).pending = s.pending := by cases c <;> rfl
@[simp] theorem State.setCtx_pins {c : CtxId} {x : Ctx} : (s.setCtx c x).pins = s.pins := by cases c <;> rfl
@[simp] theorem State.setCtx_up {c : CtxId} {x : Ctx} : (s.setCtx c x).up = s.up := by cases c <;> rfl
@[simp] theorem State.setCtx_ctrl {c : CtxId} {x : Ctx} : (s.setCtx c x).ctrl = s.ctrl := by cases c <;> rfl
@[simp] theorem State.setCtx_mx {c : CtxId} {x : Ctx} : (s.setCtx c x).mx = s.mx := by cases c <;> rfl
@[simp] theorem State.setCtx_mem {c : CtxId} {x : Ctx} : (s.setCtx c x).mem = s.mem := by cases c <;> rfl
@[simp] theorem State.setCtx_ecc {c : CtxId} {x : Ctx} : (s.setCtx c x).ecc = s.ecc := by cases c <;> rfl
@[simp] theorem State.setCtx_cache {c : CtxId} {x : Ctx} : (s.setCtx c x).cache = s.cache := by cases c <;> rfl
@[simp] theorem State.setCtx_rtr {c : CtxId} {x : Ctx} : (s.setCtx c x).rtr = s.rtr := by cases c <;> rfl
@[simp] theorem State.setCtx_lnkN {c : CtxId} {x : Ctx} : (s.setCtx c x).lnkN = s.lnkN := by cases c <;> rfl
@[simp] theorem State.setCtx_lnkE {c : CtxId} {x : Ctx} : (s.setCtx c x).lnkE = s.lnkE := by cases c <;> rfl
@[simp] theorem State.setCtx_lnkS {c : CtxId} {x : Ctx} : (s.setCtx c x).lnkS = s.lnkS := by cases c <;> rfl
@[simp] theorem State.setCtx_lnkW {c : CtxId} {x : Ctx} : (s.setCtx c x).lnkW = s.lnkW := by cases c <;> rfl
@[simp] theorem State.setCtx_qe {c : CtxId} {x : Ctx} : (s.setCtx c x).qe = s.qe := by cases c <;> rfl
@[simp] theorem State.setCtx_spn {c : CtxId} {x : Ctx} : (s.setCtx c x).spn = s.spn := by cases c <;> rfl
@[simp] theorem State.setCtx_fltRx {c : CtxId} {x : Ctx} : (s.setCtx c x).fltRx = s.fltRx := by cases c <;> rfl
@[simp] theorem State.setCtx_fltRxLast {c : CtxId} {x : Ctx} : (s.setCtx c x).fltRxLast = s.fltRxLast := by cases c <;> rfl
@[simp] theorem State.setCtx_act {c : CtxId} {x : Ctx} : (s.setCtx c x).act = s.act := by cases c <;> rfl
@[simp] theorem State.setCtx_fresh {c : CtxId} {x : Ctx} : (s.setCtx c x).fresh = s.fresh := by cases c <;> rfl
@[simp] theorem State.setCtx_core_cur {c : CtxId} {x : Ctx} : (s.setCtx c x).core.cur = s.core.cur := by cases c <;> rfl
@[simp] theorem State.setCtx_core_run {c : CtxId} {x : Ctx} : (s.setCtx c x).core.run = s.core.run := by cases c <;> rfl
@[simp] theorem State.setCtx_core_xpre {c : CtxId} {x : Ctx} : (s.setCtx c x).core.xpre = s.core.xpre := by cases c <;> rfl
@[simp] theorem State.setCtx_core_benchBusy {c : CtxId} {x : Ctx} : (s.setCtx c x).core.benchBusy = s.core.benchBusy := by cases c <;> rfl
@[simp] theorem State.setCtx_core_benchCtx {c : CtxId} {x : Ctx} : (s.setCtx c x).core.benchCtx = s.core.benchCtx := by cases c <;> rfl
@[simp] theorem State.setCtx_core_benchDepth {c : CtxId} {x : Ctx} : (s.setCtx c x).core.benchDepth = s.core.benchDepth := by cases c <;> rfl
@[simp] theorem State.setCtx_core_mxOwner {c : CtxId} {x : Ctx} : (s.setCtx c x).core.mxOwner = s.core.mxOwner := by cases c <;> rfl
@[simp] theorem State.setCtx_core_mxDirty {c : CtxId} {x : Ctx} : (s.setCtx c x).core.mxDirty = s.core.mxDirty := by cases c <;> rfl
@[simp] theorem State.setCtx_core_mxCfg {c : CtxId} {x : Ctx} : (s.setCtx c x).core.mxCfg = s.core.mxCfg := by cases c <;> rfl
@[simp] theorem State.setCtx_core_chestBase0 {c : CtxId} {x : Ctx} : (s.setCtx c x).core.chestBase0 = s.core.chestBase0 := by cases c <;> rfl
@[simp] theorem State.setCtx_core_chestBase1 {c : CtxId} {x : Ctx} : (s.setCtx c x).core.chestBase1 = s.core.chestBase1 := by cases c <;> rfl
@[simp] theorem State.setCtx_core_chestErr {c : CtxId} {x : Ctx} : (s.setCtx c x).core.chestErr = s.core.chestErr := by cases c <;> rfl
@[simp] theorem State.setCtx_core_chestOp {c : CtxId} {x : Ctx} : (s.setCtx c x).core.chestOp = s.core.chestOp := by cases c <;> rfl
@[simp] theorem State.setCtx_core_chestXa {c : CtxId} {x : Ctx} : (s.setCtx c x).core.chestXa = s.core.chestXa := by cases c <;> rfl
@[simp] theorem State.setCtx_core_chestCtr0 {c : CtxId} {x : Ctx} : (s.setCtx c x).core.chestCtr0 = s.core.chestCtr0 := by cases c <;> rfl
@[simp] theorem State.setCtx_core_chestCtr1 {c : CtxId} {x : Ctx} : (s.setCtx c x).core.chestCtr1 = s.core.chestCtr1 := by cases c <;> rfl
@[simp] theorem State.setCtx_core_chestXctr {c : CtxId} {x : Ctx} : (s.setCtx c x).core.chestXctr = s.core.chestXctr := by cases c <;> rfl
@[simp] theorem State.setCtx_core_kenergy0 {c : CtxId} {x : Ctx} : (s.setCtx c x).core.kenergy0 = s.core.kenergy0 := by cases c <;> rfl
@[simp] theorem State.setCtx_core_kenergy1 {c : CtxId} {x : Ctx} : (s.setCtx c x).core.kenergy1 = s.core.kenergy1 := by cases c <;> rfl
@[simp] theorem State.setCtx_core_spoilt {c : CtxId} {x : Ctx} : (s.setCtx c x).core.spoilt = s.core.spoilt := by cases c <;> rfl

@[simp] theorem State.setCx_pending {x : Ctx} : (s.setCx x).pending = s.pending := State.setCtx_pending
@[simp] theorem State.setCx_pins {x : Ctx} : (s.setCx x).pins = s.pins := State.setCtx_pins
@[simp] theorem State.setCx_up {x : Ctx} : (s.setCx x).up = s.up := State.setCtx_up
@[simp] theorem State.setCx_ctrl {x : Ctx} : (s.setCx x).ctrl = s.ctrl := State.setCtx_ctrl
@[simp] theorem State.setCx_mx {x : Ctx} : (s.setCx x).mx = s.mx := State.setCtx_mx
@[simp] theorem State.setCx_mem {x : Ctx} : (s.setCx x).mem = s.mem := State.setCtx_mem
@[simp] theorem State.setCx_ecc {x : Ctx} : (s.setCx x).ecc = s.ecc := State.setCtx_ecc
@[simp] theorem State.setCx_cache {x : Ctx} : (s.setCx x).cache = s.cache := State.setCtx_cache
@[simp] theorem State.setCx_rtr {x : Ctx} : (s.setCx x).rtr = s.rtr := State.setCtx_rtr
@[simp] theorem State.setCx_lnkN {x : Ctx} : (s.setCx x).lnkN = s.lnkN := State.setCtx_lnkN
@[simp] theorem State.setCx_lnkE {x : Ctx} : (s.setCx x).lnkE = s.lnkE := State.setCtx_lnkE
@[simp] theorem State.setCx_lnkS {x : Ctx} : (s.setCx x).lnkS = s.lnkS := State.setCtx_lnkS
@[simp] theorem State.setCx_lnkW {x : Ctx} : (s.setCx x).lnkW = s.lnkW := State.setCtx_lnkW
@[simp] theorem State.setCx_qe {x : Ctx} : (s.setCx x).qe = s.qe := State.setCtx_qe
@[simp] theorem State.setCx_spn {x : Ctx} : (s.setCx x).spn = s.spn := State.setCtx_spn
@[simp] theorem State.setCx_fltRx {x : Ctx} : (s.setCx x).fltRx = s.fltRx := State.setCtx_fltRx
@[simp] theorem State.setCx_fltRxLast {x : Ctx} : (s.setCx x).fltRxLast = s.fltRxLast := State.setCtx_fltRxLast
@[simp] theorem State.setCx_act {x : Ctx} : (s.setCx x).act = s.act := State.setCtx_act
@[simp] theorem State.setCx_fresh {x : Ctx} : (s.setCx x).fresh = s.fresh := State.setCtx_fresh
@[simp] theorem State.setCx_core_cur {x : Ctx} : (s.setCx x).core.cur = s.core.cur := State.setCtx_core_cur
@[simp] theorem State.setCx_core_run {x : Ctx} : (s.setCx x).core.run = s.core.run := State.setCtx_core_run
@[simp] theorem State.setCx_core_xpre {x : Ctx} : (s.setCx x).core.xpre = s.core.xpre := State.setCtx_core_xpre
@[simp] theorem State.setCx_core_benchBusy {x : Ctx} : (s.setCx x).core.benchBusy = s.core.benchBusy := State.setCtx_core_benchBusy
@[simp] theorem State.setCx_core_benchCtx {x : Ctx} : (s.setCx x).core.benchCtx = s.core.benchCtx := State.setCtx_core_benchCtx
@[simp] theorem State.setCx_core_benchDepth {x : Ctx} : (s.setCx x).core.benchDepth = s.core.benchDepth := State.setCtx_core_benchDepth
@[simp] theorem State.setCx_core_mxOwner {x : Ctx} : (s.setCx x).core.mxOwner = s.core.mxOwner := State.setCtx_core_mxOwner
@[simp] theorem State.setCx_core_mxDirty {x : Ctx} : (s.setCx x).core.mxDirty = s.core.mxDirty := State.setCtx_core_mxDirty
@[simp] theorem State.setCx_core_mxCfg {x : Ctx} : (s.setCx x).core.mxCfg = s.core.mxCfg := State.setCtx_core_mxCfg
@[simp] theorem State.setCx_core_chestBase0 {x : Ctx} : (s.setCx x).core.chestBase0 = s.core.chestBase0 := State.setCtx_core_chestBase0
@[simp] theorem State.setCx_core_chestBase1 {x : Ctx} : (s.setCx x).core.chestBase1 = s.core.chestBase1 := State.setCtx_core_chestBase1
@[simp] theorem State.setCx_core_chestErr {x : Ctx} : (s.setCx x).core.chestErr = s.core.chestErr := State.setCtx_core_chestErr
@[simp] theorem State.setCx_core_chestOp {x : Ctx} : (s.setCx x).core.chestOp = s.core.chestOp := State.setCtx_core_chestOp
@[simp] theorem State.setCx_core_chestXa {x : Ctx} : (s.setCx x).core.chestXa = s.core.chestXa := State.setCtx_core_chestXa
@[simp] theorem State.setCx_core_chestCtr0 {x : Ctx} : (s.setCx x).core.chestCtr0 = s.core.chestCtr0 := State.setCtx_core_chestCtr0
@[simp] theorem State.setCx_core_chestCtr1 {x : Ctx} : (s.setCx x).core.chestCtr1 = s.core.chestCtr1 := State.setCtx_core_chestCtr1
@[simp] theorem State.setCx_core_chestXctr {x : Ctx} : (s.setCx x).core.chestXctr = s.core.chestXctr := State.setCtx_core_chestXctr
@[simp] theorem State.setCx_core_kenergy0 {x : Ctx} : (s.setCx x).core.kenergy0 = s.core.kenergy0 := State.setCtx_core_kenergy0
@[simp] theorem State.setCx_core_kenergy1 {x : Ctx} : (s.setCx x).core.kenergy1 = s.core.kenergy1 := State.setCtx_core_kenergy1
@[simp] theorem State.setCx_core_spoilt {x : Ctx} : (s.setCx x).core.spoilt = s.core.spoilt := State.setCtx_core_spoilt

@[simp] theorem State.ctx_setCtx {c : CtxId} {x : Ctx} : (s.setCtx c x).ctx c = x := by cases c <;> rfl
theorem State.ctx_setCtx_other {c d : CtxId} {x : Ctx} (h : d ≠ c) : (s.setCtx c x).ctx d = s.ctx d := by
  cases c <;> cases d <;> first | rfl | exact absurd rfl h
@[simp] theorem State.ctx_setCtx_next {c : CtxId} {x : Ctx} : (s.setCtx c x).ctx c.other = s.ctx c.other := by cases c <;> rfl
@[simp] theorem State.cx_setCx {x : Ctx} : (s.setCx x).cx = x := by
  simp [State.cx, State.setCx]
@[simp] theorem State.setCtx_setCtx {c : CtxId} {x y : Ctx} : (s.setCtx c x).setCtx c y = s.setCtx c y := by cases c <;> rfl
@[simp] theorem State.setCx_setCx {x y : Ctx} : (s.setCx x).setCx y = s.setCx y := by simp [State.setCx]
@[simp] theorem State.setCtx_ctx {c : CtxId} : s.setCtx c (s.ctx c) = s := by cases c <;> rfl
@[simp] theorem State.setCx_cx : s.setCx s.cx = s := State.setCtx_ctx
@[simp] theorem CtxId.other_other {c : CtxId} : c.other.other = c := by cases c <;> rfl
theorem CtxId.other_ne {c : CtxId} : c.other ≠ c := by cases c <;> simp [CtxId.other]
@[simp] theorem State.ring_setRing_self {n : Nat} {r : Ring} : (s.setRing n r).ring n = r := tget_tput_self
theorem State.ring_setRing_other {n k : Nat} {r : Ring} (h : k ≠ n) : (s.setRing n r).ring k = s.ring k := tget_tput_other h

/-! ### Registers of control space -/

@[simp] theorem State.reg_setReg_self {off : Nat} {v : Word} : (s.setReg off v).reg off = v := tget_tput_self
theorem State.reg_setReg_other {off o : Nat} {v : Word} (h : o ≠ off) : (s.setReg off v).reg o = s.reg o := by
  unfold State.reg State.setReg
  exact tget_tput_other h
theorem State.reg_put_other {f : Fld} {v o : Nat} (h : o ≠ f.off) : (s.put f v).reg o = s.reg o := State.reg_setReg_other h
theorem State.g_put_other {f e : Fld} {v : Nat} (h : e.off ≠ f.off) : (s.put f v).g e = s.g e := by
  unfold State.g; rw [State.reg_put_other h]
theorem State.g_setReg_other {off : Nat} {v : Word} {e : Fld} (h : e.off ≠ off) : (s.setReg off v).g e = s.g e := by
  unfold State.g; rw [State.reg_setReg_other h]
@[simp] theorem State.g_setCtx {c : CtxId} {x : Ctx} {f : Fld} : (s.setCtx c x).g f = s.g f := by cases c <;> rfl
@[simp] theorem State.g_setCx {x : Ctx} {f : Fld} : (s.setCx x).g f = s.g f := State.g_setCtx
@[simp] theorem State.reg_setCtx {c : CtxId} {x : Ctx} {o : Nat} : (s.setCtx c x).reg o = s.reg o := by cases c <;> rfl
@[simp] theorem State.reg_setCx {x : Ctx} {o : Nat} : (s.setCx x).reg o = s.reg o := State.reg_setCtx

/-! ### A context -/

variable {x : Ctx}

@[simp] theorem Ctx.put_pc {l : Loc} {v : Word} : (x.put l v).pc = x.pc := by cases l <;> rfl
@[simp] theorem Ctx.put_pl {l : Loc} {v : Word} : (x.put l v).pl = x.pl := by cases l <;> rfl
@[simp] theorem Ctx.put_fast {l : Loc} {v : Word} : (x.put l v).fast = x.fast := by cases l <;> rfl
@[simp] theorem Ctx.put_cwp {l : Loc} {v : Word} : (x.put l v).cwp = x.cwp := by cases l <;> rfl
@[simp] theorem Ctx.put_spare {l : Loc} {v : Word} : (x.put l v).spare = x.spare := by cases l <;> rfl
@[simp] theorem Ctx.put_n {l : Loc} {v : Word} : (x.put l v).n = x.n := by cases l <;> rfl
@[simp] theorem Ctx.put_z {l : Loc} {v : Word} : (x.put l v).z = x.z := by cases l <;> rfl
@[simp] theorem Ctx.put_cf {l : Loc} {v : Word} : (x.put l v).cf = x.cf := by cases l <;> rfl
@[simp] theorem Ctx.put_v {l : Loc} {v : Word} : (x.put l v).v = x.v := by cases l <;> rfl
@[simp] theorem Ctx.put_p {l : Loc} {v : Word} : (x.put l v).p = x.p := by cases l <;> rfl
@[simp] theorem Ctx.put_ie {l : Loc} {v : Word} : (x.put l v).ie = x.ie := by cases l <;> rfl
@[simp] theorem Ctx.put_wvalid {l : Loc} {v : Word} : (x.put l v).wvalid = x.wvalid := by cases l <;> rfl
@[simp] theorem Ctx.put_wsp {l : Loc} {v : Word} : (x.put l v).wsp = x.wsp := by cases l <;> rfl
@[simp] theorem Ctx.put_wslimit {l : Loc} {v : Word} : (x.put l v).wslimit = x.wslimit := by cases l <;> rfl
@[simp] theorem Ctx.put_reel {l : Loc} {v : Word} : (x.put l v).reel = x.reel := by cases l <;> rfl
@[simp] theorem Ctx.put_reelTrap {l : Loc} {v : Word} : (x.put l v).reelTrap = x.reelTrap := by cases l <;> rfl
@[simp] theorem Ctx.put_reelsp {l : Loc} {v : Word} : (x.put l v).reelsp = x.reelsp := by cases l <;> rfl
@[simp] theorem Ctx.put_mpl {l : Loc} {v : Word} : (x.put l v).mpl = x.mpl := by cases l <;> rfl
@[simp] theorem Ctx.put_mph {l : Loc} {v : Word} : (x.put l v).mph = x.mph := by cases l <;> rfl
@[simp] theorem Ctx.put_prods {l : Loc} {v : Word} : (x.put l v).prods = x.prods := by cases l <;> rfl
@[simp] theorem Ctx.put_xvecS {l : Loc} {v : Word} : (x.put l v).xvecS = x.xvecS := by cases l <;> rfl
@[simp] theorem Ctx.put_xvecM {l : Loc} {v : Word} : (x.put l v).xvecM = x.xvecM := by cases l <;> rfl
@[simp] theorem Ctx.put_xcauseS {l : Loc} {v : Word} : (x.put l v).xcauseS = x.xcauseS := by cases l <;> rfl
@[simp] theorem Ctx.put_xaddrS {l : Loc} {v : Word} : (x.put l v).xaddrS = x.xaddrS := by cases l <;> rfl
@[simp] theorem Ctx.put_xspS {l : Loc} {v : Word} : (x.put l v).xspS = x.xspS := by cases l <;> rfl
@[simp] theorem Ctx.put_xsbaseS {l : Loc} {v : Word} : (x.put l v).xsbaseS = x.xsbaseS := by cases l <;> rfl
@[simp] theorem Ctx.put_xslimitS {l : Loc} {v : Word} : (x.put l v).xslimitS = x.xslimitS := by cases l <;> rfl
@[simp] theorem Ctx.put_xcauseM {l : Loc} {v : Word} : (x.put l v).xcauseM = x.xcauseM := by cases l <;> rfl
@[simp] theorem Ctx.put_xaddrM {l : Loc} {v : Word} : (x.put l v).xaddrM = x.xaddrM := by cases l <;> rfl
@[simp] theorem Ctx.put_xspM {l : Loc} {v : Word} : (x.put l v).xspM = x.xspM := by cases l <;> rfl
@[simp] theorem Ctx.put_xsbaseM {l : Loc} {v : Word} : (x.put l v).xsbaseM = x.xsbaseM := by cases l <;> rfl
@[simp] theorem Ctx.put_xslimitM {l : Loc} {v : Word} : (x.put l v).xslimitM = x.xslimitM := by cases l <;> rfl
@[simp] theorem Ctx.put_xnest {l : Loc} {v : Word} : (x.put l v).xnest = x.xnest := by cases l <;> rfl
@[simp] theorem Ctx.put_xdeleg {l : Loc} {v : Word} : (x.put l v).xdeleg = x.xdeleg := by cases l <;> rfl
@[simp] theorem Ctx.put_xien {l : Loc} {v : Word} : (x.put l v).xien = x.xien := by cases l <;> rfl
@[simp] theorem Ctx.put_xpend {l : Loc} {v : Word} : (x.put l v).xpend = x.xpend := by cases l <;> rfl
@[simp] theorem Ctx.put_zpc {l : Loc} {v : Word} : (x.put l v).zpc = x.zpc := by cases l <;> rfl
@[simp] theorem Ctx.put_zst {l : Loc} {v : Word} : (x.put l v).zst = x.zst := by cases l <;> rfl
@[simp] theorem Ctx.put_zbusy {l : Loc} {v : Word} : (x.put l v).zbusy = x.zbusy := by cases l <;> rfl
@[simp] theorem Ctx.put_xback {l : Loc} {v : Word} : (x.put l v).xback = x.xback := by cases l <;> rfl
@[simp] theorem Ctx.put_xbpl {l : Loc} {v : Word} : (x.put l v).xbpl = x.xbpl := by cases l <;> rfl
@[simp] theorem Ctx.put_xbdepth {l : Loc} {v : Word} : (x.put l v).xbdepth = x.xbdepth := by cases l <;> rfl
@[simp] theorem Ctx.put_srstate {l : Loc} {v : Word} : (x.put l v).srstate = x.srstate := by cases l <;> rfl
@[simp] theorem Ctx.put_latch {l : Loc} {v : Word} : (x.put l v).latch = x.latch := by cases l <;> rfl
@[simp] theorem Ctx.put_wait {l : Loc} {v : Word} : (x.put l v).wait = x.wait := by cases l <;> rfl
@[simp] theorem Ctx.put_afterEret {l : Loc} {v : Word} : (x.put l v).afterEret = x.afterEret := by cases l <;> rfl
@[simp] theorem Ctx.put_posted {l : Loc} {v : Word} : (x.put l v).posted = x.posted := by cases l <;> rfl
@[simp] theorem Ctx.wr_pc {r : BitVec 5} {v : Word} : (x.wr r v).pc = x.pc := Ctx.put_pc
@[simp] theorem Ctx.wr_pl {r : BitVec 5} {v : Word} : (x.wr r v).pl = x.pl := Ctx.put_pl
@[simp] theorem Ctx.wr_fast {r : BitVec 5} {v : Word} : (x.wr r v).fast = x.fast := Ctx.put_fast
@[simp] theorem Ctx.wr_cwp {r : BitVec 5} {v : Word} : (x.wr r v).cwp = x.cwp := Ctx.put_cwp
@[simp] theorem Ctx.wr_spare {r : BitVec 5} {v : Word} : (x.wr r v).spare = x.spare := Ctx.put_spare
@[simp] theorem Ctx.wr_n {r : BitVec 5} {v : Word} : (x.wr r v).n = x.n := Ctx.put_n
@[simp] theorem Ctx.wr_z {r : BitVec 5} {v : Word} : (x.wr r v).z = x.z := Ctx.put_z
@[simp] theorem Ctx.wr_cf {r : BitVec 5} {v : Word} : (x.wr r v).cf = x.cf := Ctx.put_cf
@[simp] theorem Ctx.wr_v {r : BitVec 5} {v : Word} : (x.wr r v).v = x.v := Ctx.put_v
@[simp] theorem Ctx.wr_p {r : BitVec 5} {v : Word} : (x.wr r v).p = x.p := Ctx.put_p
@[simp] theorem Ctx.wr_ie {r : BitVec 5} {v : Word} : (x.wr r v).ie = x.ie := Ctx.put_ie
@[simp] theorem Ctx.wr_wvalid {r : BitVec 5} {v : Word} : (x.wr r v).wvalid = x.wvalid := Ctx.put_wvalid
@[simp] theorem Ctx.wr_wsp {r : BitVec 5} {v : Word} : (x.wr r v).wsp = x.wsp := Ctx.put_wsp
@[simp] theorem Ctx.wr_wslimit {r : BitVec 5} {v : Word} : (x.wr r v).wslimit = x.wslimit := Ctx.put_wslimit
@[simp] theorem Ctx.wr_reel {r : BitVec 5} {v : Word} : (x.wr r v).reel = x.reel := Ctx.put_reel
@[simp] theorem Ctx.wr_reelTrap {r : BitVec 5} {v : Word} : (x.wr r v).reelTrap = x.reelTrap := Ctx.put_reelTrap
@[simp] theorem Ctx.wr_reelsp {r : BitVec 5} {v : Word} : (x.wr r v).reelsp = x.reelsp := Ctx.put_reelsp
@[simp] theorem Ctx.wr_mpl {r : BitVec 5} {v : Word} : (x.wr r v).mpl = x.mpl := Ctx.put_mpl
@[simp] theorem Ctx.wr_mph {r : BitVec 5} {v : Word} : (x.wr r v).mph = x.mph := Ctx.put_mph
@[simp] theorem Ctx.wr_prods {r : BitVec 5} {v : Word} : (x.wr r v).prods = x.prods := Ctx.put_prods
@[simp] theorem Ctx.wr_xvecS {r : BitVec 5} {v : Word} : (x.wr r v).xvecS = x.xvecS := Ctx.put_xvecS
@[simp] theorem Ctx.wr_xvecM {r : BitVec 5} {v : Word} : (x.wr r v).xvecM = x.xvecM := Ctx.put_xvecM
@[simp] theorem Ctx.wr_xcauseS {r : BitVec 5} {v : Word} : (x.wr r v).xcauseS = x.xcauseS := Ctx.put_xcauseS
@[simp] theorem Ctx.wr_xaddrS {r : BitVec 5} {v : Word} : (x.wr r v).xaddrS = x.xaddrS := Ctx.put_xaddrS
@[simp] theorem Ctx.wr_xspS {r : BitVec 5} {v : Word} : (x.wr r v).xspS = x.xspS := Ctx.put_xspS
@[simp] theorem Ctx.wr_xsbaseS {r : BitVec 5} {v : Word} : (x.wr r v).xsbaseS = x.xsbaseS := Ctx.put_xsbaseS
@[simp] theorem Ctx.wr_xslimitS {r : BitVec 5} {v : Word} : (x.wr r v).xslimitS = x.xslimitS := Ctx.put_xslimitS
@[simp] theorem Ctx.wr_xcauseM {r : BitVec 5} {v : Word} : (x.wr r v).xcauseM = x.xcauseM := Ctx.put_xcauseM
@[simp] theorem Ctx.wr_xaddrM {r : BitVec 5} {v : Word} : (x.wr r v).xaddrM = x.xaddrM := Ctx.put_xaddrM
@[simp] theorem Ctx.wr_xspM {r : BitVec 5} {v : Word} : (x.wr r v).xspM = x.xspM := Ctx.put_xspM
@[simp] theorem Ctx.wr_xsbaseM {r : BitVec 5} {v : Word} : (x.wr r v).xsbaseM = x.xsbaseM := Ctx.put_xsbaseM
@[simp] theorem Ctx.wr_xslimitM {r : BitVec 5} {v : Word} : (x.wr r v).xslimitM = x.xslimitM := Ctx.put_xslimitM
@[simp] theorem Ctx.wr_xnest {r : BitVec 5} {v : Word} : (x.wr r v).xnest = x.xnest := Ctx.put_xnest
@[simp] theorem Ctx.wr_xdeleg {r : BitVec 5} {v : Word} : (x.wr r v).xdeleg = x.xdeleg := Ctx.put_xdeleg
@[simp] theorem Ctx.wr_xien {r : BitVec 5} {v : Word} : (x.wr r v).xien = x.xien := Ctx.put_xien
@[simp] theorem Ctx.wr_xpend {r : BitVec 5} {v : Word} : (x.wr r v).xpend = x.xpend := Ctx.put_xpend
@[simp] theorem Ctx.wr_zpc {r : BitVec 5} {v : Word} : (x.wr r v).zpc = x.zpc := Ctx.put_zpc
@[simp] theorem Ctx.wr_zst {r : BitVec 5} {v : Word} : (x.wr r v).zst = x.zst := Ctx.put_zst
@[simp] theorem Ctx.wr_zbusy {r : BitVec 5} {v : Word} : (x.wr r v).zbusy = x.zbusy := Ctx.put_zbusy
@[simp] theorem Ctx.wr_xback {r : BitVec 5} {v : Word} : (x.wr r v).xback = x.xback := Ctx.put_xback
@[simp] theorem Ctx.wr_xbpl {r : BitVec 5} {v : Word} : (x.wr r v).xbpl = x.xbpl := Ctx.put_xbpl
@[simp] theorem Ctx.wr_xbdepth {r : BitVec 5} {v : Word} : (x.wr r v).xbdepth = x.xbdepth := Ctx.put_xbdepth
@[simp] theorem Ctx.wr_srstate {r : BitVec 5} {v : Word} : (x.wr r v).srstate = x.srstate := Ctx.put_srstate
@[simp] theorem Ctx.wr_latch {r : BitVec 5} {v : Word} : (x.wr r v).latch = x.latch := Ctx.put_latch
@[simp] theorem Ctx.wr_wait {r : BitVec 5} {v : Word} : (x.wr r v).wait = x.wait := Ctx.put_wait
@[simp] theorem Ctx.wr_afterEret {r : BitVec 5} {v : Word} : (x.wr r v).afterEret = x.afterEret := Ctx.put_afterEret
@[simp] theorem Ctx.wr_posted {r : BitVec 5} {v : Word} : (x.wr r v).posted = x.posted := Ctx.put_posted

@[simp] theorem Ctx.setFlags_pc {f : Flags} : (x.setFlags f).pc = x.pc := rfl
@[simp] theorem Ctx.setFlags_pl {f : Flags} : (x.setFlags f).pl = x.pl := rfl
@[simp] theorem Ctx.setFlags_fast {f : Flags} : (x.setFlags f).fast = x.fast := rfl
@[simp] theorem Ctx.setFlags_cwp {f : Flags} : (x.setFlags f).cwp = x.cwp := rfl
@[simp] theorem Ctx.setFlags_spare {f : Flags} : (x.setFlags f).spare = x.spare := rfl
@[simp] theorem Ctx.setFlags_p {f : Flags} : (x.setFlags f).p = x.p := rfl
@[simp] theorem Ctx.setFlags_ie {f : Flags} : (x.setFlags f).ie = x.ie := rfl
@[simp] theorem Ctx.setFlags_g {f : Flags} : (x.setFlags f).g = x.g := rfl
@[simp] theorem Ctx.setFlags_h {f : Flags} : (x.setFlags f).h = x.h := rfl
@[simp] theorem Ctx.setFlags_k {f : Flags} : (x.setFlags f).k = x.k := rfl
@[simp] theorem Ctx.setFlags_spareK {f : Flags} : (x.setFlags f).spareK = x.spareK := rfl
@[simp] theorem Ctx.setFlags_spareF {f : Flags} : (x.setFlags f).spareF = x.spareF := rfl
@[simp] theorem Ctx.setFlags_zb {f : Flags} : (x.setFlags f).zb = x.zb := rfl
@[simp] theorem Ctx.setFlags_wvalid {f : Flags} : (x.setFlags f).wvalid = x.wvalid := rfl
@[simp] theorem Ctx.setFlags_wsp {f : Flags} : (x.setFlags f).wsp = x.wsp := rfl
@[simp] theorem Ctx.setFlags_wslimit {f : Flags} : (x.setFlags f).wslimit = x.wslimit := rfl
@[simp] theorem Ctx.setFlags_reel {f : Flags} : (x.setFlags f).reel = x.reel := rfl
@[simp] theorem Ctx.setFlags_reelTrap {f : Flags} : (x.setFlags f).reelTrap = x.reelTrap := rfl
@[simp] theorem Ctx.setFlags_reelsp {f : Flags} : (x.setFlags f).reelsp = x.reelsp := rfl
@[simp] theorem Ctx.setFlags_mpl {f : Flags} : (x.setFlags f).mpl = x.mpl := rfl
@[simp] theorem Ctx.setFlags_mph {f : Flags} : (x.setFlags f).mph = x.mph := rfl
@[simp] theorem Ctx.setFlags_prods {f : Flags} : (x.setFlags f).prods = x.prods := rfl
@[simp] theorem Ctx.setFlags_xvecS {f : Flags} : (x.setFlags f).xvecS = x.xvecS := rfl
@[simp] theorem Ctx.setFlags_xvecM {f : Flags} : (x.setFlags f).xvecM = x.xvecM := rfl
@[simp] theorem Ctx.setFlags_xcauseS {f : Flags} : (x.setFlags f).xcauseS = x.xcauseS := rfl
@[simp] theorem Ctx.setFlags_xaddrS {f : Flags} : (x.setFlags f).xaddrS = x.xaddrS := rfl
@[simp] theorem Ctx.setFlags_xspS {f : Flags} : (x.setFlags f).xspS = x.xspS := rfl
@[simp] theorem Ctx.setFlags_xsbaseS {f : Flags} : (x.setFlags f).xsbaseS = x.xsbaseS := rfl
@[simp] theorem Ctx.setFlags_xslimitS {f : Flags} : (x.setFlags f).xslimitS = x.xslimitS := rfl
@[simp] theorem Ctx.setFlags_xcauseM {f : Flags} : (x.setFlags f).xcauseM = x.xcauseM := rfl
@[simp] theorem Ctx.setFlags_xaddrM {f : Flags} : (x.setFlags f).xaddrM = x.xaddrM := rfl
@[simp] theorem Ctx.setFlags_xspM {f : Flags} : (x.setFlags f).xspM = x.xspM := rfl
@[simp] theorem Ctx.setFlags_xsbaseM {f : Flags} : (x.setFlags f).xsbaseM = x.xsbaseM := rfl
@[simp] theorem Ctx.setFlags_xslimitM {f : Flags} : (x.setFlags f).xslimitM = x.xslimitM := rfl
@[simp] theorem Ctx.setFlags_xnest {f : Flags} : (x.setFlags f).xnest = x.xnest := rfl
@[simp] theorem Ctx.setFlags_xdeleg {f : Flags} : (x.setFlags f).xdeleg = x.xdeleg := rfl
@[simp] theorem Ctx.setFlags_xien {f : Flags} : (x.setFlags f).xien = x.xien := rfl
@[simp] theorem Ctx.setFlags_xpend {f : Flags} : (x.setFlags f).xpend = x.xpend := rfl
@[simp] theorem Ctx.setFlags_zpc {f : Flags} : (x.setFlags f).zpc = x.zpc := rfl
@[simp] theorem Ctx.setFlags_zst {f : Flags} : (x.setFlags f).zst = x.zst := rfl
@[simp] theorem Ctx.setFlags_zbusy {f : Flags} : (x.setFlags f).zbusy = x.zbusy := rfl
@[simp] theorem Ctx.setFlags_xback {f : Flags} : (x.setFlags f).xback = x.xback := rfl
@[simp] theorem Ctx.setFlags_xbpl {f : Flags} : (x.setFlags f).xbpl = x.xbpl := rfl
@[simp] theorem Ctx.setFlags_xbdepth {f : Flags} : (x.setFlags f).xbdepth = x.xbdepth := rfl
@[simp] theorem Ctx.setFlags_srstate {f : Flags} : (x.setFlags f).srstate = x.srstate := rfl
@[simp] theorem Ctx.setFlags_latch {f : Flags} : (x.setFlags f).latch = x.latch := rfl
@[simp] theorem Ctx.setFlags_wait {f : Flags} : (x.setFlags f).wait = x.wait := rfl
@[simp] theorem Ctx.setFlags_afterEret {f : Flags} : (x.setFlags f).afterEret = x.afterEret := rfl
@[simp] theorem Ctx.setFlags_posted {f : Flags} : (x.setFlags f).posted = x.posted := rfl

end Sys2Proof.Machine
end

