-- ==== Sys2Proof/Laws/Issue.lean ====
section
/-! SUPPORT. What issuing an instruction comes to, said once: the four ways it can end before its own effect, and its
retirement; and what the counters and a drain leave alone. -/

set_option Elab.async false

namespace Sys2Proof.Machine

variable {s t u : State}

/-! ### Alike -/

theorem Like.refl (s : State) : Like s s :=
  ⟨rfl, rfl, rfl, fun _ _ _ => rfl, fun _ => rfl, rfl, rfl, rfl, fun _ => rfl, rfl, rfl, rfl,
    ⟨[], (List.append_nil _).symm, fun _ => rfl, fun _ h => absurd h List.not_mem_nil⟩, ⟨rfl, rfl, rfl, rfl⟩, rfl, rfl, ⟨rfl, rfl⟩⟩

theorem Like.trans (h : Like s t) (k : Like t u) : Like s u := by
  obtain ⟨l, hl, hn, hm⟩ := h.skein
  obtain ⟨l', hl', hn', hm'⟩ := k.skein
  refine ⟨k.1.trans h.1, k.2.trans h.2, k.3.trans h.3, fun o n m => (k.4 o n m).trans (h.4 o n m),
   fun b => (k.5 (h.6.trans b)).trans (h.5 b), k.6.trans h.6, k.7.trans h.7, k.8.trans h.8,
   fun a => (k.9 a).trans (h.9 a), k.10.trans h.10, k.11.trans h.11, ?_, ⟨l ++ l', ?_, ?_, ?_⟩,
   ⟨k.14.1.trans h.14.1, k.14.2.1.trans h.14.2.1, k.14.2.2.1.trans h.14.2.2.1, k.14.2.2.2.trans h.14.2.2.2⟩,
   k.15.trans h.15, k.16.trans h.16, ⟨k.17.1.trans h.17.1, k.17.2.trans h.17.2⟩⟩
  · have e := k.rtr
    rw [← h.rtr, ← e]
  · rw [hl', hl, List.append_assoc]
  · intro b
    rw [hn b, hn' (h.6.trans b)]
    rfl
  · intro e he
    rcases List.mem_append.mp he with he | he
    · exact hm e he
    · exact hm' e he

/-- A node with another register file, alike where only OBS_ registers other than OBS_TRIG differ. -/
theorem Like.of_ctrl {c : Tab Word} (h : ∀ off, off / 0x10000 ≠ 8 → tget (regReset off) c off = s.reg off)
    (hb : tget (regReset 0x80030) c 0x80030 = s.reg 0x80030) : Like s { s with ctrl := c } :=
  { Like.refl s with
    reg := fun o ho _ => h o ho
    seq := fun _ => h _ (by decide)
    bcast := by
      show decide (bits (tget (regReset 0x80030) c 0x80030).toNat 12 1 = 1) = _
      rw [hb]
      rfl }

theorem put_like {f : Fld} {v : Nat} (h : f.off / 0x10000 = 8) (hb : f.off ≠ 0x80030) : Like s (s.put f v) :=
  Like.of_ctrl (fun off ho => tget_tput_other (by rintro rfl; exact ho h)) (tget_tput_other (Ne.symm hb))

theorem sat_like {f : Fld} {n : Nat} (h : f.off / 0x10000 = 8) (hb : f.off ≠ 0x80030) : Like s (s.sat f n) := put_like h hb

theorem tick_like : Like s s.tick := { Like.refl s with }

theorem foldl_like {f : State → Nat → State} {l : List Nat} (h : ∀ i ∈ l, ∀ s, Like s (f s i)) : ∀ s, Like s (l.foldl f s) := by
  induction l with
  | nil => intro s; exact Like.refl s
  | cons i l ih =>
    intro s
    exact (h i List.mem_cons_self s).trans (ih (fun j hj => h j (List.mem_cons_of_mem _ hj)) _)

theorem Like.ite {c : Prop} [Decidable c] {a b : State} (ha : Like s a) (hb : Like s b) : Like s (if c then a else b) := by
  split
  · exact ha
  · exact hb

theorem forN_like {n : Nat} {f : Nat → State → State} (h : ∀ i, i < n → ∀ s, Like s (f i s)) : Like s (forN n f s) := by
  delta forN
  exact foldl_like (f := fun s i => f i s) (fun i hi => h i (List.mem_range.mp hi)) s

theorem perf1_like {code n : Nat} {c : Option CtxId} {j : Nat} (hj : j < 16) : Like s (State.perf1 code n c j s) := by
  have h1 : (F.pcVal j).off / 0x10000 = 8 := by simp only [F.pcVal]; omega
  have h2 : (F.pcOvf j).off / 0x10000 = 8 := by simp only [F.pcOvf]; omega
  have h3 : (F.pcVal j).off ≠ 0x80030 := by simp only [F.pcVal]; omega
  have h4 : (F.pcOvf j).off ≠ 0x80030 := by simp only [F.pcOvf]; omega
  delta State.perf1
  exact Like.ite (Like.ite ((put_like h1 h3).trans (put_like h2 h4)) (put_like h1 h3)) (Like.refl s)

theorem tally_like {k n : Nat} : Like s (s.tally k n) := by
  unfold State.tally
  exact Like.ite (Like.refl s) { Like.refl s with }

/-- Counting an event changes no register but the counters. -/
theorem perf_like {code n : Nat} {c : Option CtxId} : Like s (s.perf code n c) := by
  delta State.perf
  exact (forN_like fun _ hi _ => perf1_like hi).trans tally_like

/-! ### Triggers and samples (R478, R479, R482, R485) -/

theorem capture_like {t : Trigger} : Like s (s.capture t) := by
  delta State.capture
  dsimp only
  refine Like.trans ?_ tick_like
  refine Like.trans ?_ (put_like rfl (by decide))
  refine Like.trans ?_ (put_like rfl (by decide))
  refine Like.trans ?_ (put_like rfl (by decide))
  refine Like.trans ?_ (put_like rfl (by decide))
  refine Like.trans (forN_like fun w hw _ => put_like ?_ ?_) (forN_like fun i hi _ => Like.ite (put_like ?_ ?_) (Like.refl _))
  · simp only [F.snap]; split <;> omega
  · simp only [F.snap]; split <;> omega
  · simp only [F.monEn, F.mo]; omega
  · simp only [F.monEn, F.mo]; omega

theorem trigger_like {t : Trigger} : Like s (s.trigger t) := by
  delta State.trigger
  exact Like.ite (sat_like rfl (by decide))
    (Like.ite ((sat_like rfl (by decide)).trans (put_like rfl (by decide))) capture_like)

/-- A SKEIN joins the packets on L and takes the next number of RTR_SEQ. -/
theorem injectSkein_eq {id die aux : Nat} : ∃ n p, p.ty = 0x0E ∧
    s.injectSkein id die aux = { s.put F.rtrSeq n with rtr := { s.rtr with inq := s.rtr.inq ++ [(Port.l, p, 0)] } } := by
  delta State.injectSkein State.inject
  dsimp only
  rw [if_neg (by simp [Packet.mk', isResponse])]
  exact ⟨_, _, rfl, rfl⟩

theorem seq_like {n : Nat} (h : s.is F.trigBcast = true) : Like s (s.put F.rtrSeq n) :=
  { Like.refl s with
    reg := fun _ _ hs => State.reg_put_other hs
    seq := fun b => absurd (h.symm.trans b) (by decide)
    bcast := congrArg (fun n => decide (n = 1)) (State.g_put_other (f := F.rtrSeq) (e := F.trigBcast) (by decide)) }

theorem inq_like {p : Packet} (h : s.is F.trigBcast = true) (hp : p.ty = 0x0E) :
    Like s { s with rtr := { s.rtr with inq := s.rtr.inq ++ [(Port.l, p, 0)] } } :=
  ⟨rfl, rfl, rfl, fun _ _ _ => rfl, fun _ => rfl, rfl, rfl, rfl, fun _ => rfl, rfl, rfl, rfl,
    ⟨[(Port.l, p, 0)], rfl, fun b => absurd (h.symm.trans b) (by decide), fun e he => by
      rw [List.mem_singleton] at he
      subst he
      exact ⟨rfl, hp⟩⟩, ⟨rfl, rfl, rfl, rfl⟩, rfl, rfl, ⟨rfl, rfl⟩⟩

/-- A SKEIN of a node that broadcasts its triggers. -/
theorem injectSkein_like {id die aux : Nat} (h : s.is F.trigBcast = true) : Like s (s.injectSkein id die aux) := by
  obtain ⟨n, p, hp, e⟩ := injectSkein_eq (s := s) (id := id) (die := die) (aux := aux)
  rw [e]
  have h1 := seq_like (n := n) h
  exact h1.trans (inq_like (s := s.put F.rtrSeq n) (h1.bcast.trans h) hp)

theorem autoTrigger_like {kind : Nat} : Like s (s.autoTrigger kind) := by
  delta State.autoTrigger
  dsimp only
  have h : Like s ((s.put F.locSeq ((s.g F.locSeq + 1) % 256)).trigger (s.localTrigger kind (s.g F.locBase * 256 + s.g F.locSeq))) :=
    (put_like rfl (by decide)).trans trigger_like
  split
  · rename_i hb
    exact h.trans (injectSkein_like hb)
  · exact h

theorem mon_like {f : Fld} {v : Nat} (h1 : 0x80400 ≤ f.off) (h2 : f.off < 0x90000) : Like s (s.put f v) :=
  put_like (by omega) (by omega)

theorem monBinOf_lt {mode wsh : Nat} {u : Int} : monBinOf mode wsh u < 32 := by
  unfold monBinOf
  dsimp only
  repeat' split
  all_goals omega

/-- A sample changes the figures of its monitor. -/
theorem applySample_like {i : Nat} {v : Int} (hi : i < 8) : Like s (s.applySample i v) := by
  have hb := monBinOf_lt (mode := s.g (F.monMode i)) (wsh := s.g (F.monWsh i)) (u := v - signed 64 (s.g (F.monBase i)))
  delta State.applySample
  dsimp only
  generalize monBinOf (s.g (F.monMode i)) (s.g (F.monWsh i)) (v - signed 64 (s.g (F.monBase i))) = k at hb ⊢
  delta State.sat
  generalize (min (_ : Nat) _) = a
  have h1 : Like s (s.put (F.monBin i k) a) := mon_like (by simp only [F.monBin, F.mo]; omega) (by simp only [F.monBin, F.mo]; omega)
  generalize s.put (F.monBin i k) a = s1 at h1 ⊢
  generalize (min (_ : Nat) _) = a
  have h2 : Like s (s1.put (F.monCount i) a) := h1.trans (mon_like (by simp only [F.monCount, F.mo]; omega) (by simp only [F.monCount, F.mo]; omega))
  generalize s1.put (F.monCount i) a = s2 at h2 ⊢
  generalize unsigned 64 (_ + v) = a
  have h3 : Like s (s2.put (F.monSum i) a) := h2.trans (mon_like (by simp only [F.monSum, F.mo]; omega) (by simp only [F.monSum, F.mo]; omega))
  generalize s2.put (F.monSum i) a = s3 at h3 ⊢
  generalize unsigned 64 (min _ _) = a
  have h4 : Like s (s3.put (F.monMin i) a) := h3.trans (mon_like (by simp only [F.monMin, F.mo]; omega) (by simp only [F.monMin, F.mo]; omega))
  generalize s3.put (F.monMin i) a = s4 at h4 ⊢
  generalize unsigned 64 (max _ _) = a
  have h5 : Like s (s4.put (F.monMax i) a) := h4.trans (mon_like (by simp only [F.monMax, F.mo]; omega) (by simp only [F.monMax, F.mo]; omega))
  generalize s4.put (F.monMax i) a = s5 at h5 ⊢
  exact Like.ite (h5.trans (put_like rfl (by decide))) h5

theorem foldl_samples_like {l : List Sample} {f : State → Sample → State} (h : ∀ e s, Like s (f s e)) : ∀ s, Like s (l.foldl f s) := by
  induction l with
  | nil => exact Like.refl
  | cons e l ih => exact fun s => (h e s).trans (ih _)

/-- Samples change the figures of their monitors, and may make triggers. -/
theorem samples_like {l : List Sample} : Like s (s.samples l) := by
  delta State.samples
  exact (forN_like fun i hi _ => foldl_samples_like (fun e _ => Like.ite (applySample_like hi) (Like.refl _)) _).trans
    (forN_like fun i hi _ => Like.ite autoTrigger_like (Like.refl _))

theorem sample_like {src : Nat} {f : Nat → Bool} {v : Int} : Like s (s.sample src f v) := samples_like

theorem sampleTime_like {src : Nat} {f : Nat → Bool} : Like s (s.sampleTime src f) := by
  delta State.sampleTime
  exact Like.ite (sample_like.trans tick_like) (Like.refl s)

/-- A transfer granted by local memory is counted and sampled, and changes nothing else. -/
theorem lmGrant_like {req n : Nat} : Like s (s.lmGrant req n) := by
  delta State.lmGrant
  exact perf_like.trans ((Like.ite tally_like (Like.refl _)).trans (forN_like fun _ _ _ => sampleTime_like))

/-! ### Retirement -/

theorem retired_retire {pc : Word} : Retired s (s.retire pc) pc := by
  unfold Retired State.retire State.retireOf
  exact perf_like

/-! ### Issue -/

/-- Where the core does not come to an instruction, or comes to it with every array whole, nothing happens. -/
theorem notIssued_whole (h : s.core.spoilt = none) : s.notIssued = s := by
  unfold State.notIssued
  rw [h]
  split <;> rfl

/-- An instruction that runs does what its meaning says of the node as it finds it. -/
theorem issue_runs {e : Enc} {f : State → Done} (h : Runs s e) :
    s.issue e f = s.conclude e (s.begun e.len).cx.pc (f (s.begun e.len)) := by
  obtain ⟨⟨h1, h2⟩, h3, h4, h5, h6, h7⟩ := h
  have hw : (!s.canIssue || (e.mx && s.core.chestOp.isSome)) = false := by
    cases hm : e.mx
    · simp [h1]
    · simp [h1, h2 hm]
  have h6' : ¬ (s.begun e.len).cx.pl.toNat < e.level := by omega
  unfold State.issue
  rw [hw]
  simp only [Bool.false_eq_true, if_false]
  simp only [h3, h4, h5, h6', h7, Bool.not_true, Bool.false_eq_true, if_false]

/-! What looking up parcels can change: the lines, their turns and the victim cache, counters, and what a purged line adds (R203, R458). -/

/-- `t` is `s` but for the caches, the registers that count, and the activity counters. -/
def Looked (s t : State) : Prop := ∃ k c u a, t = { s with cache := k, ctrl := c, up := { s.up with aonAdd := u }, act := a }

theorem Looked.refl (s : State) : Looked s s := ⟨_, _, _, _, rfl⟩

theorem Looked.trans (h : Looked s t) (k : Looked t u) : Looked s u := by
  obtain ⟨_, _, _, _, rfl⟩ := h
  obtain ⟨_, _, _, _, rfl⟩ := k
  exact ⟨_, _, _, _, rfl⟩

theorem Looked.ite {c : Prop} [Decidable c] {a b : State} (ha : Looked s a) (hb : Looked s b) : Looked s (if c then a else b) := by
  split
  · exact ha
  · exact hb

theorem put_looked {f : Fld} {v : Nat} : Looked s (s.put f v) := ⟨s.cache, (s.put f v).ctrl, s.up.aonAdd, s.act, rfl⟩

theorem forN_looked {n : Nat} {f : Nat → State → State} (h : ∀ i s, Looked s (f i s)) : Looked s (forN n f s) := by
  delta forN
  induction List.range n generalizing s with
  | nil => exact Looked.refl s
  | cons i l ih => exact (h i s).trans ih

theorem perf1_looked {code n j : Nat} {c : Option CtxId} : Looked s (State.perf1 code n c j s) := by
  delta State.perf1
  exact Looked.ite (Looked.ite (put_looked.trans put_looked) put_looked) (Looked.refl s)

theorem tally_looked {k n : Nat} : Looked s (s.tally k n) := by
  delta State.tally
  exact Looked.ite (Looked.refl s) ⟨s.cache, s.ctrl, s.up.aonAdd, tput 0 s.act k (tget 0 s.act k + n), rfl⟩

theorem perf_looked {code n : Nat} {c : Option CtxId} : Looked s (s.perf code n c) := by
  delta State.perf
  exact (forN_looked fun _ _ => perf1_looked).trans tally_looked

theorem hwAdd_looked {f : Fld} {n : Nat} : Looked s (s.hwAdd f n) :=
  ⟨s.cache, (s.hwAdd f n).ctrl, (s.hwAdd f n).up.aonAdd, s.act, rfl⟩

theorem cache_looked {k : Caches} : Looked s { s with cache := k } := ⟨k, s.ctrl, s.up.aonAdd, s.act, rfl⟩

theorem l1Purge_looked {a : Word} : Looked s (s.l1Purge a) := by
  delta State.l1Purge
  exact Looked.ite (Looked.refl s) (cache_looked.trans hwAdd_looked)

theorem recall_looked {a : Word} {v : Victim} : Looked s (s.recall a v) := by
  delta State.recall State.l1dAllocate State.displace State.l1dPut State.l1dTouch
  dsimp only
  split
  · exact cache_looked
  · exact cache_looked

theorem cacheLoad_looked {c : CtxId} {a : Word} {n code : Nat} : Looked s (s.cacheLoad c a n code).2 := by
  delta State.cacheLoad
  dsimp only
  have h := l1Purge_looked (s := s) (a := a)
  generalize s.l1Purge a = t at h ⊢
  have h1 : Looked s (t.perf code 1 (some c)) := h.trans perf_looked
  split
  · split
    · exact h.trans cache_looked
    · exact h1
  · generalize t.perf code 1 (some c) = u at h1 ⊢
    split
    · have h2 : Looked s (u.perf 0x32 1 (some c)) := h1.trans perf_looked
      generalize u.perf 0x32 1 (some c) = v at h2 ⊢
      split
      · exact h2.trans recall_looked
      · exact h2
    · exact h1

theorem parcelLook_looked {a : Word} : Looked s (s.parcelLook a).2 := by
  delta State.parcelLook State.codeLoad State.swapL1
  dsimp only
  split
  · exact cache_looked.trans (cacheLoad_looked.trans cache_looked)
  · exact Looked.refl s

/-- Looking an instruction's parcels up. -/
theorem parcelsLooked_looked {n : Nat} : Looked s (s.parcelsLooked n) := by
  delta State.parcelsLooked
  exact Looked.ite (Looked.refl s) (Looked.ite parcelLook_looked (parcelLook_looked.trans parcelLook_looked))

/-- Instructions of either length find the same context. -/
theorem begun_core {n : Nat} : (s.begun n).core = s.drainForce.core := by
  obtain ⟨_, _, _, _, h⟩ := parcelsLooked_looked (s := { s.drainForce with up := { s.drainForce.up with ran := true } }) (n := n)
  unfold State.begun
  rw [h]

theorem begun_cx {n : Nat} : (s.begun n).cx = s.begun.cx := by
  unfold State.cx State.ctx
  rw [begun_core, begun_core]

/-- Where the code is the node's own, looking it up leaves everything as it is. -/
theorem parcelsLooked_own {n : Nat} (h : cacheable (s.place s.cx.pc) = false) (h4 : cacheable (s.place (s.cx.pc + 4)) = false) :
    s.parcelsLooked n = s := by
  have hl : ∀ a, cacheable (s.place a) = false → s.parcelLook a = (true, s) := by
    intro a ha
    delta State.parcelLook
    exact if_neg (by rw [ha]; decide)
  delta State.parcelsLooked
  simp only [hl _ h, hl _ h4, Bool.not_true, Bool.false_or, ite_self]

theorem conclude_next {e : Enc} {pc : Word} : s.conclude e pc (.next t) = t.retire (pc + BitVec.ofNat 64 e.len) := rfl
theorem conclude_to {e : Enc} {pc a : Word} : s.conclude e pc (.to t a) = t.retire a := rfl

/-- An instruction that completes with `u` retires there. -/
theorem completes_next {i : Instr} {e : Enc} {f : State → Done} {u : State} (he : exec i s = .next (s.issue e f)) (h : Runs s e)
    (hf : f (s.begun e.len) = .next u) : Completes i s u e.len :=
  ⟨u.retire ((s.begun e.len).cx.pc + BitVec.ofNat 64 e.len), by rw [he, issue_runs h, hf]; rfl, by
    rw [begun_cx (n := e.len)]; exact retired_retire⟩

theorem answers_next {i : Instr} {e : Enc} {f : State → Done} {y : Ctx} (he : exec i s = .next (s.issue e f)) (h : Runs s e)
    (hn : e.len = 4) (hf : f s.begun = .next (s.begun.setCx y)) : Answers i s y (s.begun.cx.pc + BitVec.ofNat 64 e.len) :=
  ⟨(s.begun.setCx y).retire (s.begun.cx.pc + BitVec.ofNat 64 e.len), by
    rw [he, issue_runs h, begun_cx, hn, hf]; exact congrArg _ (by rw [conclude_next, hn]), retired_retire⟩

theorem answers_to {i : Instr} {e : Enc} {f : State → Done} {y : Ctx} {a : Word} (he : exec i s = .next (s.issue e f)) (h : Runs s e)
    (hn : e.len = 4) (hf : f s.begun = .to (s.begun.setCx y) a) : Answers i s y a :=
  ⟨(s.begun.setCx y).retire a, by rw [he, issue_runs h, hn, hf]; rfl, retired_retire⟩

theorem raises_exc {i : Instr} {e : Enc} {f : State → Done} {c : Nat} {a : Word} (he : exec i s = .next (s.issue e f)) (h : Runs s e)
    (hf : f (s.begun e.len) = .exc (s.begun e.len) c a) : Raises i s e c a := by
  unfold Raises
  rw [he, issue_runs h, hf, begun_cx (n := e.len)]
  rfl

/-! ### Every instruction is an issue -/

theorem vec2_issue {s : State} {op : Nat} {ty : Nat → Bool} {a : FrameV} {g : Nat → Nat → Nat → Nat} :
    s.vec2 op ty a g = s.issue (encV 0x60 op (ty a.t.toNat) a) fun s =>
      s.owned [vecGroup a.vd, vecGroup a.va, vecGroup a.vb] fun s =>
        (s.setVec a.vd (packLanes (laneBits a.t.toNat)
          (List.zipWith (g a.t.toNat) (lanes a.t.toNat (s.vec a.va)) (lanes a.t.toNat (s.vec a.vb))))).vecDone := rfl
theorem vec3_issue {s : State} {op : Nat} {a : FrameV} {g : Nat → Nat → Nat → Nat → Nat} :
    s.vec3 op a g = s.issue (encV 0x61 op true a) fun s =>
      s.owned [vecGroup a.vd, vecGroup a.va, vecGroup a.vb] fun s =>
        (s.setVec a.vd (packLanes (laneBits a.t.toNat) ((List.range (laneCount a.t.toNat)).map fun e =>
          g a.t.toNat (lane a.t.toNat (s.vec a.va) e) (lane a.t.toNat (s.vec a.vb) e) (lane a.t.toNat (s.vec a.vd) e)))).vecDone := rfl
theorem vec1_issue {s : State} {op : Nat} {ty : Nat → Bool} {a : FrameV} {g : Nat → List Nat → List Nat} :
    s.vec1 op ty a g = s.issue (encV 0x62 op (ty a.t.toNat && a.vb = 0) a) fun s =>
      s.owned [vecGroup a.vd, vecGroup a.va] fun s =>
        (s.setVec a.vd (packLanes (laneBits a.t.toNat) (g a.t.toNat (lanes a.t.toNat (s.vec a.va))))).vecDone := rfl
/-- Every instruction command is one issue of its encoding. -/
theorem exec_issue {i : Instr} {e : Enc} (h : i.enc = some e) : ∃ f, ∀ s, exec i s = .next (s.issue e f) := by
  cases i
  case vadd a | vsub a | vmul a | vmin a | vmax a | vand a | vor a | vxor a | vshl a | vshr a | vsar a | vcmpeq a | vcmplt a | vcmple a | vadds a =>
    cases h; exact ⟨_, fun s => congrArg Host.Outcome.next (vec2_issue (s := s))⟩
  case vfma a | vfnma a =>
    cases h; exact ⟨_, fun s => congrArg Host.Outcome.next (vec3_issue (s := s))⟩
  case vmov a | vneg a | vabs a | vexp2 a | vrcp a | vredsum a | vredmax a | vredmin a =>
    cases h; exact ⟨_, fun s => congrArg Host.Outcome.next (vec1_issue (s := s))⟩
  case nop w =>
    cases w with
    | nop a => cases h; exact ⟨_, fun _ => rfl⟩
    | other p =>
      cases hw : wordNamed p.toNat with
      | true => simp [Instr.enc, hw] at h
      | false =>
        simp only [Instr.enc, hw, Bool.false_eq_true, if_false, Option.some.injEq] at h
        subst h
        exact ⟨_, fun s => by simp only [exec, execNop, hw, Bool.false_eq_true, if_false, State.unnamed]; rfl⟩
  all_goals first
    | (cases h; done)
    | (cases h; exact ⟨_, fun _ => rfl⟩)

/-! ### The router at rest -/

theorem choose_none {out : Port} : s.choose out [] = none := by
  simp only [State.choose, List.filter_nil, List.foldl_nil]
  repeat' split
  all_goals rfl

theorem linkEntry_none {p : Port} (h : (s.lnk p).inbound = []) : s.linkEntry p = none := by
  unfold State.linkEntry
  dsimp only
  rw [h]
  rfl

theorem escNext_none (h1 : s.rtr.inq = []) (h2 : s.rtr.held = []) (h4 : s.rtr.plyWait = []) : s.escNext = none := by
  unfold State.escNext
  rw [h1, h2, h4]
  rfl

theorem stranded_none (h : s.rtr.held = []) : s.stranded = none := by
  unfold State.stranded
  rw [h]
  rfl

theorem readyL_none (h : s.rtr.held = []) : s.readyL = none := by
  unfold State.readyL
  rw [h]
  exact choose_none

/-- A router at rest only has the pending causes looked at. -/
theorem settle_still (h : s.still) : s.settle = s.refresh := by
  obtain ⟨h0, h1, h2, h3, h4, h5⟩ := h
  have hl : s.linksEnter = none := by
    simp [State.linksEnter, linkEntry_none (h0 _)]
  have hr : s.routeStep = none := by
    unfold State.routeStep State.plyReady
    rw [escNext_none h1 h2 h4, stranded_none h2, readyL_none h2, h1, h3, h4, h5]
    rfl
  have h0 : s.settleStep = none := by
    unfold State.settleStep
    rw [hl, hr]
    dsimp only
    split <;> rfl
  have hn : ∀ n, State.settleN n s = s := by
    intro n
    cases n with
    | zero => rfl
    | succ n =>
      unfold State.settleN
      rw [h0]
  unfold State.settle
  rw [hn]

end Sys2Proof.Machine
end

