-- ==== Sys2Proof/Laws/Kept.lean ====
section
/-! SUPPORT. What every step keeps: the waiting commands it was given, the canonical form of the sparse arrays, and the
capacity of each FIFO of the ingress (R384, R411, R413). This file states it and gives the rules by which it passes through
a definition. -/

set_option Elab.async false

namespace Sys2Proof.Machine

/-- `q` waits, every sparse array is in its one canonical form, and no FIFO holds more than it can. -/
structure Kept (q : List Instr) (s : State) : Prop where
  pending : s.pending = q
  mem : Mem.wf s.mem
  ctrl : twf regReset s.ctrl = true
  ecc : twf (fun _ => EccMark.good) s.ecc = true
  db : s.qe.db.length ≤ 32
  imq : s.qe.imq.length ≤ 128
  cq0 : s.qe.cq0.length ≤ 32
  cq1 : s.qe.cq1.length ≤ 32

/-- A state made from a kept one with its queue engine, memory, ECC marks and register file left alone is kept. -/
theorem Kept.other {q : List Instr} {s : State} {a : Pins} {b : StartUp} {c : Core} {d : Mx} {e : Caches} {f : Router}
    {g h i j : LinkPort} {k : Spn} {l : List (List Byte)} {m : List Byte} {o : Tab Nat} {n : Nat} (hs : Kept q s) :
    Kept q (State.mk s.pending a b s.ctrl c d s.mem s.ecc e f g h i j s.qe k l m o n) :=
  ⟨hs.pending, hs.mem, hs.ctrl, hs.ecc, hs.db, hs.imq, hs.cq0, hs.cq1⟩

/-- The same where the queue engine changes but its FIFOs do not. -/
theorem Kept.queue {q : List Instr} {s : State} {a : Pins} {b : StartUp} {c : Core} {d : Mx} {e : Caches} {f : Router}
    {g h i j : LinkPort} {k : Spn} {l : List (List Byte)} {m : List Byte} {o : Tab Nat} {n : Nat} {il0 il1 : List Byte} {cl0 cl1 : Word}
    {ti : Tab Nat} {ri : Tab Ring} {re : BitVec 8} {ta : BitVec 16} {ou : List (BitVec 16 × Owner)}
    {ba : List (Nat × Nat)} (hs : Kept q s) :
    Kept q (State.mk s.pending a b s.ctrl c d s.mem s.ecc e f g h i j
      (Queue.mk s.qe.db s.qe.imq il0 il1 s.qe.cq0 s.qe.cq1 cl0 cl1 ti ri re ta ou ba) k l m o n) :=
  ⟨hs.pending, hs.mem, hs.ctrl, hs.ecc, hs.db, hs.imq, hs.cq0, hs.cq1⟩

/-- The same where the FIFOs change and stay within their capacity. -/
theorem Kept.fifos {q : List Instr} {s : State} {a : Pins} {b : StartUp} {c : Core} {d : Mx} {e : Caches} {f : Router}
    {g h i j : LinkPort} {k : Spn} {l : List (List Byte)} {m : List Byte} {o : Tab Nat} {n : Nat} {x : Queue} (hs : Kept q s)
    (h1 : x.db.length ≤ 32) (h2 : x.imq.length ≤ 128) (h3 : x.cq0.length ≤ 32) (h4 : x.cq1.length ≤ 32) :
    Kept q (State.mk s.pending a b s.ctrl c d s.mem s.ecc e f g h i j x k l m o n) :=
  ⟨hs.pending, hs.mem, hs.ctrl, hs.ecc, h1, h2, h3, h4⟩

/-- The same where memory and the ECC marks change and stay in their form. -/
theorem Kept.store {q : List Instr} {s : State} {a : Pins} {b : StartUp} {c : Core} {d : Mx} {e : Caches} {f : Router}
    {g h i j : LinkPort} {k : Spn} {l : List (List Byte)} {m : List Byte} {o : Tab Nat} {n : Nat} {y : Mem} {z : Tab EccMark}
    (hs : Kept q s) (h1 : Mem.wf y) (h2 : twf (fun _ => EccMark.good) z = true) :
    Kept q (State.mk s.pending a b s.ctrl c d y z e f g h i j s.qe k l m o n) :=
  ⟨hs.pending, h1, hs.ctrl, h2, hs.db, hs.imq, hs.cq0, hs.cq1⟩

/-- The state inside the answer of an instruction's body is kept. -/
def DKept (q : List Instr) : Done → Prop
  | .next s => Kept q s
  | .to s _ => Kept q s
  | .gone s => Kept q s
  | .exc s _ _ => Kept q s
  | .excM s _ _ => Kept q s
  | .call s _ _ => Kept q s
  | .wait s => Kept q s

/-- A state answered as an option is kept. -/
inductive OptKept (q : List Instr) : Option State → Prop
  | some {s : State} (h : Kept q s) : OptKept q (Option.some s)
  | none : OptKept q Option.none

/-- The next state of an outcome is kept. -/
def OutKept (q : List Instr) : Host.Outcome State Fault Refusal → Prop
  | .next s => Kept q s
  | _ => True

/-- The state answered beside a value is kept. -/
def Kept2 {α : Type} (q : List Instr) (p : α × State) : Prop := Kept q p.2
/-- The state answered before a value is kept. -/
def Kept1 {α : Type} (q : List Instr) (p : State × α) : Prop := Kept q p.1
/-- The state answered beside two values is kept. -/
def Kept3 {α β : Type} (q : List Instr) (p : α × β × State) : Prop := Kept q p.2.2

variable {q : List Instr} {s t : State}

theorem Kept2.mk {α : Type} {a : α} (h : Kept q s) : Kept2 q (a, s) := h
theorem Kept1.mk {α : Type} {a : α} (h : Kept q s) : Kept1 q (s, a) := h
theorem Kept3.mk {α β : Type} {a : α} {b : β} (h : Kept q s) : Kept3 q (a, b, s) := h
theorem Kept2.snd {α : Type} {p : α × State} (h : Kept2 q p) : Kept q p.2 := h
theorem Kept1.snd {α : Type} {p : State × α} (h : Kept1 q p) : Kept q p.1 := h
theorem Kept3.snd {α β : Type} {p : α × β × State} (h : Kept3 q p) : Kept q p.2.2 := h
theorem Kept2.eq {α : Type} {p : α × State} {a : α} (h : Kept2 q p) (e : p = (a, t)) : Kept q t := by
  subst e; exact h
theorem Kept1.eq {α : Type} {p : State × α} {a : α} (h : Kept1 q p) (e : p = (t, a)) : Kept q t := by
  subst e; exact h
theorem Kept3.eq {α β : Type} {p : α × β × State} {a : α} {b : β} (h : Kept3 q p) (e : p = (a, b, t)) : Kept q t := by
  subst e; exact h
theorem OptKept.eq {o : Option State} (h : OptKept q o) (e : o = Option.some t) : Kept q t := by
  subst e
  cases h
  assumption
theorem OutKept.next (h : Kept q s) : OutKept q (.next s) := h
theorem OutKept.fault {r : Fault} : OutKept q (.fault r) := trivial
theorem DKept.next (h : Kept q s) : DKept q (.next s) := h
theorem DKept.to {a : Word} (h : Kept q s) : DKept q (.to s a) := h
theorem DKept.gone (h : Kept q s) : DKept q (.gone s) := h
theorem DKept.exc {c : Nat} {a : Word} (h : Kept q s) : DKept q (.exc s c a) := h
theorem DKept.excM {c : Nat} {a : Word} (h : Kept q s) : DKept q (.excM s c a) := h
theorem DKept.call {c : Nat} {a : Word} (h : Kept q s) : DKept q (.call s c a) := h
theorem DKept.wait (h : Kept q s) : DKept q (.wait s) := h

theorem kept_let {v : State} {P : State → Prop} (hv : Kept q v) (h : ∀ x, Kept q x → P x) : let x := v; P x := h v hv
theorem kept_let2 {α : Type} {v : α × State} {P : α × State → Prop} (hv : Kept2 q v) (h : ∀ x, Kept q x.2 → P x) :
    let x := v; P x := h v hv
theorem kept_let1 {α : Type} {v : State × α} {P : State × α → Prop} (hv : Kept1 q v) (h : ∀ x, Kept q x.1 → P x) :
    let x := v; P x := h v hv
theorem kept_letD {v : Done} {P : Done → Prop} (hv : DKept q v) (h : ∀ x, DKept q x → P x) : let x := v; P x := h v hv
theorem kept_skip {α : Type} {v : α} {P : α → Prop} (h : ∀ x, P x) : let x := v; P x := h v

theorem kept_ite {c : Prop} [Decidable c] {a b : State} (ha : Kept q a) (hb : Kept q b) : Kept q (if c then a else b) := by
  split
  · exact ha
  · exact hb
theorem dkept_ite {c : Prop} [Decidable c] {a b : Done} (ha : DKept q a) (hb : DKept q b) : DKept q (if c then a else b) := by
  split
  · exact ha
  · exact hb
theorem optkept_ite {c : Prop} [Decidable c] {a b : Option State} (ha : OptKept q a) (hb : OptKept q b) :
    OptKept q (if c then a else b) := by
  split
  · exact ha
  · exact hb
theorem kept2_ite {α : Type} {c : Prop} [Decidable c] {a b : α × State} (ha : Kept2 q a) (hb : Kept2 q b) :
    Kept2 q (if c then a else b) := by
  split
  · exact ha
  · exact hb

theorem kept_foldl {α : Type} {l : List α} {f : State → α → State} (h : Kept q s)
    (hf : ∀ x a, Kept q x → Kept q (f x a)) : Kept q (l.foldl f s) := by
  induction l generalizing s with
  | nil => exact h
  | cons a r ih => exact ih (hf _ _ h)

theorem forN_kept {n : Nat} {f : Nat → State → State} (h : Kept q s) (hf : ∀ i x, Kept q x → Kept q (f i x)) :
    Kept q (forN n f s) := kept_foldl h fun x a hx => hf a x hx

end Sys2Proof.Machine
end

