-- ==== Sys2Proof/Laws/KeptNode.lean ====
section
/-! SUPPORT. The register file, the packets, the observability block, fault recording and exceptions keep `Kept`. One lemma per definition. -/

set_option Elab.async false

namespace Sys2Proof.Machine

/-! ### RegMap -/

theorem State.setReg_kept {q : List Instr} {s : State} {off : Nat} {v : Word} (hs : Kept q s) :
    Kept q (State.setReg s off v) := by
  delta State.setReg
  exact ⟨hs.pending, hs.mem, twf_tput hs.ctrl, hs.ecc, hs.db, hs.imq, hs.cq0, hs.cq1⟩

theorem State.put_kept {q : List Instr} {s : State} {f : Fld} {v : Nat} (hs : Kept q s) :
    Kept q (State.put s f v) := by
  delta State.put
  repeat' first
    | with_reducible assumption
    | with_reducible apply State.setReg_kept

theorem State.sat_kept {q : List Instr} {s : State} {f : Fld} {n : Nat} (hs : Kept q s) :
    Kept q (State.sat s f n) := by
  delta State.sat
  repeat' first
    | with_reducible assumption
    | with_reducible apply State.put_kept

theorem State.hwSet_kept {q : List Instr} {s : State} {f : Fld} (hs : Kept q s) :
    Kept q (State.hwSet s f) := by
  delta State.hwSet
  lift_lets -underBinder
  repeat' first
    | with_reducible assumption
    | (extract_lets +onlyGivenNames -underBinder x; refine (fun hx : Kept q x => ?_) ?_; clear_value x; rotate_left; subst x)
    | (extract_lets +onlyGivenNames -underBinder x; clear_value x)
    | with_reducible apply State.put_kept
    | with_reducible (refine Kept.other ?_; assumption)

theorem State.hwAdd_kept {q : List Instr} {s : State} {f : Fld} {n : Nat} (hs : Kept q s) :
    Kept q (State.hwAdd s f n) := by
  delta State.hwAdd
  lift_lets -underBinder
  repeat' first
    | with_reducible assumption
    | (extract_lets +onlyGivenNames -underBinder x; refine (fun hx : Kept q x => ?_) ?_; clear_value x; rotate_left; subst x)
    | (extract_lets +onlyGivenNames -underBinder x; clear_value x)
    | with_reducible apply State.sat_kept
    | with_reducible (refine Kept.other ?_; assumption)

/-! ### Ops -/

theorem State.setCtx_kept {q : List Instr} {s : State} {a0 : CtxId} {a1 : Ctx} (hs : Kept q s) :
    Kept q (State.setCtx s a0 a1) := by
  delta State.setCtx
  repeat' first
    | (extract_lets +onlyGivenNames -underBinder x; clear_value x)
    | split
    | with_reducible (refine Kept.other ?_; assumption)

theorem State.setCx_kept {q : List Instr} {s : State} {x : Ctx} (hs : Kept q s) :
    Kept q (State.setCx s x) := by
  delta State.setCx
  repeat' first
    | with_reducible assumption
    | with_reducible apply State.setCtx_kept

theorem State.w_kept {q : List Instr} {s : State} {n : BitVec 5} {v : Word} (hs : Kept q s) :
    Kept q (State.w s n v) := by
  delta State.w
  repeat' first
    | with_reducible assumption
    | with_reducible apply State.setCx_kept

theorem State.perf1_kept {q : List Instr} {code n : Nat} {ctx : Option CtxId} {j : Nat} {s : State} (hs : Kept q s) :
    Kept q (State.perf1 code n ctx j s) := by
  delta State.perf1
  lift_lets -underBinder
  repeat' first
    | with_reducible assumption
    | (extract_lets +onlyGivenNames -underBinder x; refine (fun hx : Kept q x => ?_) ?_; clear_value x; rotate_left; subst x)
    | (extract_lets +onlyGivenNames -underBinder x; clear_value x)
    | with_reducible apply State.put_kept
    | with_reducible refine kept_ite ?_ ?_

theorem State.tally_kept {q : List Instr} {s : State} {k n : Nat} (hs : Kept q s) :
    Kept q (State.tally s k n) := by
  delta State.tally
  repeat' first
    | with_reducible assumption
    | with_reducible refine kept_ite ?_ ?_
    | with_reducible (refine Kept.other ?_; assumption)

theorem State.perf_kept {q : List Instr} {s : State} {code n : Nat} {ctx : Option CtxId} (hs : Kept q s) :
    Kept q (State.perf s code n ctx) := by
  delta State.perf
  repeat' first
    | with_reducible assumption
    | with_reducible apply State.tally_kept
    | with_reducible apply State.perf1_kept
    | with_reducible apply forN_kept

theorem State.tick_kept {q : List Instr} {s : State} (hs : Kept q s) :
    Kept q (State.tick s) := by
  delta State.tick
  repeat' first
    | with_reducible (refine Kept.other ?_; assumption)

/-! ### Packets -/

theorem State.inject_kept {q : List Instr} {s : State} {p : Packet} (hs : Kept q s) :
    Kept q (State.inject s p) := by
  delta State.inject
  lift_lets -underBinder
  repeat' first
    | with_reducible assumption
    | (extract_lets +onlyGivenNames -underBinder x; refine (fun hx : Kept q x => ?_) ?_; clear_value x; rotate_left; subst x)
    | (extract_lets +onlyGivenNames -underBinder x; clear_value x)
    | with_reducible apply State.put_kept
    | with_reducible refine kept_ite ?_ ?_
    | with_reducible (refine Kept.other ?_; assumption)

theorem State.sendData_kept {qq : List Instr} {s : State} {q : Packet} {d : List Byte} (hs : Kept qq s) :
    Kept qq (State.sendData s q d) := by
  delta State.sendData
  repeat' first
    | with_reducible assumption
    | with_reducible apply State.inject_kept

theorem State.sendAck_kept {qq : List Instr} {s : State} {q : Packet} {st : BitVec 8} (hs : Kept qq s) :
    Kept qq (State.sendAck s q st) := by
  delta State.sendAck
  repeat' first
    | with_reducible assumption
    | with_reducible apply State.inject_kept

theorem State.sendError_kept {qq : List Instr} {s : State} {q : Packet} {st : BitVec 8} (hs : Kept qq s) :
    Kept qq (State.sendError s q st) := by
  delta State.sendError
  repeat' first
    | with_reducible assumption
    | with_reducible apply State.sendAck_kept
    | with_reducible apply State.inject_kept
    | with_reducible refine kept_ite ?_ ?_

theorem State.sendFenced_kept {qq : List Instr} {s : State} {q : Packet} (hs : Kept qq s) :
    Kept qq (State.sendFenced s q) := by
  delta State.sendFenced
  repeat' first
    | with_reducible assumption
    | with_reducible apply State.inject_kept

theorem State.sendDropped_kept {qq : List Instr} {s : State} {q : Packet} {dctx : Bool} (hs : Kept qq s) :
    Kept qq (State.sendDropped s q dctx) := by
  delta State.sendDropped
  repeat' first
    | with_reducible assumption
    | with_reducible apply State.inject_kept

theorem State.takeTag_kept {q : List Instr} {s : State} (hs : Kept q s) :
    Kept2 q (State.takeTag s) := by
  delta State.takeTag
  lift_lets -underBinder
  repeat' first
    | (extract_lets +onlyGivenNames -underBinder x; have hx : Queue := x; clear hx; subst x)
    | (extract_lets +onlyGivenNames -underBinder x; clear_value x)
    | with_reducible apply Kept2.mk
    | with_reducible (refine Kept.queue ?_; assumption)

theorem State.await_kept {q : List Instr} {s : State} {tag : BitVec 16} {o : Owner} (hs : Kept q s) :
    Kept q (State.await s tag o) := by
  delta State.await
  lift_lets -underBinder
  repeat' first
    | (extract_lets +onlyGivenNames -underBinder x; have hx : Queue := x; clear hx; subst x)
    | with_reducible (refine Kept.queue ?_; assumption)

theorem State.settled_kept {q : List Instr} {s : State} {tag : BitVec 16} (hs : Kept q s) :
    Kept q (State.settled s tag) := by
  delta State.settled
  lift_lets -underBinder
  repeat' first
    | (extract_lets +onlyGivenNames -underBinder x; have hx : Queue := x; clear hx; subst x)
    | with_reducible (refine Kept.queue ?_; assumption)

theorem State.injectOf_kept {q : List Instr} {s : State} {n : Nat} {p : Packet} (hs : Kept q s) :
    Kept q (State.injectOf s n p) := by
  delta State.injectOf
  repeat' first
    | with_reducible assumption
    | with_reducible apply State.inject_kept
    | with_reducible apply State.tally_kept

theorem State.injectFor_kept {q : List Instr} {s : State} {o : Owner} {p : Packet} (hs : Kept q s) :
    Kept q (State.injectFor s o p) := by
  delta State.injectFor
  repeat' first
    | with_reducible assumption
    | with_reducible apply State.injectOf_kept
    | with_reducible apply State.inject_kept
    | split

theorem State.request_kept {q : List Instr} {s : State} {o : Owner} {ty : BitVec 5} {vc : BitVec 2} {dst aux : Word} {sctx : CtxId} {payload : List Byte} (hs : Kept q s) :
    Kept2 q (State.request s o ty vc dst aux sctx payload) := by
  delta State.request
  lift_lets -underBinder
  repeat' first
    | with_reducible assumption
    | (extract_lets +onlyGivenNames -underBinder x; refine (fun hx : Kept q x.2 => ?_) ?_; clear_value x; rotate_left; subst x; change Kept2 q _)
    | (extract_lets +onlyGivenNames -underBinder x; clear_value x)
    | with_reducible apply State.injectFor_kept
    | with_reducible apply State.await_kept
    | with_reducible apply State.takeTag_kept
    | with_reducible apply Kept2.mk

theorem State.injectSkein_kept {q : List Instr} {s : State} {id die aux : Nat} (hs : Kept q s) :
    Kept q (State.injectSkein s id die aux) := by
  delta State.injectSkein
  repeat' first
    | with_reducible assumption
    | with_reducible apply State.inject_kept

/-! ### Obs -/

theorem State.setRing_kept {q : List Instr} {s : State} {n : Nat} {r : Ring} (hs : Kept q s) :
    Kept q (State.setRing s n r) := by
  delta State.setRing
  exact Kept.queue hs

theorem State.capture_kept {q : List Instr} {s : State} {t : Trigger} (hs : Kept q s) :
    Kept q (State.capture s t) := by
  delta State.capture
  lift_lets -underBinder
  repeat' first
    | with_reducible assumption
    | (extract_lets +onlyGivenNames -underBinder x; refine (fun hx : Kept q x => ?_) ?_; clear_value x; rotate_left; subst x)
    | (extract_lets +onlyGivenNames -underBinder x; clear_value x)
    | with_reducible apply State.tick_kept
    | with_reducible apply State.put_kept
    | with_reducible apply forN_kept
    | split
    | with_reducible intro _

theorem State.trigger_kept {q : List Instr} {s : State} {t : Trigger} (hs : Kept q s) :
    Kept q (State.trigger s t) := by
  delta State.trigger
  repeat' first
    | with_reducible assumption
    | with_reducible apply State.capture_kept
    | with_reducible apply State.sat_kept
    | with_reducible apply State.put_kept
    | with_reducible refine kept_ite ?_ ?_

theorem State.autoTrigger_kept {q : List Instr} {s : State} {kind : Nat} (hs : Kept q s) :
    Kept q (State.autoTrigger s kind) := by
  delta State.autoTrigger
  lift_lets -underBinder
  repeat' first
    | with_reducible assumption
    | (extract_lets +onlyGivenNames -underBinder x; refine (fun hx : Kept q x => ?_) ?_; clear_value x; rotate_left; subst x)
    | (extract_lets +onlyGivenNames -underBinder x; clear_value x)
    | with_reducible apply State.trigger_kept
    | with_reducible apply State.injectSkein_kept
    | with_reducible apply State.put_kept
    | with_reducible refine kept_ite ?_ ?_

theorem State.swTrigger_kept {q : List Instr} {s : State} {id : Nat} (hs : Kept q s) :
    Kept q (State.swTrigger s id) := by
  delta State.swTrigger
  lift_lets -underBinder
  repeat' first
    | with_reducible assumption
    | (extract_lets +onlyGivenNames -underBinder x; clear_value x)
    | with_reducible apply State.trigger_kept
    | with_reducible apply State.put_kept

theorem State.applySample_kept {q : List Instr} {s : State} {i : Nat} {v : Int} (hs : Kept q s) :
    Kept q (State.applySample s i v) := by
  delta State.applySample
  lift_lets -underBinder
  repeat' first
    | with_reducible assumption
    | (extract_lets +onlyGivenNames -underBinder x; refine (fun hx : Kept q x => ?_) ?_; clear_value x; rotate_left; subst x)
    | (extract_lets +onlyGivenNames -underBinder x; clear_value x)
    | with_reducible apply State.autoTrigger_kept
    | with_reducible apply State.sat_kept
    | with_reducible apply State.put_kept
    | with_reducible refine kept_ite ?_ ?_

theorem State.samples_kept {q : List Instr} {s : State} {l : List Sample} (hs : Kept q s) :
    Kept q (State.samples s l) := by
  delta State.samples
  lift_lets -underBinder
  repeat' first
    | with_reducible assumption
    | (extract_lets +onlyGivenNames -underBinder x; refine (fun hx : Kept q x => ?_) ?_; clear_value x; rotate_left; subst x)
    | with_reducible apply State.applySample_kept
    | with_reducible apply State.autoTrigger_kept
    | with_reducible apply forN_kept
    | with_reducible apply kept_foldl
    | split
    | with_reducible intro _

theorem State.sample_kept {q : List Instr} {s : State} {src : Nat} {admits : Nat → Bool} {v : Int} (hs : Kept q s) :
    Kept q (State.sample s src admits v) := by
  delta State.sample
  repeat' first
    | with_reducible assumption
    | with_reducible apply State.samples_kept

theorem State.sampleTime_kept {q : List Instr} {s : State} {src : Nat} {admits : Nat → Bool} (hs : Kept q s) :
    Kept q (State.sampleTime s src admits) := by
  delta State.sampleTime
  repeat' first
    | with_reducible assumption
    | with_reducible apply State.sample_kept
    | with_reducible apply State.tick_kept
    | with_reducible refine kept_ite ?_ ?_

theorem State.lmGrant_kept {q : List Instr} {s : State} {req n : Nat} (hs : Kept q s) :
    Kept q (State.lmGrant s req n) := by
  delta State.lmGrant
  lift_lets -underBinder
  repeat' first
    | with_reducible assumption
    | (extract_lets +onlyGivenNames -underBinder x; refine (fun hx : Kept q x => ?_) ?_; clear_value x; rotate_left; subst x)
    | with_reducible apply State.sampleTime_kept
    | with_reducible apply State.perf_kept
    | with_reducible apply State.tally_kept
    | with_reducible apply forN_kept
    | with_reducible refine kept_ite ?_ ?_
    | with_reducible intro _

/-! ### Faults -/

theorem State.storeRec_kept {q : List Instr} {s : State} {e : TickRec} (hs : Kept q s) :
    Kept2 q (State.storeRec s e) := by
  delta State.storeRec
  repeat' first
    | with_reducible assumption
    | (extract_lets +onlyGivenNames -underBinder x; refine (fun hx : Kept q x => ?_) ?_; clear_value x; rotate_left; subst x)
    | (extract_lets +onlyGivenNames -underBinder x; clear_value x)
    | with_reducible apply State.hwAdd_kept
    | with_reducible apply State.hwSet_kept
    | with_reducible apply State.put_kept
    | with_reducible apply forN_kept
    | with_reducible apply Kept2.mk
    | split
    | with_reducible intro _

theorem State.unstoreRec_kept {q : List Instr} {e : TickRec} {s : State} (hs : Kept q s) :
    Kept q (State.unstoreRec e s) := by
  delta State.unstoreRec
  repeat' first
    | with_reducible assumption
    | (extract_lets +onlyGivenNames -underBinder x; refine (fun hx : Kept q x => ?_) ?_; clear_value x; rotate_left; subst x)
    | (extract_lets +onlyGivenNames -underBinder x; clear_value x)
    | with_reducible apply State.put_kept
    | with_reducible apply forN_kept
    | split
    | with_reducible intro _
    | with_reducible (refine Kept.other ?_; assumption)

theorem State.storeRecs_kept {q : List Instr} (l : List TickRec) {s : State} (hs : Kept q s) :
    Kept2 q (State.storeRecs l s) := by
  induction l generalizing s with
  | nil => exact hs
  | cons e r ih => exact ih (State.storeRec_kept hs)

theorem foldr_unstoreRec_kept {q : List Instr} (l : List TickRec) {s : State} (hs : Kept q s) :
    Kept q (l.foldr State.unstoreRec s) := by
  induction l with
  | nil => exact hs
  | cons e r ih => exact State.unstoreRec_kept ih

theorem State.record_kept {q : List Instr} {s : State} {f : FaultRec} (hs : Kept q s) :
    Kept q (State.record s f) := by
  delta State.record
  extract_lets log later r u v t
  have hr : Kept q r.2 := State.storeRecs_kept _ (foldr_unstoreRec_kept later hs)
  have ht : Kept q t := Kept.other hr
  exact kept_ite (State.autoTrigger_kept ht) ht

theorem State.stopRing_kept {q : List Instr} {n : Nat} {s : State} (hs : Kept q s) :
    Kept q (State.stopRing n s) := by
  delta State.stopRing
  lift_lets -underBinder
  repeat' first
    | with_reducible assumption
    | (extract_lets +onlyGivenNames -underBinder x; refine (fun hx : Kept q x => ?_) ?_; clear_value x; rotate_left; subst x)
    | (extract_lets +onlyGivenNames -underBinder x; clear_value x)
    | with_reducible apply State.setRing_kept
    | with_reducible apply State.put_kept
    | with_reducible refine kept_ite ?_ ?_
    | split

theorem State.stopEngines_kept {q : List Instr} {s : State} (hs : Kept q s) :
    Kept q (State.stopEngines s) := by
  delta State.stopEngines
  lift_lets -underBinder
  repeat' first
    | with_reducible assumption
    | (extract_lets +onlyGivenNames -underBinder x; refine (fun hx : Kept q x => ?_) ?_; clear_value x; rotate_left; subst x)
    | (extract_lets +onlyGivenNames -underBinder x; have hx : Queue := x; clear hx; subst x)
    | with_reducible apply State.stopRing_kept
    | with_reducible apply State.put_kept
    | with_reducible apply forN_kept
    | with_reducible intro _
    | with_reducible (refine Kept.queue ?_; assumption)

theorem State.dropFetches_kept {q : List Instr} {s : State} (hs : Kept q s) :
    Kept q (State.dropFetches s) := by
  delta State.dropFetches
  lift_lets -underBinder
  repeat' first
    | with_reducible assumption
    | (extract_lets +onlyGivenNames -underBinder x; refine (fun hx : Kept q x => ?_) ?_; clear_value x; rotate_left; subst x)
    | (extract_lets +onlyGivenNames -underBinder x; have hx : Queue := x; clear hx; subst x)
    | with_reducible apply State.setRing_kept
    | with_reducible apply forN_kept
    | with_reducible intro _
    | with_reducible (refine Kept.queue ?_; assumption)

theorem State.ldo_kept {q : List Instr} {s : State} {on : Bool} (hs : Kept q s) :
    Kept q (State.ldo s on) := by
  delta State.ldo
  lift_lets -underBinder
  repeat' first
    | (extract_lets +onlyGivenNames -underBinder x; clear_value x)
    | with_reducible (refine Kept.other ?_; assumption)

theorem State.loseLogic_kept {q : List Instr} {s : State} (hs : Kept q s) :
    Kept q (State.loseLogic s) := by
  delta State.loseLogic
  lift_lets -underBinder
  repeat' first
    | with_reducible assumption
    | (extract_lets +onlyGivenNames -underBinder x; refine (fun hx : Kept q x => ?_) ?_; clear_value x; rotate_left; subst x)
    | (extract_lets +onlyGivenNames -underBinder x; clear_value x)
    | with_reducible apply State.dropFetches_kept
    | with_reducible (refine Kept.other ?_; assumption)

theorem State.fence_kept {q : List Instr} {s : State} {reason : Nat} (hs : Kept q s) :
    Kept q (State.fence s reason) := by
  delta State.fence
  lift_lets -underBinder
  repeat' first
    | with_reducible assumption
    | (extract_lets +onlyGivenNames -underBinder x; refine (fun hx : Kept q x => ?_) ?_; clear_value x; rotate_left; subst x)
    | (extract_lets +onlyGivenNames -underBinder x; clear_value x)
    | with_reducible apply State.loseLogic_kept
    | with_reducible apply State.ldo_kept
    | with_reducible apply State.stopEngines_kept
    | with_reducible apply State.put_kept
    | with_reducible refine kept_ite ?_ ?_
    | split
    | with_reducible (refine Kept.other ?_; assumption)

theorem State.checkstop_kept {q : List Instr} {s : State} {f : FaultRec} (hs : Kept q s) :
    Kept q (State.checkstop s f) := by
  delta State.checkstop
  repeat' first
    | with_reducible assumption
    | with_reducible apply State.fence_kept
    | with_reducible apply State.record_kept

theorem State.startUpFault_kept {q : List Instr} {s : State} {b : Nat} (hs : Kept q s) :
    Kept q (State.startUpFault s b) := by
  delta State.startUpFault
  lift_lets -underBinder
  repeat' first
    | with_reducible assumption
    | (extract_lets +onlyGivenNames -underBinder x; refine (fun hx : Kept q x => ?_) ?_; clear_value x; rotate_left; subst x)
    | (extract_lets +onlyGivenNames -underBinder x; clear_value x)
    | with_reducible apply State.checkstop_kept
    | with_reducible apply State.record_kept
    | with_reducible apply State.put_kept
    | with_reducible refine kept_ite ?_ ?_

theorem State.eccCorrect_kept {q : List Instr} {s : State} {ws : List Nat} (hs : Kept q s) :
    Kept q (State.eccCorrect s ws) := by
  delta State.eccCorrect
  lift_lets -underBinder
  repeat' first
    | with_reducible assumption
    | (extract_lets +onlyGivenNames -underBinder x; refine (fun hx : Kept q x => ?_) ?_; clear_value x; rotate_left; subst x)
    | (extract_lets +onlyGivenNames -underBinder x; clear_value x)
    | with_reducible apply State.perf_kept
    | with_reducible apply State.sat_kept
    | with_reducible refine kept_ite ?_ ?_
    | (refine Kept.store ?_ (Kept.mem hx) (twf_foldl_tput _ (Kept.ecc hx)); with_reducible assumption)

theorem State.eccFailed_kept {q : List Instr} {s : State} {req : Nat} {ctx : Option CtxId} {w : Nat} (hs : Kept q s) :
    Kept q (State.eccFailed s req ctx w) := by
  delta State.eccFailed
  lift_lets -underBinder
  repeat' first
    | with_reducible assumption
    | (extract_lets +onlyGivenNames -underBinder x; refine (fun hx : Kept q x => ?_) ?_; clear_value x; rotate_left; subst x)
    | with_reducible apply State.record_kept
    | with_reducible apply State.sat_kept
    | with_reducible apply State.put_kept

theorem State.lmRead_kept {q : List Instr} {s : State} {req : Nat} {ctx : Option CtxId} {off n : Nat} (hs : Kept q s) :
    Kept2 q (State.lmRead s req ctx off n) := by
  delta State.lmRead
  lift_lets -underBinder
  repeat' first
    | with_reducible assumption
    | (extract_lets +onlyGivenNames -underBinder x; refine (fun hx : Kept q x => ?_) ?_; clear_value x; rotate_left; subst x)
    | (extract_lets +onlyGivenNames -underBinder x; clear_value x)
    | with_reducible apply State.eccFailed_kept
    | with_reducible apply State.eccCorrect_kept
    | with_reducible apply State.lmGrant_kept
    | with_reducible apply kept_foldl
    | with_reducible apply Kept2.mk
    | split
    | with_reducible intro _

theorem State.lmWrite_kept {q : List Instr} {s : State} {req : Nat} {ctx : Option CtxId} {off : Nat} {d : List Byte} (hs : Kept q s) :
    Kept2 q (State.lmWrite s req ctx off d) := by
  delta State.lmWrite
  lift_lets -underBinder
  repeat' first
    | with_reducible assumption
    | (extract_lets +onlyGivenNames -underBinder x; refine (fun hx : Kept q x => ?_) ?_; clear_value x; rotate_left; subst x)
    | (extract_lets +onlyGivenNames -underBinder x; clear_value x)
    | with_reducible apply State.eccFailed_kept
    | with_reducible apply State.eccCorrect_kept
    | with_reducible apply State.lmGrant_kept
    | with_reducible apply kept_foldl
    | with_reducible apply Kept2.mk
    | split
    | with_reducible intro _
    | with_reducible refine Kept2.snd (Kept2.mk ?_)
    | (refine Kept.store ?_ (Mem.wf_write (Kept.mem hx)) (twf_foldl_tput _ (Kept.ecc hx)); with_reducible assumption)

/-! ### Exceptions -/

theorem State.benchEntry_kept {q : List Instr} {s : State} {id : CtxId} {c t : Nat} {a pc f : Word} {reason : Nat} {inst : Word32} (hs : Kept q s) :
    Kept q (State.benchEntry s id c t a pc f reason inst) := by
  delta State.benchEntry
  lift_lets -underBinder
  repeat' first
    | with_reducible assumption
    | (extract_lets +onlyGivenNames -underBinder x; refine (fun hx : Kept q x => ?_) ?_; clear_value x; rotate_left; subst x)
    | (extract_lets +onlyGivenNames -underBinder x; clear_value x)
    | with_reducible apply State.checkstop_kept
    | with_reducible apply State.perf_kept
    | with_reducible apply State.setCtx_kept
    | with_reducible (refine Kept2.snd ?_; apply State.lmWrite_kept)
    | with_reducible refine kept_ite ?_ ?_
    | with_reducible (refine Kept.other ?_; assumption)

theorem State.normalEntry_kept {q : List Instr} {s : State} {id : CtxId} {c t : Nat} {a pc : Word} {inst : Word32} (hs : Kept q s) :
    Kept q (State.normalEntry s id c t a pc inst) := by
  delta State.normalEntry
  lift_lets -underBinder
  repeat' first
    | with_reducible assumption
    | (extract_lets +onlyGivenNames -underBinder x; refine (fun hx : Kept q x => ?_) ?_; clear_value x; rotate_left; subst x)
    | (extract_lets +onlyGivenNames -underBinder x; clear_value x)
    | with_reducible apply State.benchEntry_kept
    | with_reducible apply State.perf_kept
    | with_reducible apply State.setCtx_kept
    | with_reducible (refine Kept2.snd ?_; apply State.lmWrite_kept)
    | with_reducible refine kept_ite ?_ ?_
    | split

theorem State.fastEntry_kept {q : List Instr} {s : State} {id : CtxId} {c t : Nat} {pc : Word} (hs : Kept q s) :
    Kept q (State.fastEntry s id c t pc) := by
  delta State.fastEntry
  lift_lets -underBinder
  repeat' first
    | with_reducible assumption
    | (extract_lets +onlyGivenNames -underBinder x; clear_value x)
    | with_reducible apply State.perf_kept
    | with_reducible apply State.setCtx_kept

theorem State.enter_kept {q : List Instr} {s : State} {id : CtxId} {c t : Nat} {a pc : Word} {inst : Word32} (hs : Kept q s) :
    Kept q (State.enter s id c t a pc inst) := by
  delta State.enter
  lift_lets -underBinder
  repeat' first
    | with_reducible assumption
    | (extract_lets +onlyGivenNames -underBinder x; clear_value x)
    | with_reducible apply State.fastEntry_kept
    | with_reducible apply State.normalEntry_kept
    | with_reducible refine kept_ite ?_ ?_

theorem State.raiseOf_kept {q : List Instr} {s : State} {id : CtxId} {c : Nat} {a pc : Word} {inst : Word32} (hs : Kept q s) :
    Kept q (State.raiseOf s id c a pc inst) := by
  delta State.raiseOf
  lift_lets -underBinder
  repeat' first
    | with_reducible assumption
    | (extract_lets +onlyGivenNames -underBinder x; refine (fun hx : Kept q x => ?_) ?_; clear_value x; rotate_left; subst x)
    | (extract_lets +onlyGivenNames -underBinder x; clear_value x)
    | with_reducible apply State.enter_kept
    | with_reducible apply State.setCtx_kept

theorem State.raise_kept {q : List Instr} {s : State} {c : Nat} {a pc : Word} {inst : Word32} (hs : Kept q s) :
    Kept q (State.raise s c a pc inst) := by
  delta State.raise
  repeat' first
    | with_reducible assumption
    | with_reducible apply State.raiseOf_kept

theorem State.raiseM_kept {q : List Instr} {s : State} {c : Nat} {a pc : Word} {inst : Word32} (hs : Kept q s) :
    Kept q (State.raiseM s c a pc inst) := by
  delta State.raiseM
  lift_lets -underBinder
  repeat' first
    | with_reducible assumption
    | (extract_lets +onlyGivenNames -underBinder x; refine (fun hx : Kept q x => ?_) ?_; clear_value x; rotate_left; subst x)
    | (extract_lets +onlyGivenNames -underBinder x; clear_value x)
    | with_reducible apply State.normalEntry_kept
    | with_reducible apply State.setCtx_kept

theorem State.wakeBy_kept {q : List Instr} {s : State} {src : BitVec 4} (hs : Kept q s) :
    Kept q (State.wakeBy s src) := by
  delta State.wakeBy
  lift_lets -underBinder
  repeat' first
    | with_reducible assumption
    | (extract_lets +onlyGivenNames -underBinder x; clear_value x)
    | with_reducible refine kept_ite ?_ ?_
    | with_reducible (refine Kept.other ?_; assumption)

theorem State.updatePend_kept {q : List Instr} {s : State} {id : CtxId} (hs : Kept q s) :
    Kept q (State.updatePend s id) := by
  delta State.updatePend
  lift_lets -underBinder
  repeat' first
    | with_reducible assumption
    | (extract_lets +onlyGivenNames -underBinder x; refine (fun hx : Kept q x => ?_) ?_; clear_value x; rotate_left; subst x)
    | (extract_lets +onlyGivenNames -underBinder x; clear_value x)
    | (extract_lets +onlyGivenNames -underBinder x; subst x)
    | with_reducible apply State.wakeBy_kept
    | with_reducible apply State.setCtx_kept
    | with_reducible refine kept_ite ?_ ?_

theorem State.deferNext_kept {q : List Instr} {s : State} {id : CtxId} (hs : Kept q s) :
    Kept q (State.deferNext s id) := by
  delta State.deferNext
  lift_lets -underBinder
  repeat' first
    | with_reducible assumption
    | (extract_lets +onlyGivenNames -underBinder x; clear_value x)
    | with_reducible apply State.setCtx_kept

theorem State.switchBack_kept {q : List Instr} {s : State} {id : CtxId} {may : Bool} (hs : Kept q s) :
    Kept q (State.switchBack s id may) := by
  delta State.switchBack
  lift_lets -underBinder
  repeat' first
    | with_reducible assumption
    | (extract_lets +onlyGivenNames -underBinder x; refine (fun hx : Kept q x => ?_) ?_; clear_value x; rotate_left; subst x)
    | (extract_lets +onlyGivenNames -underBinder x; clear_value x)
    | with_reducible apply State.deferNext_kept
    | with_reducible apply State.setCtx_kept
    | with_reducible refine kept_ite ?_ ?_
    | with_reducible (refine Kept.other ?_; assumption)

theorem State.benchReturn_kept {q : List Instr} {s : State} (hs : Kept q s) :
    DKept q (State.benchReturn s) := by
  delta State.benchReturn
  lift_lets -underBinder
  repeat' first
    | with_reducible assumption
    | (extract_lets +onlyGivenNames -underBinder x; refine (fun hx : Kept q x => ?_) ?_; clear_value x; rotate_left; subst x)
    | (extract_lets +onlyGivenNames -underBinder x; clear_value x)
    | with_reducible apply State.switchBack_kept
    | with_reducible apply State.lmRead_kept
    | with_reducible apply State.setCtx_kept
    | with_reducible apply DKept.gone
    | with_reducible apply DKept.excM
    | split
    | with_reducible refine Kept2.eq ?_ (by assumption)
    | with_reducible (refine Kept.other ?_; assumption)

theorem State.fastReturn_kept {q : List Instr} {s : State} (hs : Kept q s) :
    DKept q (State.fastReturn s) := by
  delta State.fastReturn
  lift_lets -underBinder
  repeat' first
    | with_reducible assumption
    | (extract_lets +onlyGivenNames -underBinder x; clear_value x)
    | with_reducible apply State.switchBack_kept
    | with_reducible apply State.setCtx_kept
    | with_reducible apply DKept.gone
    | with_reducible apply DKept.exc
    | with_reducible refine dkept_ite ?_ ?_

theorem State.frameReturn_kept {q : List Instr} {s : State} (hs : Kept q s) :
    DKept q (State.frameReturn s) := by
  delta State.frameReturn
  dsimp only
  generalize hl : s.local? _ 64 = l
  split
  · exact DKept.exc hs
  · cases l with
    | none => exact DKept.exc hs
    | some off =>
      dsimp only
      split
      · exact DKept.exc hs
      · generalize hr : s.lmRead _ _ off 64 = r
        have hk : Kept2 q (s.lmRead reqCore (some s.core.cur) off 64) := State.lmRead_kept hs
        rw [hr] at hk
        obtain ⟨a, u⟩ := r
        have hu : Kept q u := hk
        cases a with
        | error w => exact DKept.excM hu
        | ok d =>
          dsimp only
          split
          · exact DKept.exc hu
          · split
            · exact DKept.exc hu
            · exact DKept.gone (State.switchBack_kept (State.setCtx_kept hu))

theorem State.eret_kept {q : List Instr} {s : State} (hs : Kept q s) :
    DKept q (State.eret s) := by
  delta State.eret
  lift_lets -underBinder
  repeat' first
    | with_reducible assumption
    | (extract_lets +onlyGivenNames -underBinder x; clear_value x)
    | with_reducible apply State.frameReturn_kept
    | with_reducible apply State.fastReturn_kept
    | with_reducible apply State.benchReturn_kept
    | with_reducible refine dkept_ite ?_ ?_

end Sys2Proof.Machine
end

