-- ==== Sys2Proof/Laws/KeptRouter.lean ====
section
/-! SUPPORT. The router, the queue engine, the links and the register bus keep `Kept`. One lemma per definition. -/

set_option Elab.async false

namespace Sys2Proof.Machine

/-! ### Router -/

theorem State.meshBusy_kept {q : List Instr} {s : State} (hs : Kept q s) :
    Kept q (State.meshBusy s) := by
  delta State.meshBusy
  lift_lets -underBinder
  repeat' first
    | (extract_lets +onlyGivenNames -underBinder x; clear_value x)
    | with_reducible (refine Kept.other ?_; assumption)

theorem State.setLnk_kept {q : List Instr} {s : State} {p : Port} {x : LinkPort} (hs : Kept q s) :
    Kept q (State.setLnk s p x) := by
  delta State.setLnk
  repeat' first
    | with_reducible assumption
    | split
    | with_reducible (refine Kept.other ?_; assumption)

theorem State.credit_kept {q : List Instr} {s : State} {p : Port} {vc : BitVec 2} {n : Nat} (hs : Kept q s) :
    Kept q (State.credit s p vc n) := by
  delta State.credit
  lift_lets -underBinder
  repeat' first
    | with_reducible assumption
    | (extract_lets +onlyGivenNames -underBinder x; clear_value x)
    | with_reducible apply State.setLnk_kept
    | with_reducible refine kept_ite ?_ ?_
    | with_reducible (refine Kept.other ?_; assumption)

theorem State.tblLook_kept {q : List Instr} {s : State} {e : Nat} (hs : Kept q s) :
    Kept q (State.tblLook s e) := by
  delta State.tblLook
  lift_lets -underBinder
  repeat' first
    | with_reducible assumption
    | (extract_lets +onlyGivenNames -underBinder x; clear_value x)
    | with_reducible apply State.record_kept
    | with_reducible refine kept_ite ?_ ?_
    | with_reducible (refine Kept.other ?_; assumption)

theorem State.tblWritten_kept {q : List Instr} {s : State} {e : Nat} (hs : Kept q s) :
    Kept q (State.tblWritten s e) := by
  delta State.tblWritten
  lift_lets -underBinder
  repeat' first
    | (extract_lets +onlyGivenNames -underBinder x; clear_value x)
    | with_reducible (refine Kept.other ?_; assumption)

theorem State.holdAs_kept {q : List Instr} {s : State} {inp out : Port} {p : Packet} {owed : Nat} {branch cls1 : Bool} {drop : Nat} (hs : Kept q s) :
    Kept q (State.holdAs s inp out p owed branch cls1 drop) := by
  delta State.holdAs
  lift_lets -underBinder
  repeat' first
    | (extract_lets +onlyGivenNames -underBinder x; clear_value x)
    | with_reducible (refine Kept.other ?_; assumption)

theorem State.hold_kept {q : List Instr} {s : State} {inp out : Port} {p : Packet} {owed : Nat} (hs : Kept q s) :
    Kept q (State.hold s inp out p owed) := by
  delta State.hold
  repeat' first
    | with_reducible assumption
    | with_reducible apply State.holdAs_kept

theorem State.unreachable_kept {q : List Instr} {s : State} {inp : Port} {p : Packet} {owed : Nat} (hs : Kept q s) :
    Kept q (State.unreachable s inp p owed) := by
  delta State.unreachable
  repeat' first
    | with_reducible assumption
    | with_reducible apply State.credit_kept
    | with_reducible apply State.sendError_kept
    | with_reducible apply State.sat_kept

theorem State.detour_kept {q : List Instr} {s : State} {inp next : Port} {p : Packet} {owed : Nat} {cls1 : Bool} (hs : Kept q s) :
    Kept q (State.detour s inp next p owed cls1) := by
  delta State.detour
  lift_lets -underBinder
  repeat' first
    | with_reducible assumption
    | (extract_lets +onlyGivenNames -underBinder x; refine (fun hx : Kept q x => ?_) ?_; clear_value x; rotate_left; subst x)
    | (extract_lets +onlyGivenNames -underBinder x; clear_value x)
    | with_reducible apply State.unreachable_kept
    | with_reducible apply State.holdAs_kept
    | with_reducible apply State.tblLook_kept
    | with_reducible refine kept_ite ?_ ?_

theorem State.outTo_kept {q : List Instr} {s : State} {inp next : Port} {p : Packet} {owed : Nat} {cls1 : Bool} (hs : Kept q s) :
    Kept q (State.outTo s inp next p owed cls1) := by
  delta State.outTo
  repeat' first
    | with_reducible assumption
    | with_reducible apply State.detour_kept
    | with_reducible apply State.holdAs_kept
    | with_reducible refine kept_ite ?_ ?_

theorem State.stepTo_kept {q : List Instr} {s : State} {inp : Port} {p : Packet} {owed tx ty : Nat} (hs : Kept q s) :
    Kept q (State.stepTo s inp p owed tx ty) := by
  delta State.stepTo
  lift_lets -underBinder
  repeat' first
    | with_reducible assumption
    | (extract_lets +onlyGivenNames -underBinder x; clear_value x)
    | with_reducible apply State.outTo_kept
    | with_reducible apply State.unreachable_kept
    | with_reducible refine kept_ite ?_ ?_

theorem State.leaveDie_kept {q : List Instr} {s : State} {inp : Port} {p : Packet} {owed : Nat} (hs : Kept q s) :
    Kept q (State.leaveDie s inp p owed) := by
  delta State.leaveDie
  lift_lets -underBinder
  repeat' first
    | with_reducible assumption
    | (extract_lets +onlyGivenNames -underBinder x; clear_value x)
    | with_reducible apply State.outTo_kept

theorem State.dieExit_kept {q : List Instr} {s : State} {inp : Port} {p : Packet} {owed : Nat} (hs : Kept q s) :
    Kept q (State.dieExit s inp p owed) := by
  delta State.dieExit
  lift_lets -underBinder
  repeat' first
    | with_reducible assumption
    | (extract_lets +onlyGivenNames -underBinder x; refine (fun hx : Kept q x => ?_) ?_; clear_value x; rotate_left; subst x)
    | (extract_lets +onlyGivenNames -underBinder x; refine (fun hl : ∀ a, Kept q (x a) => ?_) ?_; clear_value x; rotate_left; subst x; intro _; try dsimp only)
    | (extract_lets +onlyGivenNames -underBinder x; clear_value x)
    | with_reducible apply State.leaveDie_kept
    | with_reducible apply State.stepTo_kept
    | with_reducible apply State.unreachable_kept
    | with_reducible apply State.tblLook_kept
    | with_reducible apply hl
    | with_reducible refine kept_ite ?_ ?_

theorem State.copyOut_kept {q : List Instr} {inp : Port} {owed : Nat} {s : State} {e : Port × Packet} (hs : Kept q s) :
    Kept q (State.copyOut inp owed s e) := by
  delta State.copyOut
  repeat' first
    | with_reducible assumption
    | with_reducible apply State.holdAs_kept

theorem State.routeRect_kept {q : List Instr} {s : State} {inp : Port} {p : Packet} {owed : Nat} (hs : Kept q s) :
    Kept1 q (State.routeRect s inp p owed) := by
  delta State.routeRect
  lift_lets -underBinder
  repeat' first
    | with_reducible assumption
    | (extract_lets +onlyGivenNames -underBinder x; refine (fun hx : Kept q x => ?_) ?_; clear_value x; rotate_left; subst x)
    | (extract_lets +onlyGivenNames -underBinder x; clear_value x)
    | (extract_lets +onlyGivenNames -underBinder x; subst x)
    | with_reducible apply State.copyOut_kept
    | with_reducible apply State.unreachable_kept
    | with_reducible apply State.credit_kept
    | with_reducible apply State.sendAck_kept
    | with_reducible apply State.sat_kept
    | with_reducible apply kept_foldl
    | with_reducible apply Kept1.mk
    | split
    | with_reducible intro _

theorem State.routeGroup_kept {q : List Instr} {s : State} {inp : Port} {p : Packet} {owed : Nat} (hs : Kept q s) :
    Kept1 q (State.routeGroup s inp p owed) := by
  delta State.routeGroup
  lift_lets -underBinder
  repeat' first
    | with_reducible assumption
    | (extract_lets +onlyGivenNames -underBinder x; refine (fun hx : Kept q x => ?_) ?_; clear_value x; rotate_left; subst x)
    | (extract_lets +onlyGivenNames -underBinder x; clear_value x)
    | with_reducible apply State.copyOut_kept
    | with_reducible apply State.unreachable_kept
    | with_reducible apply State.tblLook_kept
    | with_reducible apply State.credit_kept
    | with_reducible apply State.sat_kept
    | with_reducible apply kept_foldl
    | with_reducible apply Kept1.mk
    | split
    | with_reducible intro _

theorem State.plyLook_kept {q : List Instr} {s : State} (hs : Kept q s) :
    Kept q (State.plyLook s) := by
  delta State.plyLook
  repeat' first
    | with_reducible assumption
    | with_reducible apply State.tblLook_kept
    | with_reducible apply forN_kept
    | with_reducible intro _

theorem State.plyJoin_kept {q : List Instr} {s : State} {inp : Port} {p : Packet} {owed : Nat} {h : PlyInst} (hs : Kept q s) :
    OptKept q (State.plyJoin s inp p owed h) := by
  delta State.plyJoin
  lift_lets -underBinder
  repeat' first
    | with_reducible assumption
    | (extract_lets +onlyGivenNames -underBinder x; refine (fun hx : Kept q x => ?_) ?_; clear_value x; rotate_left; subst x)
    | (extract_lets +onlyGivenNames -underBinder x; clear_value x)
    | with_reducible apply State.credit_kept
    | with_reducible apply State.sat_kept
    | with_reducible apply OptKept.some
    | with_reducible apply OptKept.none
    | with_reducible refine optkept_ite ?_ ?_
    | with_reducible (refine Kept.other ?_; assumption)

theorem State.plyFirst_kept {q : List Instr} {s : State} {inp : Port} {p : Packet} {owed : Nat} (hs : Kept q s) :
    OptKept q (State.plyFirst s inp p owed) := by
  delta State.plyFirst
  lift_lets -underBinder
  repeat' first
    | with_reducible assumption
    | (extract_lets +onlyGivenNames -underBinder x; refine (fun hx : Kept q x => ?_) ?_; clear_value x; rotate_left; subst x)
    | (extract_lets +onlyGivenNames -underBinder x; clear_value x)
    | with_reducible apply State.credit_kept
    | with_reducible apply State.sat_kept
    | with_reducible apply OptKept.some
    | with_reducible apply OptKept.none
    | with_reducible refine optkept_ite ?_ ?_
    | split
    | with_reducible (refine Kept.other ?_; assumption)

theorem State.plyInput_kept {q : List Instr} {s : State} {inp : Port} {p : Packet} {owed : Nat} (hs : Kept q s) :
    OptKept q (State.plyInput s inp p owed) := by
  delta State.plyInput
  have hx : Kept q s.plyLook := State.plyLook_kept hs
  dsimp only
  generalize s.plyLook = x at hx ⊢
  split
  · exact State.plyJoin_kept hx
  · exact State.plyFirst_kept hx

theorem State.plyForward_kept {q : List Instr} {s : State} {h : PlyInst} (hs : Kept q s) :
    Kept1 q (State.plyForward s h) := by
  delta State.plyForward
  lift_lets -underBinder
  repeat' first
    | with_reducible assumption
    | (extract_lets +onlyGivenNames -underBinder x; refine (fun hx : Kept q x => ?_) ?_; clear_value x; rotate_left; subst x)
    | (extract_lets +onlyGivenNames -underBinder x; clear_value x)
    | with_reducible apply State.hold_kept
    | with_reducible apply State.tick_kept
    | with_reducible apply State.sat_kept
    | with_reducible apply State.put_kept
    | with_reducible apply Kept1.mk
    | split
    | with_reducible (refine Kept.other ?_; assumption)

theorem State.route_kept {q : List Instr} {s : State} {inp : Port} {p : Packet} {owed : Nat} (hs : Kept q s) :
    Kept1 q (State.route s inp p owed) := by
  delta State.route
  lift_lets -underBinder
  repeat' first
    | with_reducible assumption
    | (extract_lets +onlyGivenNames -underBinder x; refine (fun hx : Kept q x => ?_) ?_; clear_value x; rotate_left; subst x)
    | (extract_lets +onlyGivenNames -underBinder x; clear_value x)
    | with_reducible apply State.dieExit_kept
    | with_reducible apply State.stepTo_kept
    | with_reducible apply State.outTo_kept
    | with_reducible apply State.unreachable_kept
    | with_reducible apply State.tblLook_kept
    | with_reducible apply Kept1.mk
    | with_reducible (refine Kept1.snd ?_; apply State.routeGroup_kept)
    | with_reducible (refine Kept1.snd ?_; apply State.routeRect_kept)
    | split

theorem State.granted_kept {q : List Instr} {s : State} {out inp : Port} {vc : BitVec 2} (hs : Kept q s) :
    Kept q (State.granted s out inp vc) := by
  delta State.granted
  lift_lets -underBinder
  repeat' first
    | (extract_lets +onlyGivenNames -underBinder x; clear_value x)
    | split
    | with_reducible (refine Kept.other ?_; assumption)

theorem State.dropHeld_kept {q : List Instr} {s : State} {h : Held} (hs : Kept q s) :
    Kept q (State.dropHeld s h) := by
  delta State.dropHeld
  lift_lets -underBinder
  repeat' first
    | with_reducible assumption
    | (extract_lets +onlyGivenNames -underBinder x; refine (fun hx : Kept q x => ?_) ?_; clear_value x; rotate_left; subst x)
    | (extract_lets +onlyGivenNames -underBinder x; clear_value x)
    | with_reducible apply State.credit_kept
    | with_reducible refine kept_ite ?_ ?_
    | with_reducible (refine Kept.other ?_; assumption)

theorem State.drive_kept {q : List Instr} {s : State} {out : Port} {fs : List (BitVec 512)} {vc : BitVec 2} (hs : Kept q s) :
    Kept q (State.drive s out fs vc) := by
  delta State.drive
  lift_lets -underBinder
  repeat' first
    | (extract_lets +onlyGivenNames -underBinder x; clear_value x)
    | with_reducible (refine Kept.other ?_; assumption)

theorem State.toAdapter_kept {q : List Instr} {s : State} {out : Port} {p : Packet} {esc : Bool} (hs : Kept q s) :
    Kept q (State.toAdapter s out p esc) := by
  delta State.toAdapter
  lift_lets -underBinder
  repeat' first
    | with_reducible assumption
    | (extract_lets +onlyGivenNames -underBinder x; refine (fun hx : Kept q x => ?_) ?_; clear_value x; rotate_left; subst x)
    | (extract_lets +onlyGivenNames -underBinder x; clear_value x)
    | with_reducible apply State.setLnk_kept
    | with_reducible apply State.sat_kept
    | with_reducible refine kept_ite ?_ ?_
    | with_reducible (refine Kept.other ?_; assumption)

theorem State.sendOne_kept {q : List Instr} {s : State} {out : Port} (hs : Kept q s) :
    Kept q (State.sendOne s out) := by
  delta State.sendOne
  repeat' first
    | with_reducible assumption
    | (extract_lets +onlyGivenNames -underBinder x; refine (fun hx : Kept q x => ?_) ?_; clear_value x; rotate_left; subst x)
    | (extract_lets +onlyGivenNames -underBinder x; clear_value x)
    | (extract_lets +onlyGivenNames -underBinder x; subst x)
    | with_reducible apply State.toAdapter_kept
    | with_reducible apply State.drive_kept
    | with_reducible apply State.dropHeld_kept
    | with_reducible apply State.perf_kept
    | with_reducible refine kept_ite ?_ ?_
    | split
    | with_reducible (refine Kept.other ?_; assumption)

theorem State.escMove_kept {q : List Instr} {s : State} {i : Port} {vc : BitVec 2} {owed : Nat} (hs : Kept q s) :
    Kept q (State.escMove s i vc owed) := by
  delta State.escMove
  lift_lets -underBinder
  repeat' first
    | with_reducible assumption
    | (extract_lets +onlyGivenNames -underBinder x; refine (fun hx : Kept q x => ?_) ?_; clear_value x; rotate_left; subst x)
    | (extract_lets +onlyGivenNames -underBinder x; clear_value x)
    | with_reducible apply State.credit_kept
    | with_reducible refine kept_ite ?_ ?_
    | with_reducible (refine Kept.other ?_; assumption)

theorem State.restrand_kept {q : List Instr} {s : State} {h : Held} (hs : Kept q s) :
    Kept q (State.restrand s h) := by
  delta State.restrand
  lift_lets -underBinder
  repeat' first
    | (extract_lets +onlyGivenNames -underBinder x; clear_value x)
    | with_reducible apply State.detour_kept
    | with_reducible (refine Kept.other ?_; assumption)

/-! ### Queue -/

theorem State.discarded_kept {q : List Instr} {s : State} {ty n : Nat} (hs : Kept q s) :
    Kept q (State.discarded s ty n) := by
  delta State.discarded
  lift_lets -underBinder
  repeat' first
    | with_reducible assumption
    | (extract_lets +onlyGivenNames -underBinder x; clear_value x)
    | with_reducible apply State.record_kept
    | with_reducible apply State.tick_kept
    | with_reducible apply forN_kept
    | with_reducible intro _

theorem passing_length {α : Type} (bad : List (Nat × Nat)) (n : Nat) (l : List α) :
    (passing bad n l).length ≤ l.length := by
  unfold passing
  refine Nat.le_trans (List.length_filterMap_le _ _) (Nat.le_trans (List.length_filter_le _ _) ?_)
  simp

theorem State.purge_kept {q : List Instr} {s : State} (hs : Kept q s) :
    Kept q (State.purge s) := by
  delta State.purge
  dsimp only
  split
  · exact hs
  · exact State.discarded_kept (State.discarded_kept (Kept.fifos hs (Nat.le_trans (passing_length _ _ _) hs.db)
      (Nat.le_trans (passing_length _ _ _) hs.imq) hs.cq0 hs.cq1))

theorem State.applyTail_kept {q : List Instr} {s : State} {n t : Nat} (hs : Kept q s) :
    Kept q (State.applyTail s n t) := by
  delta State.applyTail
  lift_lets -underBinder
  repeat' first
    | with_reducible assumption
    | (extract_lets +onlyGivenNames -underBinder x; clear_value x)
    | with_reducible apply State.sat_kept
    | with_reducible apply State.put_kept
    | with_reducible refine kept_ite ?_ ?_

theorem State.restart_kept {qq : List Instr} {s : State} {q : Nat} (hs : Kept qq s) :
    Kept qq (State.restart s q) := by
  delta State.restart
  lift_lets -underBinder
  repeat' first
    | (extract_lets +onlyGivenNames -underBinder x; have hx : Queue := x; clear hx; subst x)
    | with_reducible (refine Kept.queue ?_; assumption)

theorem State.setCq_kept {q : List Instr} {s : State} {c : CtxId} {l : List Word} (hs : Kept q s) (hl : l.length ≤ 32) :
    Kept q (State.setCq s c l) := by
  cases c
  · exact ⟨hs.pending, hs.mem, hs.ctrl, hs.ecc, hs.db, hs.imq, hl, hs.cq1⟩
  · exact ⟨hs.pending, hs.mem, hs.ctrl, hs.ecc, hs.db, hs.imq, hs.cq0, hl⟩

theorem State.cq_length {q : List Instr} {s : State} {c : CtxId} (hs : Kept q s) : (s.cq c).length ≤ 32 := by
  cases c
  · exact hs.cq0
  · exact hs.cq1

theorem State.cqPush_kept {q : List Instr} {s : State} {c : CtxId} {e : Word} (hs : Kept q s) :
    Kept q (State.cqPush s c e) := by
  delta State.cqPush
  extract_lets l x
  have hx : Kept q x := by
    subst x
    split
    · exact State.restart_kept hs
    · exact hs
  clear_value x
  split
  · exact State.put_kept hs
  · apply State.setCq_kept hx
    simp only [List.length_append, List.length_singleton]
    omega

theorem State.cqPop_kept {q : List Instr} {s : State} {c : CtxId} (hs : Kept q s) :
    Kept2 q (State.cqPop s c) := by
  delta State.cqPop
  dsimp only
  split
  · exact State.put_kept hs
  · rename_i e r he
    have hl := State.cq_length (c := c) hs
    rw [he] at hl
    have hx : Kept q (((s.setCq c r).restart (3 + c.num))) :=
      State.restart_kept (State.setCq_kept hs (by simp at hl; omega))
    generalize ((s.setCq c r).restart (3 + c.num)) = x at hx
    cases c
    · exact Kept.queue hx
    · exact Kept.queue hx

theorem State.imqPop_kept {q : List Instr} {s : State} {c : CtxId} (hs : Kept q s) :
    Kept3 q (State.imqPop s c) := by
  delta State.imqPop
  have hs : Kept q s.purge := State.purge_kept hs
  dsimp only
  generalize s.purge = s at hs ⊢
  split
  · exact State.put_kept hs
  · rename_i e he
    have hx : Kept q (s.restart (1 + c.num)) := State.restart_kept hs
    generalize s.restart (1 + c.num) = x at hx
    have hl : (x.qe.imq.erase e).length ≤ 128 := Nat.le_trans List.length_erase_le hx.imq
    cases c
    · exact ⟨hx.pending, hx.mem, hx.ctrl, hx.ecc, hx.db, hl, hx.cq0, hx.cq1⟩
    · exact ⟨hx.pending, hx.mem, hx.ctrl, hx.ecc, hx.db, hl, hx.cq0, hx.cq1⟩

theorem State.mboxSet_kept {q : List Instr} {s : State} {i : Nat} {v : Word} (hs : Kept q s) :
    Kept q (State.mboxSet s i v) := by
  delta State.mboxSet
  repeat' first
    | with_reducible assumption
    | with_reducible apply State.put_kept

theorem State.mboxPost_kept {q : List Instr} {s : State} {c : CtxId} {i : Nat} {v : Word} (hs : Kept q s) :
    Kept2 q (State.mboxPost s c i v) := by
  delta State.mboxPost
  repeat' first
    | with_reducible assumption
    | with_reducible apply State.mboxSet_kept
    | with_reducible apply State.sat_kept
    | with_reducible apply Kept2.mk
    | split

theorem State.writeRecord_kept {q : List Instr} {s : State} {n : Nat} {crec : Word} {d : List Byte} {index : Nat} (hs : Kept q s) :
    Kept q (State.writeRecord s n crec d index) := by
  delta State.writeRecord
  lift_lets -underBinder
  repeat' first
    | with_reducible assumption
    | (extract_lets +onlyGivenNames -underBinder x; refine (fun hl : ∀ a, Kept q a → Kept q (x a) => ?_) ?_; clear_value x; rotate_left; subst x; intro _ _; try dsimp only)
    | (extract_lets +onlyGivenNames -underBinder x; clear_value x)
    | with_reducible apply State.lmWrite_kept
    | with_reducible apply State.record_kept
    | with_reducible apply State.inject_kept
    | with_reducible apply hl
    | with_reducible refine kept_ite ?_ ?_
    | split
    | with_reducible refine Kept2.eq ?_ (by assumption)

theorem State.complete_kept {q : List Instr} {s : State} {n : Nat} {d : List Byte} {index : Nat} {e : DescEnd} {energy dur : Nat} (hs : Kept q s) :
    Kept q (State.complete s n d index e energy dur) := by
  delta State.complete
  lift_lets -underBinder
  repeat' first
    | with_reducible assumption
    | (extract_lets +onlyGivenNames -underBinder x; refine (fun hx : Kept q x => ?_) ?_; clear_value x; rotate_left; subst x)
    | (extract_lets +onlyGivenNames -underBinder x; clear_value x)
    | with_reducible apply State.writeRecord_kept
    | with_reducible apply State.mboxSet_kept
    | with_reducible apply State.cqPush_kept
    | with_reducible apply State.sample_kept
    | with_reducible apply State.setRing_kept
    | with_reducible apply State.perf_kept
    | with_reducible apply State.sat_kept
    | with_reducible apply State.put_kept
    | with_reducible refine kept_ite ?_ ?_

theorem State.release_kept {q : List Instr} {s : State} {n : Nat} (hs : Kept q s) :
    Kept q (State.release s n) := by
  delta State.release
  lift_lets -underBinder
  repeat' first
    | with_reducible assumption
    | (extract_lets +onlyGivenNames -underBinder x; refine (fun hx : Kept q x => ?_) ?_; clear_value x; rotate_left; subst x)
    | (extract_lets +onlyGivenNames -underBinder x; have hx : Queue := x; clear hx; subst x)
    | (extract_lets +onlyGivenNames -underBinder x; clear_value x)
    | with_reducible apply State.setRing_kept
    | with_reducible apply State.put_kept
    | with_reducible (refine Kept.queue ?_; assumption)

theorem State.finish_kept {q : List Instr} {s : State} {n : Nat} {e : DescEnd} (hs : Kept q s) :
    Kept q (State.finish s n e) := by
  delta State.finish
  repeat' first
    | with_reducible assumption
    | with_reducible apply State.release_kept
    | with_reducible apply State.complete_kept
    | split

theorem State.fetchFailed_kept {q : List Instr} {s : State} {n : Nat} (hs : Kept q s) :
    Kept q (State.fetchFailed s n) := by
  delta State.fetchFailed
  lift_lets -underBinder
  repeat' first
    | with_reducible assumption
    | (extract_lets +onlyGivenNames -underBinder x; refine (fun hx : Kept q x => ?_) ?_; clear_value x; rotate_left; subst x)
    | (extract_lets +onlyGivenNames -underBinder x; clear_value x)
    | with_reducible apply State.record_kept
    | with_reducible apply State.put_kept

theorem State.fetched_kept {q : List Instr} {s : State} {n : Nat} {d : List Byte} (hs : Kept q s) :
    Kept q (State.fetched s n d) := by
  delta State.fetched
  lift_lets -underBinder
  repeat' first
    | with_reducible assumption
    | (extract_lets +onlyGivenNames -underBinder x; clear_value x)
    | with_reducible apply State.complete_kept
    | with_reducible apply State.setRing_kept
    | with_reducible apply State.put_kept
    | with_reducible refine kept_ite ?_ ?_

theorem State.fetchHead_kept {q : List Instr} {s : State} {n : Nat} (hs : Kept q s) :
    Kept q (State.fetchHead s n) := by
  delta State.fetchHead
  lift_lets -underBinder
  repeat' first
    | with_reducible assumption
    | (extract_lets +onlyGivenNames -underBinder x; refine (fun hx : Kept q x.2 => ?_) ?_; clear_value x; rotate_left; subst x; change Kept2 q _)
    | (extract_lets +onlyGivenNames -underBinder x; clear_value x)
    | with_reducible apply State.fetched_kept
    | with_reducible apply State.fetchFailed_kept
    | with_reducible apply State.lmRead_kept
    | with_reducible apply State.setRing_kept
    | with_reducible apply State.request_kept
    | with_reducible refine kept_ite ?_ ?_
    | split
    | with_reducible refine Kept2.eq ?_ (by assumption)

theorem State.setEng_kept {q : List Instr} {s : State} {n : Nat} {g : Engine} (hs : Kept q s) :
    Kept q (State.setEng s n g) := by
  delta State.setEng
  lift_lets -underBinder
  repeat' first
    | with_reducible assumption
    | (extract_lets +onlyGivenNames -underBinder x; clear_value x)
    | with_reducible apply State.setRing_kept
    | split

theorem State.setEnd_kept {q : List Instr} {s : State} {n : Nat} {e : DescEnd} (hs : Kept q s) :
    Kept q (State.setEnd s n e) := by
  delta State.setEnd
  lift_lets -underBinder
  repeat' first
    | with_reducible assumption
    | (extract_lets +onlyGivenNames -underBinder x; clear_value x)
    | with_reducible apply State.setRing_kept
    | split

theorem State.dmaReads_kept {q : List Instr} {n : Nat} {c : CtxId} {a0 : List (Nat × Nat)} {s : State} (hs : Kept q s) :
    Kept2 q (State.dmaReads n c a0 s) := by
  induction a0 generalizing s with
  | nil => exact hs
  | cons b r ih =>
    rw [State.dmaReads]
    split
    · split
      · exact (State.lmRead_kept (State.tally_kept hs)).eq (by assumption)
      · rename_i d u hu
        have hu : Kept q u := (State.lmRead_kept (State.tally_kept hs)).eq hu
        split
        · exact (ih hu).eq (by assumption)
        · exact (ih hu).eq (by assumption)
    · exact hs

theorem State.dmaRead_kept {q : List Instr} {s : State} {n : Nat} {c : CtxId} {off len : Nat} (hs : Kept q s) :
    Kept2 q (State.dmaRead s n c off len) := by
  delta State.dmaRead
  repeat' first
    | with_reducible assumption
    | with_reducible apply State.dmaReads_kept

theorem State.dmaWrites_kept {q : List Instr} {n : Nat} {c : CtxId} {off : Nat} {d : List Byte} {a0 : List (Nat × Nat)} {s : State}
    (hs : Kept q s) : Kept2 q (State.dmaWrites n c off d a0 s) := by
  induction a0 generalizing s with
  | nil => exact hs
  | cons b r ih =>
    rw [State.dmaWrites]
    split
    · split
      · exact (State.lmWrite_kept (State.tally_kept hs)).eq (by assumption)
      · rename_i u hu
        exact ih ((State.lmWrite_kept (State.tally_kept hs)).eq hu)
    · exact hs

theorem State.dmaWrite_kept {q : List Instr} {s : State} {n : Nat} {c : CtxId} {off : Nat} {d : List Byte} (hs : Kept q s) :
    Kept2 q (State.dmaWrite s n c off d) := by
  delta State.dmaWrite
  repeat' first
    | with_reducible assumption
    | with_reducible apply State.dmaWrites_kept

theorem State.dmaStep_kept {q : List Instr} {s : State} {n : Nat} {x : Exec} (hs : Kept q s) :
    OptKept q (State.dmaStep s n x) := by
  delta State.dmaStep
  lift_lets -underBinder
  repeat' first
    | with_reducible assumption
    | (extract_lets +onlyGivenNames -underBinder x; refine (fun hx : Kept q x.2 => ?_) ?_; clear_value x; rotate_left; subst x; change Kept2 q _)
    | (extract_lets +onlyGivenNames -underBinder x; refine (fun hl : ∀ a b, Kept q a → OptKept q (x a b) => ?_) ?_; clear_value x; rotate_left; subst x; intro _ _ _; try dsimp only)
    | (extract_lets +onlyGivenNames -underBinder x; clear_value x)
    | with_reducible apply State.dmaWrite_kept
    | with_reducible apply State.dmaRead_kept
    | with_reducible apply State.setEnd_kept
    | with_reducible apply State.setEng_kept
    | with_reducible apply State.request_kept
    | with_reducible apply OptKept.some
    | with_reducible apply OptKept.none
    | with_reducible apply hl
    | with_reducible refine optkept_ite ?_ ?_
    | split
    | with_reducible refine Kept2.eq ?_ (by assumption)

theorem State.readBytes_kept {q : List Instr} {s : State} {n : Nat} {c : CtxId} {g : List Nat} (hs : Kept q s) :
    Kept2 q (State.readBytes s n c g) := by
  delta State.readBytes
  repeat' first
    | with_reducible assumption
    | (extract_lets +onlyGivenNames -underBinder x; refine (fun hx : Kept q x => ?_) ?_; clear_value x; rotate_left; subst x)
    | (extract_lets +onlyGivenNames -underBinder x; clear_value x)
    | with_reducible apply State.eccFailed_kept
    | with_reducible apply State.eccCorrect_kept
    | with_reducible apply State.lmGrant_kept
    | with_reducible apply State.tally_kept
    | with_reducible apply Kept2.mk
    | split

theorem State.gather_kept {q : List Instr} {s : State} {n : Nat} {c : CtxId} {a0 : List (List Nat)} (hs : Kept q s) :
    Kept2 q (State.gather s n c a0) := by
  induction a0 generalizing s with
  | nil => exact hs
  | cons a r ih =>
    simp only [State.gather]
    split
    · exact (State.readBytes_kept hs).eq (by assumption)
    · rename_i b s1 h1
      have k1 : Kept q s1 := (State.readBytes_kept hs).eq h1
      split
      · exact (ih k1).eq (by assumption)
      · exact (ih k1).eq (by assumption)

theorem State.reshardStep_kept {q : List Instr} {s : State} {n : Nat} {x : Exec} (hs : Kept q s) :
    OptKept q (State.reshardStep s n x) := by
  delta State.reshardStep
  extract_lets -underBinder d g c e src dst rows cols total at' m addrs p0 dest da g'
  clear_value g' da dest p0 addrs m at' total cols rows dst src e c g d
  split
  · exact OptKept.none
  · generalize hr : s.gather n c (runReads e addrs) = r
    have hk : Kept2 q (s.gather n c (runReads e addrs)) := State.gather_kept hs
    rw [hr] at hk
    obtain ⟨a, u⟩ := r
    have hu : Kept q u := hk
    clear hr hk hs
    cases a with
    | error st => exact OptKept.some (State.setEnd_kept hu)
    | ok b =>
      dsimp only
      split
      · generalize hw : u.dmaWrite n c da b = w
        have hk : Kept2 q (u.dmaWrite n c da b) := State.dmaWrite_kept hu
        rw [hw] at hk
        obtain ⟨a, v⟩ := w
        have hv : Kept q v := hk
        cases a with
        | some st => exact OptKept.some (State.setEnd_kept hv)
        | none => exact OptKept.some (State.setEng_kept hv)
      · exact OptKept.some (State.setEng_kept (State.request_kept hu).snd)

theorem State.sendPiece_kept {q : List Instr} {s : State} {n : Nat} {g : Engine} {dst : Word} {aux piece need : Nat} {b : List Byte} (hs : Kept q s) :
    Kept q (State.sendPiece s n g dst aux piece need b) := by
  delta State.sendPiece
  lift_lets -underBinder
  repeat' first
    | with_reducible assumption
    | (extract_lets +onlyGivenNames -underBinder x; refine (fun hx : Kept q x.2 => ?_) ?_; clear_value x; rotate_left; subst x; change Kept2 q _)
    | with_reducible apply State.setEng_kept
    | with_reducible apply State.request_kept

theorem State.mcStep_kept {q : List Instr} {s : State} {n : Nat} {x : Exec} (hs : Kept q s) :
    OptKept q (State.mcStep s n x) := by
  delta State.mcStep
  lift_lets -underBinder
  repeat' first
    | with_reducible assumption
    | (extract_lets +onlyGivenNames -underBinder x; clear_value x)
    | with_reducible apply State.sendPiece_kept
    | with_reducible apply State.dmaRead_kept
    | with_reducible apply State.setEnd_kept
    | with_reducible apply OptKept.some
    | with_reducible apply OptKept.none
    | with_reducible refine optkept_ite ?_ ?_
    | split
    | with_reducible refine Kept2.eq ?_ (by assumption)

theorem State.sendPly_kept {q : List Instr} {s : State} {n : Nat} {g : Engine} {cid inst dt : Nat} {root : Bool} {b : List Byte} (hs : Kept q s) :
    Kept q (State.sendPly s n g cid inst dt root b) := by
  delta State.sendPly
  lift_lets -underBinder
  repeat' first
    | with_reducible assumption
    | (extract_lets +onlyGivenNames -underBinder x; refine (fun hx : Kept q x => ?_) ?_; clear_value x; rotate_left; subst x)
    | (extract_lets +onlyGivenNames -underBinder x; clear_value x)
    | with_reducible apply State.setEng_kept
    | with_reducible apply State.injectOf_kept

theorem State.checkRelease_kept {q : List Instr} {s : State} {n : Nat} (hs : Kept q s) :
    Kept q (State.checkRelease s n) := by
  delta State.checkRelease
  repeat' first
    | with_reducible assumption
    | (extract_lets +onlyGivenNames -underBinder x; clear_value x)
    | with_reducible apply State.dmaRead_kept
    | with_reducible apply State.setEnd_kept
    | with_reducible refine kept_ite ?_ ?_
    | split
    | with_reducible refine Kept2.eq ?_ (by assumption)

theorem State.inboundWrote_kept {q : List Instr} {s : State} {off len : Nat} (hs : Kept q s) :
    Kept q (State.inboundWrote s off len) := by
  delta State.inboundWrote
  repeat' first
    | with_reducible assumption
    | (extract_lets +onlyGivenNames -underBinder x; clear_value x)
    | with_reducible apply State.checkRelease_kept
    | with_reducible apply forN_kept
    | with_reducible refine kept_ite ?_ ?_
    | split
    | with_reducible intro _

theorem State.runPieces_kept {q : List Instr} {n : Nat} {step : State → Nat → Exec → Option State} {a0 : Nat} {s : State} (hs : Kept q s) (hstep : ∀ x0 x1 x2, Kept q x0 → OptKept q (step x0 x1 x2)) :
    Kept q (State.runPieces n step a0 s) := by
  induction a0 generalizing s with
  | zero => exact hs
  | succ fuel ih =>
    simp only [State.runPieces]
    split
    · exact hs
    · split
      · exact hs
      · split
        · exact hs
        · exact ih ((hstep _ _ _ hs).eq (by assumption))

theorem State.judge_kept {q : List Instr} {s : State} {n : Nat} (hs : Kept q s) :
    Kept q (State.judge s n) := by
  delta State.judge
  repeat' first
    | with_reducible assumption
    | (extract_lets +onlyGivenNames -underBinder x; clear_value x)
    | with_reducible apply State.setEnd_kept
    | with_reducible refine kept_ite ?_ ?_
    | split

theorem State.runEngine_kept {q : List Instr} {s : State} {n : Nat} (hs : Kept q s) :
    Kept q (State.runEngine s n) := by
  delta State.runEngine
  dsimp only
  split
  · exact hs
  · refine State.judge_kept ?_
    split
    · exact State.runPieces_kept hs fun _ _ _ h => State.dmaStep_kept h
    · exact State.runPieces_kept hs fun _ _ _ h => State.reshardStep_kept h
    · exact State.runPieces_kept hs fun _ _ _ h => State.mcStep_kept h
    · exact hs

theorem State.startEng_kept {q : List Instr} {s : State} {n : Nat} (hs : Kept q s) :
    Kept q (State.startEng s n) := by
  delta State.startEng
  repeat' first
    | with_reducible assumption
    | (extract_lets +onlyGivenNames -underBinder x; clear_value x)
    | with_reducible apply State.setEng_kept
    | split

theorem State.rootWrite_kept {q : List Instr} {s : State} {p : Packet} {off : Nat} (hs : Kept q s) :
    Kept2 q (State.rootWrite s p off) := by
  delta State.rootWrite
  repeat' first
    | with_reducible assumption
    | with_reducible apply State.lmWrite_kept
    | with_reducible apply Kept2.mk
    | split
    | with_reducible refine Kept2.snd (Kept2.mk ?_)
    | with_reducible refine Kept2.eq ?_ (by assumption)

theorem State.rootResult_kept {q : List Instr} {s : State} {p : Packet} (hs : Kept q s) :
    Kept q (State.rootResult s p) := by
  delta State.rootResult
  repeat' first
    | with_reducible assumption
    | (extract_lets +onlyGivenNames -underBinder x; refine (fun hx : Kept q x => ?_) ?_; clear_value x; rotate_left; subst x)
    | (extract_lets +onlyGivenNames -underBinder x; clear_value x)
    | with_reducible apply State.rootWrite_kept
    | with_reducible apply State.sendPiece_kept
    | with_reducible apply State.setEnd_kept
    | with_reducible apply State.setEng_kept
    | with_reducible apply State.sat_kept
    | with_reducible refine kept_ite ?_ ?_
    | split
    | with_reducible refine Kept2.eq ?_ (by assumption)

theorem State.startDesc_kept {q : List Instr} {s : State} {n : Nat} {x : Exec} (hs : Kept q s) :
    Kept q (State.startDesc s n x) := by
  delta State.startDesc
  lift_lets -underBinder
  repeat' first
    | with_reducible assumption
    | (extract_lets +onlyGivenNames -underBinder x; refine (fun hx : Kept q x => ?_) ?_; clear_value x; rotate_left; subst x)
    | (extract_lets +onlyGivenNames -underBinder x; clear_value x)
    | with_reducible apply State.startEng_kept
    | with_reducible apply State.runEngine_kept
    | with_reducible apply State.checkRelease_kept
    | with_reducible apply State.sendPly_kept
    | with_reducible apply State.dmaRead_kept
    | with_reducible apply State.setEnd_kept
    | with_reducible apply State.injectSkein_kept
    | with_reducible apply State.tally_kept
    | with_reducible apply State.put_kept
    | with_reducible apply forN_kept
    | with_reducible refine kept_ite ?_ ?_
    | split
    | with_reducible intro _
    | with_reducible refine Kept2.eq ?_ (by assumption)

theorem State.ringAnswer_kept {q : List Instr} {s : State} {n : Nat} {p : Packet} (hs : Kept q s) :
    Kept q (State.ringAnswer s n p) := by
  delta State.ringAnswer
  repeat' first
    | with_reducible assumption
    | (extract_lets +onlyGivenNames -underBinder x; refine (fun hx : Kept q x => ?_) ?_; clear_value x; rotate_left; subst x)
    | (extract_lets +onlyGivenNames -underBinder x; clear_value x)
    | (extract_lets +onlyGivenNames -underBinder x; subst x)
    | with_reducible apply State.runEngine_kept
    | with_reducible apply State.dmaWrite_kept
    | with_reducible apply State.setEnd_kept
    | with_reducible apply State.setEng_kept
    | with_reducible apply State.settled_kept
    | with_reducible refine kept_ite ?_ ?_
    | split
    | with_reducible refine Kept2.eq ?_ (by assumption)

theorem State.ringDrop_kept {q : List Instr} {s : State} {n : Nat} {p : Packet} (hs : Kept q s) :
    Kept q (State.ringDrop s n p) := by
  delta State.ringDrop
  repeat' first
    | with_reducible assumption
    | (extract_lets +onlyGivenNames -underBinder x; refine (fun hx : Kept q x => ?_) ?_; clear_value x; rotate_left; subst x)
    | (extract_lets +onlyGivenNames -underBinder x; clear_value x)
    | (extract_lets +onlyGivenNames -underBinder x; subst x)
    | with_reducible apply State.runEngine_kept
    | with_reducible apply State.dmaWrite_kept
    | with_reducible apply State.setEng_kept
    | with_reducible apply State.record_kept
    | with_reducible apply State.settled_kept
    | with_reducible apply State.tick_kept
    | with_reducible refine kept_ite ?_ ?_
    | split
    | with_reducible refine Kept2.eq ?_ (by assumption)

theorem State.kdone_kept {q : List Instr} {s : State} {c : CtxId} {status : Nat} (hs : Kept q s) :
    Kept q (State.kdone s c status) := by
  delta State.kdone
  lift_lets -underBinder
  repeat' first
    | with_reducible assumption
    | (extract_lets +onlyGivenNames -underBinder x; refine (fun hl : ∀ a, Kept q a → Kept q (x a) => ?_) ?_; clear_value x; rotate_left; subst x; intro _ _; try dsimp only)
    | (extract_lets +onlyGivenNames -underBinder x; clear_value x)
    | with_reducible apply State.finish_kept
    | with_reducible apply State.put_kept
    | with_reducible apply hl
    | with_reducible refine kept_ite ?_ ?_
    | split
    | with_reducible (refine Kept.other ?_; apply State.tick_kept)

/-! ### Link -/

theorem State.linkEvent_kept {q : List Instr} {s : State} {p : Port} {e : Nat} (hs : Kept q s) :
    Kept q (State.linkEvent s p e) := by
  delta State.linkEvent
  repeat' first
    | with_reducible assumption
    | with_reducible apply State.put_kept

theorem State.linkHealth_kept {q : List Instr} {s : State} {p : Port} {x : LinkPort} (hs : Kept q s) :
    Kept q (State.linkHealth s p x) := by
  delta State.linkHealth
  repeat' first
    | with_reducible assumption
    | with_reducible apply State.setLnk_kept
    | with_reducible apply State.put_kept

theorem State.linkEnter_kept {q : List Instr} {s : State} {p : Port} {st : Nat} (hs : Kept q s) :
    Kept q (State.linkEnter s p st) := by
  delta State.linkEnter
  lift_lets -underBinder
  repeat' first
    | with_reducible assumption
    | (extract_lets +onlyGivenNames -underBinder x; refine (fun hx : Kept q x => ?_) ?_; clear_value x; rotate_left; subst x)
    | (extract_lets +onlyGivenNames -underBinder x; clear_value x)
    | with_reducible apply State.setLnk_kept
    | with_reducible apply State.put_kept

theorem State.linkDark_kept {q : List Instr} {s : State} {p : Port} (hs : Kept q s) :
    Kept q (State.linkDark s p) := by
  delta State.linkDark
  lift_lets -underBinder
  repeat' first
    | with_reducible assumption
    | (extract_lets +onlyGivenNames -underBinder x; refine (fun hx : Kept q x => ?_) ?_; clear_value x; rotate_left; subst x)
    | (extract_lets +onlyGivenNames -underBinder x; clear_value x)
    | with_reducible apply State.setLnk_kept
    | with_reducible apply State.put_kept

theorem State.linkUp_kept {q : List Instr} {s : State} {p : Port} (hs : Kept q s) :
    Kept q (State.linkUp s p) := by
  delta State.linkUp
  lift_lets -underBinder
  repeat' first
    | with_reducible assumption
    | (extract_lets +onlyGivenNames -underBinder x; refine (fun hx : Kept q x => ?_) ?_; clear_value x; rotate_left; subst x)
    | (extract_lets +onlyGivenNames -underBinder x; clear_value x)
    | with_reducible apply State.linkDark_kept
    | with_reducible apply State.linkEnter_kept
    | with_reducible apply State.setLnk_kept

theorem State.linkDisabled_kept {q : List Instr} {s : State} {p : Port} (hs : Kept q s) :
    Kept q (State.linkDisabled s p) := by
  delta State.linkDisabled
  repeat' first
    | with_reducible assumption
    | with_reducible apply State.linkUp_kept
    | with_reducible apply State.linkDark_kept
    | with_reducible apply State.linkEnter_kept
    | with_reducible refine kept_ite ?_ ?_

theorem State.linkRetrain_kept {q : List Instr} {s : State} {p : Port} {limit : BitVec 4} (hs : Kept q s) :
    Kept q (State.linkRetrain s p limit) := by
  delta State.linkRetrain
  lift_lets -underBinder
  repeat' first
    | with_reducible assumption
    | (extract_lets +onlyGivenNames -underBinder x; refine (fun hx : Kept q x => ?_) ?_; clear_value x; rotate_left; subst x)
    | (extract_lets +onlyGivenNames -underBinder x; clear_value x)
    | with_reducible apply State.linkEnter_kept
    | with_reducible apply State.setLnk_kept
    | with_reducible apply State.sat_kept

theorem State.linkCap_kept {q : List Instr} {s : State} {p : Port} {t : BitVec 4} (hs : Kept q s) :
    Kept q (State.linkCap s p t) := by
  delta State.linkCap
  lift_lets -underBinder
  repeat' first
    | with_reducible assumption
    | (extract_lets +onlyGivenNames -underBinder x; refine (fun hx : Kept q x => ?_) ?_; clear_value x; rotate_left; subst x)
    | (extract_lets +onlyGivenNames -underBinder x; clear_value x)
    | (extract_lets +onlyGivenNames -underBinder x; subst x)
    | with_reducible apply State.linkEnter_kept
    | with_reducible apply State.setLnk_kept
    | with_reducible apply State.put_kept
    | with_reducible refine kept_ite ?_ ?_

theorem State.linkFreed_kept {q : List Instr} {s : State} {p : Port} {old : List TxPacket} (hs : Kept q s) :
    Kept q (State.linkFreed s p old) := by
  delta State.linkFreed
  lift_lets -underBinder
  repeat' first
    | (extract_lets +onlyGivenNames -underBinder x; clear_value x)
    | with_reducible (refine Kept.other ?_; assumption)

theorem State.takeBack_kept {q : List Instr} {s : State} {p : Port} (hs : Kept q s) :
    Kept2 q (State.takeBack s p) := by
  delta State.takeBack
  lift_lets -underBinder
  repeat' first
    | with_reducible assumption
    | (extract_lets +onlyGivenNames -underBinder x; refine (fun hx : Kept q x => ?_) ?_; clear_value x; rotate_left; subst x)
    | (extract_lets +onlyGivenNames -underBinder x; clear_value x)
    | with_reducible apply State.linkFreed_kept
    | with_reducible apply State.setLnk_kept
    | with_reducible apply State.sat_kept
    | with_reducible apply Kept2.mk

theorem State.detachEnd_kept {q : List Instr} {s : State} {p : Port} {disable : Bool} (hs : Kept q s) :
    Kept q (State.detachEnd s p disable) := by
  delta State.detachEnd
  lift_lets -underBinder
  repeat' first
    | with_reducible assumption
    | (extract_lets +onlyGivenNames -underBinder x; refine (fun hx : Kept q x => ?_) ?_; clear_value x; rotate_left; subst x)
    | (extract_lets +onlyGivenNames -underBinder x; clear_value x)
    | with_reducible apply State.linkDisabled_kept
    | with_reducible apply State.linkDark_kept
    | with_reducible apply State.linkEnter_kept
    | with_reducible apply State.linkEvent_kept
    | with_reducible apply State.put_kept
    | with_reducible (refine Kept2.snd ?_; apply State.takeBack_kept)
    | with_reducible refine kept_ite ?_ ?_

theorem State.linkReset_kept {q : List Instr} {s : State} {p : Port} (hs : Kept q s) :
    Kept q (State.linkReset s p) := by
  delta State.linkReset
  repeat' first
    | with_reducible assumption
    | with_reducible apply State.detachEnd_kept
    | with_reducible apply State.linkUp_kept
    | with_reducible refine kept_ite ?_ ?_

theorem State.linkFailed_kept {q : List Instr} {s : State} {p : Port} (hs : Kept q s) :
    Kept q (State.linkFailed s p) := by
  delta State.linkFailed
  repeat' first
    | with_reducible assumption
    | with_reducible apply State.detachEnd_kept
    | with_reducible apply State.linkDark_kept
    | with_reducible apply State.linkEnter_kept
    | with_reducible apply State.linkEvent_kept
    | with_reducible refine kept_ite ?_ ?_

theorem State.retireChannel_kept {q : List Instr} {s : State} {p : Port} (hs : Kept q s) :
    Kept q (State.retireChannel s p) := by
  delta State.retireChannel
  lift_lets -underBinder
  repeat' first
    | with_reducible assumption
    | (extract_lets +onlyGivenNames -underBinder x; refine (fun hx : Kept q x.2 => ?_) ?_; clear_value x; rotate_left; subst x; change Kept2 q _)
    | (extract_lets +onlyGivenNames -underBinder x; clear_value x)
    | with_reducible apply State.detachEnd_kept
    | with_reducible apply State.takeBack_kept
    | with_reducible apply State.linkDark_kept
    | with_reducible apply State.linkEnter_kept
    | with_reducible apply State.linkEvent_kept
    | with_reducible apply State.record_kept
    | with_reducible apply State.put_kept
    | with_reducible refine kept_ite ?_ ?_

theorem State.laneRec_kept {q : List Instr} {s : State} {p : Port} {hit m : BitVec 4} (hs : Kept q s) :
    Kept q (State.laneRec s p hit m) := by
  delta State.laneRec
  repeat' first
    | with_reducible assumption
    | with_reducible apply State.record_kept
    | with_reducible apply kept_foldl
    | with_reducible intro _

theorem State.retireLanes_kept {q : List Instr} {s : State} {p : Port} {lanes : BitVec 4} (hs : Kept q s) :
    Kept q (State.retireLanes s p lanes) := by
  delta State.retireLanes
  lift_lets -underBinder
  repeat' first
    | with_reducible assumption
    | (extract_lets +onlyGivenNames -underBinder x; refine (fun hx : Kept q x => ?_) ?_; clear_value x; rotate_left; subst x)
    | (extract_lets +onlyGivenNames -underBinder x; clear_value x)
    | with_reducible apply State.laneRec_kept
    | with_reducible apply State.retireChannel_kept
    | with_reducible apply State.linkRetrain_kept
    | with_reducible apply State.linkHealth_kept
    | with_reducible apply State.setLnk_kept
    | with_reducible refine kept_ite ?_ ?_

theorem State.linkActive_kept {q : List Instr} {s : State} {p : Port} (hs : Kept q s) :
    Kept q (State.linkActive s p) := by
  delta State.linkActive
  lift_lets -underBinder
  repeat' first
    | with_reducible assumption
    | (extract_lets +onlyGivenNames -underBinder x; refine (fun hx : Kept q x => ?_) ?_; clear_value x; rotate_left; subst x)
    | (extract_lets +onlyGivenNames -underBinder x; clear_value x)
    | (extract_lets +onlyGivenNames -underBinder x; subst x)
    | with_reducible apply State.retireLanes_kept
    | with_reducible apply State.linkEnter_kept
    | with_reducible apply State.linkEvent_kept
    | with_reducible apply State.setLnk_kept
    | with_reducible refine kept_ite ?_ ?_

theorem State.linkCapDone_kept {q : List Instr} {s : State} {p : Port} (hs : Kept q s) :
    Kept q (State.linkCapDone s p) := by
  delta State.linkCapDone
  lift_lets -underBinder
  repeat' first
    | with_reducible assumption
    | (extract_lets +onlyGivenNames -underBinder x; clear_value x)
    | with_reducible apply State.linkActive_kept
    | with_reducible refine kept_ite ?_ ?_

theorem State.frameGoes_kept {q : List Instr} {s : State} {p : Port} {ftype seq : Nat} {slots : List Slot} {payload : List Byte} (hs : Kept q s) :
    Kept q (State.frameGoes s p ftype seq slots payload) := by
  delta State.frameGoes
  lift_lets -underBinder
  repeat' first
    | with_reducible assumption
    | (extract_lets +onlyGivenNames -underBinder x; refine (fun hx : Kept q x => ?_) ?_; clear_value x; rotate_left; subst x)
    | (extract_lets +onlyGivenNames -underBinder x; clear_value x)
    | with_reducible apply State.setLnk_kept
    | with_reducible apply State.sat_kept
    | with_reducible refine kept_ite ?_ ?_

theorem State.sendAlign_kept {q : List Instr} {s : State} {p : Port} (hs : Kept q s) :
    Kept q (State.sendAlign s p) := by
  delta State.sendAlign
  lift_lets -underBinder
  repeat' first
    | with_reducible assumption
    | (extract_lets +onlyGivenNames -underBinder x; clear_value x)
    | with_reducible apply State.setLnk_kept

theorem State.resend_kept {q : List Instr} {s : State} {p : Port} {f : TxFrame} (hs : Kept q s) :
    Kept q (State.resend s p f) := by
  delta State.resend
  lift_lets -underBinder
  repeat' first
    | with_reducible assumption
    | (extract_lets +onlyGivenNames -underBinder x; refine (fun hx : Kept q x => ?_) ?_; clear_value x; rotate_left; subst x)
    | (extract_lets +onlyGivenNames -underBinder x; clear_value x)
    | with_reducible apply State.frameGoes_kept
    | with_reducible apply State.setLnk_kept
    | with_reducible apply State.meshBusy_kept
    | with_reducible apply State.sat_kept

theorem State.checkSends_kept {q : List Instr} {s : State} {p : Port} (hs : Kept q s) :
    Kept q (State.checkSends s p) := by
  delta State.checkSends
  repeat' first
    | with_reducible assumption
    | with_reducible apply State.retireChannel_kept
    | with_reducible refine kept_ite ?_ ?_
    | split

theorem State.sendNull_kept {q : List Instr} {s : State} {p : Port} (hs : Kept q s) :
    Kept q (State.sendNull s p) := by
  delta State.sendNull
  lift_lets -underBinder
  repeat' first
    | with_reducible assumption
    | (extract_lets +onlyGivenNames -underBinder x; refine (fun hx : Kept q x => ?_) ?_; clear_value x; rotate_left; subst x)
    | (extract_lets +onlyGivenNames -underBinder x; clear_value x)
    | with_reducible apply State.frameGoes_kept
    | with_reducible apply State.setLnk_kept

theorem State.sendNew_kept {q : List Instr} {s : State} {p : Port} (hs : Kept q s) :
    Kept q (State.sendNew s p) := by
  delta State.sendNew
  lift_lets -underBinder
  repeat' first
    | with_reducible assumption
    | (extract_lets +onlyGivenNames -underBinder x; refine (fun hx : Kept q x => ?_) ?_; clear_value x; rotate_left; subst x)
    | (extract_lets +onlyGivenNames -underBinder x; clear_value x)
    | with_reducible apply State.sendNull_kept
    | with_reducible apply State.checkSends_kept
    | with_reducible apply State.frameGoes_kept
    | with_reducible apply State.linkFreed_kept
    | with_reducible apply State.setLnk_kept
    | with_reducible apply State.meshBusy_kept
    | with_reducible apply State.sat_kept
    | with_reducible refine kept_ite ?_ ?_

theorem State.sendDetach_kept {q : List Instr} {s : State} {p : Port} (hs : Kept q s) :
    Kept q (State.sendDetach s p) := by
  delta State.sendDetach
  lift_lets -underBinder
  repeat' first
    | with_reducible assumption
    | (extract_lets +onlyGivenNames -underBinder x; refine (fun hx : Kept q x => ?_) ?_; clear_value x; rotate_left; subst x)
    | (extract_lets +onlyGivenNames -underBinder x; clear_value x)
    | with_reducible apply State.frameGoes_kept
    | with_reducible apply State.detachEnd_kept
    | with_reducible apply State.setLnk_kept
    | with_reducible refine kept_ite ?_ ?_

theorem State.frameSend_kept {q : List Instr} {s : State} {p : Port} (hs : Kept q s) :
    Kept q (State.frameSend s p) := by
  delta State.frameSend
  lift_lets -underBinder
  repeat' first
    | with_reducible assumption
    | (extract_lets +onlyGivenNames -underBinder x; refine (fun hx : Kept q x => ?_) ?_; clear_value x; rotate_left; subst x)
    | (extract_lets +onlyGivenNames -underBinder x; clear_value x)
    | with_reducible apply State.sendDetach_kept
    | with_reducible apply State.sendNew_kept
    | with_reducible apply State.sendNull_kept
    | with_reducible apply State.checkSends_kept
    | with_reducible apply State.resend_kept
    | with_reducible apply State.sendAlign_kept
    | with_reducible apply State.frameGoes_kept
    | with_reducible apply State.linkCapDone_kept
    | with_reducible apply State.setLnk_kept
    | with_reducible refine kept_ite ?_ ?_
    | split

theorem State.widthDone_kept {q : List Instr} {s : State} {p : Port} (hs : Kept q s) :
    Kept q (State.widthDone s p) := by
  delta State.widthDone
  lift_lets -underBinder
  repeat' first
    | with_reducible assumption
    | (extract_lets +onlyGivenNames -underBinder x; clear_value x)
    | with_reducible apply State.linkEvent_kept
    | with_reducible apply State.setLnk_kept

theorem State.useMask_kept {q : List Instr} {s : State} {p : Port} {m : BitVec 4} (hs : Kept q s) :
    Kept q (State.useMask s p m) := by
  delta State.useMask
  lift_lets -underBinder
  repeat' first
    | with_reducible assumption
    | (extract_lets +onlyGivenNames -underBinder x; clear_value x)
    | with_reducible apply State.setLnk_kept
    | with_reducible apply State.put_kept
    | with_reducible refine kept_ite ?_ ?_

theorem State.widthAsked_kept {q : List Instr} {s : State} {p : Port} {m : BitVec 4} (hs : Kept q s) :
    Kept q (State.widthAsked s p m) := by
  delta State.widthAsked
  lift_lets -underBinder
  repeat' first
    | with_reducible assumption
    | (extract_lets +onlyGivenNames -underBinder x; refine (fun hx : Kept q x => ?_) ?_; clear_value x; rotate_left; subst x)
    | (extract_lets +onlyGivenNames -underBinder x; clear_value x)
    | with_reducible apply State.useMask_kept
    | with_reducible apply State.linkReset_kept
    | with_reducible apply State.setLnk_kept
    | with_reducible refine kept_ite ?_ ?_

theorem State.widthFields_kept {q : List Instr} {s : State} {p : Port} {wreq wack : Bool} {m : BitVec 4} (hs : Kept q s) :
    Kept q (State.widthFields s p wreq wack m) := by
  delta State.widthFields
  lift_lets -underBinder
  repeat' first
    | with_reducible assumption
    | (extract_lets +onlyGivenNames -underBinder x; refine (fun hx : Kept q x => ?_) ?_; clear_value x; rotate_left; subst x)
    | (extract_lets +onlyGivenNames -underBinder x; clear_value x)
    | with_reducible apply State.widthAsked_kept
    | with_reducible apply State.useMask_kept
    | with_reducible apply State.widthDone_kept
    | with_reducible apply State.setLnk_kept
    | with_reducible refine kept_ite ?_ ?_

theorem State.frameCredit_kept {q : List Instr} {s : State} {p : Port} {h : Nat} (hs : Kept q s) :
    Kept q (State.frameCredit s p h) := by
  delta State.frameCredit
  lift_lets -underBinder
  repeat' first
    | with_reducible assumption
    | (extract_lets +onlyGivenNames -underBinder x; refine (fun hx : Kept q x => ?_) ?_; clear_value x; rotate_left; subst x)
    | (extract_lets +onlyGivenNames -underBinder x; clear_value x)
    | with_reducible apply State.setLnk_kept
    | with_reducible apply State.sampleTime_kept
    | with_reducible apply forN_kept
    | with_reducible intro _

theorem State.frameFields_kept {q : List Instr} {s : State} {p : Port} {h : Nat} (hs : Kept q s) :
    Kept q (State.frameFields s p h) := by
  delta State.frameFields
  lift_lets -underBinder
  repeat' first
    | with_reducible assumption
    | (extract_lets +onlyGivenNames -underBinder x; refine (fun hx : Kept q x => ?_) ?_; clear_value x; rotate_left; subst x)
    | (extract_lets +onlyGivenNames -underBinder x; clear_value x)
    | with_reducible apply State.frameCredit_kept
    | with_reducible apply State.widthFields_kept
    | with_reducible apply State.setLnk_kept
    | with_reducible apply State.sat_kept
    | with_reducible refine kept_ite ?_ ?_

theorem State.acceptFlit_kept {qq : List Instr} {p : Port} {s : State} {q : Slot} (hs : Kept qq s) :
    Kept qq (State.acceptFlit p s q) := by
  delta State.acceptFlit
  lift_lets -underBinder
  repeat' first
    | with_reducible assumption
    | (extract_lets +onlyGivenNames -underBinder x; refine (fun hx : Kept qq x => ?_) ?_; clear_value x; rotate_left; subst x)
    | (extract_lets +onlyGivenNames -underBinder x; clear_value x)
    | with_reducible apply State.setLnk_kept
    | with_reducible apply State.meshBusy_kept
    | with_reducible refine kept_ite ?_ ?_

theorem State.dataGood_kept {q : List Instr} {s : State} {p : Port} {h : Nat} {payload : List Byte} (hs : Kept q s) :
    Kept q (State.dataGood s p h payload) := by
  delta State.dataGood
  lift_lets -underBinder
  repeat' first
    | with_reducible assumption
    | (extract_lets +onlyGivenNames -underBinder x; refine (fun hx : Kept q x => ?_) ?_; clear_value x; rotate_left; subst x)
    | (extract_lets +onlyGivenNames -underBinder x; clear_value x)
    | with_reducible apply State.acceptFlit_kept
    | with_reducible apply State.setLnk_kept
    | with_reducible apply State.sat_kept
    | with_reducible apply kept_foldl
    | with_reducible refine kept_ite ?_ ?_

theorem State.frameBad_kept {q : List Instr} {s : State} {p : Port} (hs : Kept q s) :
    Kept q (State.frameBad s p) := by
  delta State.frameBad
  lift_lets -underBinder
  repeat' first
    | with_reducible assumption
    | (extract_lets +onlyGivenNames -underBinder x; refine (fun hx : Kept q x => ?_) ?_; clear_value x; rotate_left; subst x)
    | (extract_lets +onlyGivenNames -underBinder x; clear_value x)
    | (extract_lets +onlyGivenNames -underBinder x; subst x)
    | with_reducible apply State.retireChannel_kept
    | with_reducible apply State.linkRetrain_kept
    | with_reducible apply State.setLnk_kept
    | with_reducible apply State.sat_kept
    | with_reducible refine kept_ite ?_ ?_

theorem State.capGood_kept {q : List Instr} {s : State} {p : Port} {b : List Byte} (hs : Kept q s) :
    Kept q (State.capGood s p b) := by
  delta State.capGood
  lift_lets -underBinder
  repeat' first
    | with_reducible assumption
    | (extract_lets +onlyGivenNames -underBinder x; refine (fun hx : Kept q x => ?_) ?_; clear_value x; rotate_left; subst x)
    | (extract_lets +onlyGivenNames -underBinder x; clear_value x)
    | with_reducible apply State.linkCapDone_kept
    | with_reducible apply State.linkFailed_kept
    | with_reducible apply State.setLnk_kept
    | with_reducible apply State.put_kept
    | with_reducible refine kept_ite ?_ ?_

theorem State.frameGood_kept {q : List Instr} {s : State} {p : Port} {h : Nat} {payload : List Byte} (hs : Kept q s) :
    Kept q (State.frameGood s p h payload) := by
  delta State.frameGood
  lift_lets -underBinder
  repeat' first
    | with_reducible assumption
    | (extract_lets +onlyGivenNames -underBinder x; refine (fun hx : Kept q x => ?_) ?_; clear_value x; rotate_left; subst x)
    | (extract_lets +onlyGivenNames -underBinder x; clear_value x)
    | with_reducible apply State.dataGood_kept
    | with_reducible apply State.frameFields_kept
    | with_reducible apply State.frameCredit_kept
    | with_reducible apply State.detachEnd_kept
    | with_reducible apply State.setLnk_kept
    | with_reducible refine kept_ite ?_ ?_
    | split

theorem State.rxGood_kept {q : List Instr} {s : State} {p : Port} {f : List Byte} (hs : Kept q s) :
    Kept q (State.rxGood s p f) := by
  delta State.rxGood
  lift_lets -underBinder
  repeat' first
    | with_reducible assumption
    | (extract_lets +onlyGivenNames -underBinder x; refine (fun hx : Kept q x => ?_) ?_; clear_value x; rotate_left; subst x)
    | (extract_lets +onlyGivenNames -underBinder x; clear_value x)
    | with_reducible apply State.frameGood_kept
    | with_reducible apply State.capGood_kept
    | with_reducible apply State.frameCredit_kept
    | with_reducible apply State.setLnk_kept
    | with_reducible refine kept_ite ?_ ?_

theorem State.rxFrame_kept {q : List Instr} {s : State} {p : Port} {rx : List (List LaneWord)} (hs : Kept q s) :
    Kept q (State.rxFrame s p rx) := by
  delta State.rxFrame
  lift_lets -underBinder
  repeat' first
    | with_reducible assumption
    | (extract_lets +onlyGivenNames -underBinder x; clear_value x)
    | with_reducible apply State.rxGood_kept
    | with_reducible apply State.frameBad_kept
    | with_reducible apply State.setLnk_kept
    | with_reducible refine kept_ite ?_ ?_
    | split

theorem State.alignWord_kept {q : List Instr} {s : State} {p : Port} {rx : List LaneWord} (hs : Kept q s) :
    Kept q (State.alignWord s p rx) := by
  delta State.alignWord
  lift_lets -underBinder
  repeat' first
    | with_reducible assumption
    | (extract_lets +onlyGivenNames -underBinder x; refine (fun hx : Kept q x => ?_) ?_; clear_value x; rotate_left; subst x)
    | (extract_lets +onlyGivenNames -underBinder x; clear_value x)
    | with_reducible apply State.linkReset_kept
    | with_reducible apply State.linkCap_kept
    | with_reducible apply State.setLnk_kept
    | with_reducible refine kept_ite ?_ ?_
    | split

theorem State.lanesShow_kept {q : List Instr} {s : State} {p : Port} {v : BitVec 16} (hs : Kept q s) :
    Kept q (State.lanesShow s p v) := by
  delta State.lanesShow
  lift_lets -underBinder
  repeat' first
    | with_reducible assumption
    | (extract_lets +onlyGivenNames -underBinder x; clear_value x)
    | with_reducible apply State.linkHealth_kept

theorem State.laneLoss_kept {q : List Instr} {s : State} {p : Port} {v : BitVec 16} (hs : Kept q s) :
    Kept q (State.laneLoss s p v) := by
  delta State.laneLoss
  lift_lets -underBinder
  repeat' first
    | with_reducible assumption
    | (extract_lets +onlyGivenNames -underBinder x; refine (fun hx : Kept q x => ?_) ?_; clear_value x; rotate_left; subst x)
    | (extract_lets +onlyGivenNames -underBinder x; clear_value x)
    | with_reducible apply State.lanesShow_kept
    | with_reducible apply State.retireLanes_kept
    | with_reducible apply State.retireChannel_kept
    | with_reducible apply State.detachEnd_kept
    | with_reducible apply State.setLnk_kept
    | with_reducible refine kept_ite ?_ ?_

theorem State.fecUnc_kept {q : List Instr} {s : State} {p : Port} {l : BitVec 2} (hs : Kept q s) :
    Kept q (State.fecUnc s p l) := by
  delta State.fecUnc
  lift_lets -underBinder
  repeat' first
    | with_reducible assumption
    | (extract_lets +onlyGivenNames -underBinder x; refine (fun hx : Kept q x => ?_) ?_; clear_value x; rotate_left; subst x)
    | (extract_lets +onlyGivenNames -underBinder x; clear_value x)
    | with_reducible apply State.retireLanes_kept
    | with_reducible apply State.setLnk_kept
    | with_reducible apply State.sat_kept
    | with_reducible refine kept_ite ?_ ?_

theorem State.fecCor_kept {q : List Instr} {s : State} {p : Port} {l : BitVec 2} {count : Nat} (hs : Kept q s) :
    Kept q (State.fecCor s p l count) := by
  delta State.fecCor
  lift_lets -underBinder
  repeat' first
    | with_reducible assumption
    | (extract_lets +onlyGivenNames -underBinder x; refine (fun hx : Kept q x => ?_) ?_; clear_value x; rotate_left; subst x)
    | (extract_lets +onlyGivenNames -underBinder x; clear_value x)
    | with_reducible apply State.retireLanes_kept
    | with_reducible apply State.setLnk_kept
    | with_reducible apply State.sat_kept
    | with_reducible refine kept_ite ?_ ?_

theorem State.windowEnd_kept {q : List Instr} {s : State} {p : Port} (hs : Kept q s) :
    Kept q (State.windowEnd s p) := by
  delta State.windowEnd
  lift_lets -underBinder
  repeat' first
    | with_reducible assumption
    | (extract_lets +onlyGivenNames -underBinder x; refine (fun hx : Kept q x => ?_) ?_; clear_value x; rotate_left; subst x)
    | (extract_lets +onlyGivenNames -underBinder x; clear_value x)
    | with_reducible apply State.retireLanes_kept
    | with_reducible apply State.retireChannel_kept
    | with_reducible apply State.setLnk_kept
    | with_reducible refine kept_ite ?_ ?_

theorem State.lnkCtl_kept {q : List Instr} {s : State} {p : Port} {v : Nat} (hs : Kept q s) :
    Kept q (State.lnkCtl s p v) := by
  delta State.lnkCtl
  lift_lets -underBinder
  repeat' first
    | with_reducible assumption
    | (extract_lets +onlyGivenNames -underBinder x; refine (fun hx : Kept q x => ?_) ?_; clear_value x; rotate_left; subst x)
    | (extract_lets +onlyGivenNames -underBinder x; clear_value x)
    | with_reducible apply State.retireLanes_kept
    | with_reducible apply State.detachEnd_kept
    | with_reducible apply State.linkDisabled_kept
    | with_reducible apply State.linkUp_kept
    | with_reducible apply State.setLnk_kept
    | with_reducible apply State.put_kept
    | with_reducible refine kept_ite ?_ ?_

theorem State.linkTick_kept {q : List Instr} {s : State} {p : Port} (hs : Kept q s) :
    Kept q (State.linkTick s p) := by
  delta State.linkTick
  lift_lets -underBinder
  repeat' first
    | with_reducible assumption
    | (extract_lets +onlyGivenNames -underBinder x; clear_value x)
    | with_reducible apply State.setLnk_kept
    | with_reducible refine kept_ite ?_ ?_

theorem State.linksReady_kept {q : List Instr} {s : State} (hs : Kept q s) :
    Kept q (State.linksReady s) := by
  delta State.linksReady
  repeat' first
    | with_reducible assumption
    | with_reducible apply State.linkUp_kept
    | with_reducible apply kept_foldl
    | split
    | with_reducible intro _

/-! ### Registers -/

theorem State.readReg_kept {q : List Instr} {s : State} {a : Acc} {off : Nat} (hs : Kept q s) :
    Kept2 q (State.readReg s a off) := by
  delta State.readReg
  repeat' first
    | with_reducible assumption
    | (extract_lets +onlyGivenNames -underBinder x; clear_value x)
    | with_reducible apply State.setReg_kept
    | with_reducible apply Kept2.mk
    | with_reducible (refine Kept2.snd ?_; apply State.cqPop_kept)
    | split

theorem State.plainWrite_kept {q : List Instr} {s : State} {off : Nat} {v : Nat} (hs : Kept q s) :
    Kept q (State.plainWrite s off v) := by
  delta State.plainWrite
  repeat' first
    | with_reducible assumption
    | with_reducible apply State.setReg_kept
    | split

theorem State.extend_kept {q : List Instr} {s : State} {i : Nat} {d : List Byte} (hs : Kept q s) :
    Kept q (State.extend s i d) := by
  delta State.extend
  lift_lets -underBinder
  repeat' first
    | with_reducible assumption
    | (extract_lets +onlyGivenNames -underBinder x; clear_value x)
    | with_reducible apply State.put_kept
    | with_reducible apply forN_kept
    | with_reducible intro _

theorem State.requestReset_kept {q : List Instr} {s : State} (hs : Kept q s) :
    Kept q (State.requestReset s) := by
  delta State.requestReset
  lift_lets -underBinder
  repeat' first
    | with_reducible assumption
    | (extract_lets +onlyGivenNames -underBinder x; clear_value x)
    | with_reducible refine kept_ite ?_ ?_
    | with_reducible (refine Kept.other ?_; assumption)

theorem State.monClear_kept {q : List Instr} {s : State} {i : Nat} (hs : Kept q s) :
    Kept q (State.monClear s i) := by
  delta State.monClear
  lift_lets -underBinder
  repeat' first
    | with_reducible assumption
    | (extract_lets +onlyGivenNames -underBinder x; refine (fun hx : Kept q x => ?_) ?_; clear_value x; rotate_left; subst x)
    | with_reducible apply State.put_kept
    | with_reducible apply State.setReg_kept
    | with_reducible apply forN_kept
    | with_reducible intro _

theorem State.meshKeeps_kept {q : List Instr} {s : State} (hs : Kept q s) :
    Kept q (State.meshKeeps s) := by
  delta State.meshKeeps
  repeat' first
    | with_reducible assumption
    | with_reducible apply State.meshBusy_kept
    | with_reducible refine kept_ite ?_ ?_

theorem State.keyClear_kept {q : List Instr} {s : State} {c : Nat} (hs : Kept q s) :
    Kept q (State.keyClear s c) := by
  delta State.keyClear
  repeat' first
    | with_reducible assumption
    | with_reducible apply State.put_kept
    | with_reducible apply forN_kept
    | with_reducible intro _

theorem State.fcClear_kept {q : List Instr} {s : State} (hs : Kept q s) :
    Kept q (State.fcClear s) := by
  delta State.fcClear
  repeat' first
    | with_reducible assumption
    | with_reducible apply State.put_kept
    | with_reducible apply forN_kept
    | with_reducible intro _

theorem State.ringCfg_kept {q : List Instr} {s : State} {n v : Nat} (hs : Kept q s) :
    Kept q (State.ringCfg s n v) := by
  delta State.ringCfg
  lift_lets -underBinder
  repeat' first
    | with_reducible assumption
    | (extract_lets +onlyGivenNames -underBinder x; refine (fun hx : Kept q x => ?_) ?_; clear_value x; rotate_left; subst x)
    | (extract_lets +onlyGivenNames -underBinder x; clear_value x)
    | (extract_lets +onlyGivenNames -underBinder x; subst x)
    | with_reducible apply State.plainWrite_kept
    | with_reducible apply State.setRing_kept
    | with_reducible apply State.put_kept
    | with_reducible refine kept_ite ?_ ?_

theorem State.ringTail_kept {q : List Instr} {s : State} {n v : Nat} (hs : Kept q s) :
    Kept q (State.ringTail s n v) := by
  delta State.ringTail
  lift_lets -underBinder
  repeat' first
    | with_reducible assumption
    | (extract_lets +onlyGivenNames -underBinder x; clear_value x)
    | with_reducible apply State.applyTail_kept
    | with_reducible refine kept_ite ?_ ?_

theorem State.mboxAck_kept {q : List Instr} {s : State} {a : Acc} {v : Nat} (hs : Kept q s) :
    Kept q (State.mboxAck s a v) := by
  delta State.mboxAck
  lift_lets -underBinder
  repeat' first
    | with_reducible assumption
    | (extract_lets +onlyGivenNames -underBinder x; clear_value x)
    | with_reducible apply State.put_kept

theorem State.psCommand_kept {q : List Instr} {s : State} {v : Nat} (hs : Kept q s) :
    Kept q (State.psCommand s v) := by
  delta State.psCommand
  lift_lets -underBinder
  repeat' first
    | with_reducible assumption
    | (extract_lets +onlyGivenNames -underBinder x; clear_value x)
    | with_reducible apply State.put_kept
    | with_reducible refine kept_ite ?_ ?_

theorem State.portFailWrite_kept {q : List Instr} {s : State} {v : Nat} (hs : Kept q s) :
    Kept q (State.portFailWrite s v) := by
  delta State.portFailWrite
  lift_lets -underBinder
  repeat' first
    | with_reducible assumption
    | (extract_lets +onlyGivenNames -underBinder x; refine (fun hx : Kept q x => ?_) ?_; clear_value x; rotate_left; subst x)
    | (extract_lets +onlyGivenNames -underBinder x; clear_value x)
    | with_reducible apply State.plainWrite_kept
    | with_reducible (refine Kept.other ?_; assumption)

theorem State.bootGo_kept {q : List Instr} {s : State} (hs : Kept q s) :
    Kept q (State.bootGo s) := by
  delta State.bootGo
  repeat' first
    | with_reducible assumption
    | with_reducible apply State.put_kept

theorem State.writeReg_kept {q : List Instr} {s : State} {a : Acc} {off : Nat} {w : Word} (hs : Kept q s) :
    Kept q (State.writeReg s a off w) := by
  delta State.writeReg
  lift_lets -underBinder
  repeat' first
    | with_reducible assumption
    | (extract_lets +onlyGivenNames -underBinder x; refine (fun hx : Kept q x => ?_) ?_; clear_value x; rotate_left; subst x)
    | (extract_lets +onlyGivenNames -underBinder x; clear_value x)
    | with_reducible apply State.bootGo_kept
    | with_reducible apply State.portFailWrite_kept
    | with_reducible apply State.psCommand_kept
    | with_reducible apply State.mboxAck_kept
    | with_reducible apply State.ringTail_kept
    | with_reducible apply State.ringCfg_kept
    | with_reducible apply State.fcClear_kept
    | with_reducible apply State.keyClear_kept
    | with_reducible apply State.meshKeeps_kept
    | with_reducible apply State.monClear_kept
    | with_reducible apply State.requestReset_kept
    | with_reducible apply State.extend_kept
    | with_reducible apply State.plainWrite_kept
    | with_reducible apply State.lnkCtl_kept
    | with_reducible apply State.kdone_kept
    | with_reducible apply State.tblWritten_kept
    | with_reducible apply State.swTrigger_kept
    | with_reducible apply State.hwSet_kept
    | with_reducible apply State.put_kept
    | with_reducible refine kept_ite ?_ ?_
    | split
    | with_reducible (refine Kept.other ?_; assumption)

theorem State.readRegs_kept {q : List Instr} {s : State} {a : Acc} {a0 : List Nat} (hs : Kept q s) :
    Kept2 q (State.readRegs s a a0) := by
  induction a0 generalizing s with
  | nil => exact hs
  | cons a r ih =>
  rw [State.readRegs]
  repeat' first
    | with_reducible assumption
    | with_reducible apply Kept2.mk
    | with_reducible (refine Kept2.snd ?_; apply State.readReg_kept)
    | with_reducible (refine Kept2.snd ?_; apply ih)

theorem State.remoteRead_kept {q : List Instr} {s : State} {host : Bool} {off n : Nat} (hs : Kept q s) :
    Kept2 q (State.remoteRead s host off n) := by
  delta State.remoteRead
  lift_lets -underBinder
  repeat' first
    | with_reducible assumption
    | (extract_lets +onlyGivenNames -underBinder x; refine (fun hx : Kept q x.2 => ?_) ?_; clear_value x; rotate_left; subst x; change Kept2 q _)
    | (extract_lets +onlyGivenNames -underBinder x; clear_value x)
    | with_reducible apply State.readRegs_kept
    | with_reducible apply Kept2.mk
    | split

theorem State.remoteWrite_kept {q : List Instr} {s : State} {host : Bool} {off : Nat} {d : List Byte} (hs : Kept q s) :
    Kept2 q (State.remoteWrite s host off d) := by
  delta State.remoteWrite
  lift_lets -underBinder
  repeat' first
    | with_reducible assumption
    | (extract_lets +onlyGivenNames -underBinder x; clear_value x)
    | with_reducible apply State.writeReg_kept
    | with_reducible apply kept_foldl
    | with_reducible apply Kept2.mk
    | split
    | with_reducible intro _

theorem State.refuse_kept {q : List Instr} {s : State} {p : Packet} {st : BitVec 8} (hs : Kept q s) :
    Kept q (State.refuse s p st) := by
  delta State.refuse
  lift_lets -underBinder
  repeat' first
    | with_reducible assumption
    | (extract_lets +onlyGivenNames -underBinder x; refine (fun hx : Kept q x => ?_) ?_; clear_value x; rotate_left; subst x)
    | with_reducible apply State.record_kept
    | with_reducible apply State.sendError_kept
    | with_reducible apply State.sat_kept
    | with_reducible refine kept_ite ?_ ?_

theorem State.ackWrite_kept {q : List Instr} {s : State} {p : Packet} (hs : Kept q s) :
    Kept q (State.ackWrite s p) := by
  delta State.ackWrite
  repeat' first
    | with_reducible assumption
    | with_reducible apply State.sendAck_kept
    | with_reducible refine kept_ite ?_ ?_

theorem State.coreRefused_kept {q : List Instr} {s : State} {off : Nat} (hs : Kept q s) :
    Kept q (State.coreRefused s off) := by
  delta State.coreRefused
  repeat' first
    | with_reducible assumption
    | with_reducible apply State.raise_kept
    | with_reducible apply State.tick_kept

theorem State.regRefused_kept {q : List Instr} {s : State} {who : Requester} {off : Nat} {write : Bool} {req : Packet} (hs : Kept q s) :
    Kept q (State.regRefused s who off write req) := by
  delta State.regRefused
  repeat' first
    | with_reducible assumption
    | with_reducible apply State.coreRefused_kept
    | with_reducible apply State.refuse_kept
    | with_reducible apply State.sendFenced_kept
    | with_reducible refine kept_ite ?_ ?_
    | split

theorem State.regCommand_kept {q : List Instr} {s : State} {w : RegWr} {off : Nat} (hs : Kept q s) :
    Kept q (State.regCommand s w off) := by
  delta State.regCommand
  lift_lets -underBinder
  repeat' first
    | with_reducible assumption
    | (extract_lets +onlyGivenNames -underBinder x; clear_value x)
    | with_reducible apply State.regRefused_kept
    | with_reducible apply State.ackWrite_kept
    | with_reducible apply State.writeReg_kept
    | with_reducible refine kept_ite ?_ ?_

theorem State.readCommand_kept {q : List Instr} {s : State} {who : Requester} {off : Nat} {req : Packet} (hs : Kept q s) :
    Kept q (State.readCommand s who off req) := by
  delta State.readCommand
  lift_lets -underBinder
  repeat' first
    | with_reducible assumption
    | (extract_lets +onlyGivenNames -underBinder x; refine (fun hx : Kept q x.2 => ?_) ?_; clear_value x; rotate_left; subst x; change Kept2 q _)
    | (extract_lets +onlyGivenNames -underBinder x; clear_value x)
    | with_reducible apply State.regRefused_kept
    | with_reducible apply State.readReg_kept
    | with_reducible apply State.sendData_kept
    | with_reducible refine kept_ite ?_ ?_

end Sys2Proof.Machine
end

