-- ==== Sys2Proof/Laws/KeptCore.lean ====
section
/-! SUPPORT. The caches, the Chest, the accumulators, the system registers, issue and delivery keep `Kept`. One lemma per definition. -/

set_option Elab.async false

namespace Sys2Proof.Machine

/-! ### Cache -/

theorem State.l1dTouch_kept {q : List Instr} {s : State} {a : Word} {w : Nat} (hs : Kept q s) :
    Kept q (State.l1dTouch s a w) := by
  delta State.l1dTouch
  lift_lets -underBinder
  repeat' first
    | (extract_lets +onlyGivenNames -underBinder x; clear_value x)
    | with_reducible (refine Kept.other ?_; assumption)

theorem State.l1dPut_kept {q : List Instr} {s : State} {a : Word} {w : Nat} {l : Line} (hs : Kept q s) :
    Kept q (State.l1dPut s a w l) := by
  delta State.l1dPut
  lift_lets -underBinder
  repeat' first
    | (extract_lets +onlyGivenNames -underBinder x; clear_value x)
    | with_reducible (refine Kept.other ?_; assumption)

theorem State.displace_kept {q : List Instr} {s : State} {l : Line} (hs : Kept q s) :
    Kept q (State.displace s l) := by
  delta State.displace
  lift_lets -underBinder
  repeat' first
    | with_reducible assumption
    | (extract_lets +onlyGivenNames -underBinder x; clear_value x)
    | with_reducible refine kept_ite ?_ ?_
    | split
    | with_reducible (refine Kept.other ?_; assumption)

theorem State.l1dAllocate_kept {q : List Instr} {s : State} {a : Word} {l : Line} (hs : Kept q s) :
    Kept q (State.l1dAllocate s a l) := by
  delta State.l1dAllocate
  lift_lets -underBinder
  repeat' first
    | with_reducible assumption
    | (extract_lets +onlyGivenNames -underBinder x; clear_value x)
    | with_reducible apply State.displace_kept
    | with_reducible apply State.l1dPut_kept
    | with_reducible apply State.l1dTouch_kept

theorem State.recall_kept {q : List Instr} {s : State} {a : Word} {v : Victim} (hs : Kept q s) :
    Kept q (State.recall s a v) := by
  delta State.recall
  lift_lets -underBinder
  repeat' first
    | (extract_lets +onlyGivenNames -underBinder x; clear_value x)
    | with_reducible apply State.l1dAllocate_kept
    | with_reducible (refine Kept.other ?_; assumption)

theorem State.l1Purge_kept {q : List Instr} {s : State} {a : Word} (hs : Kept q s) :
    Kept q (State.l1Purge s a) := by
  delta State.l1Purge
  lift_lets -underBinder
  repeat' first
    | with_reducible assumption
    | (extract_lets +onlyGivenNames -underBinder x; clear_value x)
    | with_reducible apply State.hwAdd_kept
    | with_reducible refine kept_ite ?_ ?_
    | with_reducible (refine Kept.other ?_; assumption)

theorem State.cacheLoad_kept {q : List Instr} {s : State} {c : CtxId} {a : Word} {n code : Nat} (hs : Kept q s) :
    Kept2 q (State.cacheLoad s c a n code) := by
  delta State.cacheLoad
  lift_lets -underBinder
  repeat' first
    | with_reducible assumption
    | (extract_lets +onlyGivenNames -underBinder x; refine (fun hx : Kept q x => ?_) ?_; clear_value x; rotate_left; subst x)
    | (extract_lets +onlyGivenNames -underBinder x; clear_value x)
    | with_reducible apply State.l1Purge_kept
    | with_reducible apply State.recall_kept
    | with_reducible apply State.l1dTouch_kept
    | with_reducible apply State.perf_kept
    | with_reducible apply Kept2.mk
    | split

theorem State.cacheFill_kept {q : List Instr} {s : State} {c : CtxId} {a : Word} {d : List Byte} (hs : Kept q s) :
    Kept q (State.cacheFill s c a d) := by
  delta State.cacheFill
  lift_lets -underBinder
  repeat' first
    | with_reducible assumption
    | (extract_lets +onlyGivenNames -underBinder x; refine (fun hx : Kept q x => ?_) ?_; clear_value x; rotate_left; subst x)
    | (extract_lets +onlyGivenNames -underBinder x; clear_value x)
    | with_reducible apply State.l1Purge_kept
    | with_reducible apply State.l1dAllocate_kept
    | with_reducible apply State.l1dPut_kept
    | with_reducible apply State.l1dTouch_kept
    | split
    | with_reducible (refine Kept.other ?_; assumption)

theorem State.cacheStore_kept {q : List Instr} {s : State} {c : CtxId} {a : Word} {d : List Byte} (hs : Kept q s) :
    Kept q (State.cacheStore s c a d) := by
  delta State.cacheStore
  lift_lets -underBinder
  repeat' first
    | with_reducible assumption
    | (extract_lets +onlyGivenNames -underBinder x; refine (fun hx : Kept q x => ?_) ?_; clear_value x; rotate_left; subst x)
    | (extract_lets +onlyGivenNames -underBinder x; clear_value x)
    | with_reducible apply State.l1Purge_kept
    | with_reducible apply State.l1dPut_kept
    | with_reducible refine kept_ite ?_ ?_
    | split
    | with_reducible (refine Kept.other ?_; assumption)

theorem State.invalLine_kept {q : List Instr} {s : State} {inst : Bool} {a : Word} (hs : Kept q s) :
    Kept q (State.invalLine s inst a) := by
  delta State.invalLine
  lift_lets -underBinder
  repeat' first
    | (extract_lets +onlyGivenNames -underBinder x; clear_value x)
    | split
    | with_reducible (refine Kept.other ?_; assumption)

theorem State.invalAll_kept {q : List Instr} {s : State} {inst : Bool} (hs : Kept q s) :
    Kept q (State.invalAll s inst) := by
  delta State.invalAll
  lift_lets -underBinder
  repeat' first
    | (extract_lets +onlyGivenNames -underBinder x; clear_value x)
    | split
    | with_reducible (refine Kept.other ?_; assumption)

theorem State.invalSector_kept {q : List Instr} {s : State} {a : Word} (hs : Kept q s) :
    Kept q (State.invalSector s a) := by
  delta State.invalSector
  lift_lets -underBinder
  repeat' first
    | (extract_lets +onlyGivenNames -underBinder x; clear_value x)
    | with_reducible (refine Kept.other ?_; assumption)

theorem State.swapL1_kept {q : List Instr} {s : State} (hs : Kept q s) :
    Kept q (State.swapL1 s) := by
  delta State.swapL1
  repeat' first
    | with_reducible (refine Kept.other ?_; assumption)

theorem State.codeLoad_kept {q : List Instr} {s : State} {c : CtxId} {a : Word} (hs : Kept q s) :
    Kept2 q (State.codeLoad s c a) := State.swapL1_kept (State.cacheLoad_kept (State.swapL1_kept hs)).snd

theorem State.codeFill_kept {q : List Instr} {s : State} {c : CtxId} {a : Word} {d : List Byte} (hs : Kept q s) :
    Kept q (State.codeFill s c a d) := by
  delta State.codeFill
  repeat' first
    | with_reducible assumption
    | with_reducible apply State.swapL1_kept
    | with_reducible apply State.cacheFill_kept

/-! ### Chest -/

theorem State.chestCtrUp_kept {q : List Instr} {s : State} {a0 : CtxId} (hs : Kept q s) :
    Kept q (State.chestCtrUp s a0) := by
  delta State.chestCtrUp
  repeat' first
    | (extract_lets +onlyGivenNames -underBinder x; clear_value x)
    | split
    | with_reducible (refine Kept.other ?_; assumption)

theorem State.chestRead_kept {q : List Instr} {s : State} {c : CtxId} {at0 n : Nat} (hs : Kept q s) :
    Kept2 q (State.chestRead s c at0 n) := by
  delta State.chestRead
  repeat' first
    | with_reducible assumption
    | with_reducible apply State.lmRead_kept

theorem State.chestWrite_kept {q : List Instr} {s : State} {c : CtxId} {at0 : Nat} {d : List Byte} (hs : Kept q s) :
    Kept q (State.chestWrite s c at0 d) := by
  delta State.chestWrite
  repeat' first
    | with_reducible assumption
    | with_reducible (refine Kept2.snd ?_; apply State.lmWrite_kept)

theorem State.clearDirty_kept {q : List Instr} {s : State} {m : BitVec 8} (hs : Kept q s) :
    Kept q (State.clearDirty s m) := by
  delta State.clearDirty
  lift_lets -underBinder
  repeat' first
    | (extract_lets +onlyGivenNames -underBinder x; clear_value x)
    | with_reducible (refine Kept.other ?_; assumption)

theorem State.chestUpdate_kept {q : List Instr} {s : State} {c : CtxId} {valid0 mode0 setV clrV : Nat} (hs : Kept q s) :
    Kept q (State.chestUpdate s c valid0 mode0 setV clrV) := by
  delta State.chestUpdate
  lift_lets -underBinder
  repeat' first
    | with_reducible assumption
    | (extract_lets +onlyGivenNames -underBinder x; refine (fun hx : Kept q x => ?_) ?_; clear_value x; rotate_left; subst x)
    | (extract_lets +onlyGivenNames -underBinder x; clear_value x)
    | with_reducible apply State.chestWrite_kept
    | with_reducible (refine Kept.other ?_; assumption)

theorem State.chestSave_kept {q : List Instr} {s : State} {mask : BitVec 8} (hs : Kept q s) :
    Kept2 q (State.chestSave s mask) := by
  delta State.chestSave
  lift_lets -underBinder
  repeat' first
    | with_reducible assumption
    | (extract_lets +onlyGivenNames -underBinder x; refine (fun hx : Kept q x => ?_) ?_; clear_value x; rotate_left; subst x)
    | (extract_lets +onlyGivenNames -underBinder x; clear_value x)
    | with_reducible apply State.chestUpdate_kept
    | with_reducible apply State.clearDirty_kept
    | with_reducible apply State.chestWrite_kept
    | with_reducible apply State.chestRead_kept
    | with_reducible apply kept_foldl
    | with_reducible apply Kept2.mk
    | split
    | with_reducible intro _
    | with_reducible refine Kept2.snd (Kept2.mk ?_)
    | with_reducible refine Kept2.eq ?_ (by assumption)

theorem State.chestDiscard_kept {q : List Instr} {s : State} {mask : BitVec 8} (hs : Kept q s) :
    Kept2 q (State.chestDiscard s mask) := by
  delta State.chestDiscard
  lift_lets -underBinder
  repeat' first
    | with_reducible assumption
    | (extract_lets +onlyGivenNames -underBinder x; clear_value x)
    | with_reducible apply State.chestUpdate_kept
    | with_reducible apply State.clearDirty_kept
    | with_reducible apply State.chestRead_kept
    | with_reducible apply Kept2.mk
    | split
    | with_reducible refine Kept2.snd (Kept2.mk ?_)
    | with_reducible refine Kept2.eq ?_ (by assumption)

theorem State.chestZero_kept {q : List Instr} {s : State} {c : CtxId} (hs : Kept q s) :
    Kept q (State.chestZero s c) := by
  delta State.chestZero
  repeat' first
    | with_reducible assumption
    | with_reducible apply State.chestWrite_kept

theorem State.chestErase_kept {q : List Instr} {s : State} {c : CtxId} (hs : Kept q s) :
    Kept2 q (State.chestErase s c) := by
  delta State.chestErase
  repeat' first
    | with_reducible assumption
    | with_reducible apply State.chestZero_kept
    | with_reducible apply Kept2.mk
    | split

theorem State.groupCheck_kept {q : List Instr} {s : State} {c : CtxId} {mode g : Nat} (hs : Kept q s) :
    Kept2 q (State.groupCheck s c mode g) := by
  delta State.groupCheck
  repeat' first
    | with_reducible assumption
    | with_reducible apply State.chestRead_kept
    | with_reducible apply Kept2.mk
    | split
    | with_reducible refine Kept2.snd (Kept2.mk ?_)
    | with_reducible refine Kept2.eq ?_ (by assumption)

theorem State.handoverCheck_kept {q : List Instr} {s : State} {c : CtxId} {mode : Nat} {a0 : List Nat} (hs : Kept q s) :
    Kept2 q (State.handoverCheck s c mode a0) := by
  induction a0 generalizing s with
  | nil => exact hs
  | cons a r ih =>
  rw [State.handoverCheck]
  repeat' first
    | with_reducible assumption
    | with_reducible apply State.groupCheck_kept
    | with_reducible apply Kept2.mk
    | with_reducible (refine Kept2.snd ?_; apply ih)
    | split
    | with_reducible refine Kept2.snd (Kept2.mk ?_)
    | with_reducible refine Kept2.eq ?_ (by assumption)

theorem State.restoreGroups_kept {q : List Instr} {s : State} {c : CtxId} {a0 : List Nat} (hs : Kept q s) :
    Kept2 q (State.restoreGroups s c a0) := by
  induction a0 generalizing s with
  | nil => exact hs
  | cons a r ih =>
  rw [State.restoreGroups]
  repeat' first
    | with_reducible assumption
    | with_reducible apply State.chestRead_kept
    | with_reducible apply Kept2.mk
    | with_reducible (refine Kept2.snd ?_; apply ih)
    | split
    | with_reducible refine Kept2.snd (Kept2.mk ?_)
    | with_reducible refine Kept2.eq ?_ (by assumption)
    | with_reducible (refine Kept.other ?_; refine Kept2.eq ?_ (by assumption))

theorem State.giveTo_kept {q : List Instr} {s : State} {c : CtxId} (hs : Kept q s) :
    Kept q (State.giveTo s c) := by
  delta State.giveTo
  lift_lets -underBinder
  repeat' first
    | (extract_lets +onlyGivenNames -underBinder x; clear_value x)
    | with_reducible (refine Kept.other ?_; assumption)

theorem State.chestHandover_kept {q : List Instr} {s : State} {c : CtxId} {mask : BitVec 8} (hs : Kept q s) :
    Kept2 q (State.chestHandover s c mask) := by
  delta State.chestHandover
  repeat' first
    | with_reducible assumption
    | (extract_lets +onlyGivenNames -underBinder x; refine (fun hx : Kept q x => ?_) ?_; clear_value x; rotate_left; subst x)
    | (extract_lets +onlyGivenNames -underBinder x; refine (fun hl : ∀ a b, Kept q b → Kept q (x a b) => ?_) ?_; clear_value x; rotate_left; subst x; intro _ _ _; try dsimp only)
    | (extract_lets +onlyGivenNames -underBinder x; clear_value x)
    | with_reducible apply State.giveTo_kept
    | with_reducible apply State.restoreGroups_kept
    | with_reducible apply State.handoverCheck_kept
    | with_reducible apply State.chestWrite_kept
    | with_reducible apply State.chestRead_kept
    | with_reducible apply Kept2.mk
    | with_reducible apply hl
    | split
    | with_reducible refine Kept2.snd (Kept2.mk ?_)
    | with_reducible refine Kept2.eq ?_ (by assumption)
    | with_reducible (refine Kept.other ?_; refine Kept2.eq ?_ (by assumption))

theorem State.chestWaits_kept {q : List Instr} {s : State} {op : BitVec 3} {c : CtxId} {n : Nat} {img : Mem} (hs : Kept q s) :
    Kept q (State.chestWaits s op c n img) := by
  delta State.chestWaits
  lift_lets -underBinder
  repeat' first
    | (extract_lets +onlyGivenNames -underBinder x; clear_value x)
    | with_reducible (refine Kept.other ?_; assumption)

theorem State.chestEnds_kept {q : List Instr} {s : State} {op : BitVec 3} {c : CtxId} {e : BitVec 3} (hs : Kept q s) :
    Kept q (State.chestEnds s op c e) := by
  delta State.chestEnds
  lift_lets -underBinder
  repeat' first
    | (extract_lets +onlyGivenNames -underBinder x; refine (fun hx : Kept q x => ?_) ?_; clear_value x; rotate_left; subst x)
    | (extract_lets +onlyGivenNames -underBinder x; have hx : Queue := x; clear hx; subst x)
    | (extract_lets +onlyGivenNames -underBinder x; clear_value x)
    | with_reducible (refine Kept.other ?_; assumption)
    | with_reducible (refine Kept.queue ?_; assumption)

theorem State.spillRemote_kept {q : List Instr} {s : State} {c : CtxId} {a : Word} {img : List Byte} (hs : Kept q s) :
    Kept q (State.spillRemote s c a img) := by
  delta State.spillRemote
  lift_lets -underBinder
  repeat' first
    | with_reducible assumption
    | (extract_lets +onlyGivenNames -underBinder x; refine (fun hx : Kept q x => ?_) ?_; clear_value x; rotate_left; subst x)
    | (extract_lets +onlyGivenNames -underBinder x; clear_value x)
    | with_reducible apply State.chestWaits_kept
    | with_reducible apply kept_foldl
    | with_reducible (refine Kept2.snd ?_; apply State.lmWrite_kept)
    | with_reducible (refine Kept2.snd ?_; apply State.request_kept)
    | split
    | with_reducible intro _

theorem State.chestSpill_kept {q : List Instr} {s : State} {c : CtxId} (hs : Kept q s) :
    Kept q (State.chestSpill s c) := by
  delta State.chestSpill
  lift_lets -underBinder
  repeat' first
    | with_reducible assumption
    | (extract_lets +onlyGivenNames -underBinder x; clear_value x)
    | with_reducible apply State.spillRemote_kept
    | with_reducible apply State.chestEnds_kept
    | with_reducible apply State.chestRead_kept
    | with_reducible apply State.chestCtrUp_kept
    | with_reducible (refine Kept2.snd ?_; apply State.lmWrite_kept)
    | with_reducible refine kept_ite ?_ ?_
    | split
    | with_reducible refine Kept2.eq ?_ (by assumption)

theorem State.fillFails_kept {q : List Instr} {s : State} {c : CtxId} {e : BitVec 3} (hs : Kept q s) :
    Kept q (State.fillFails s c e) := by
  delta State.fillFails
  repeat' first
    | with_reducible assumption
    | with_reducible apply State.chestEnds_kept
    | with_reducible apply State.chestZero_kept

theorem State.fillImage_kept {q : List Instr} {s : State} {c : CtxId} {img : List Byte} (hs : Kept q s) :
    Kept q (State.fillImage s c img) := by
  delta State.fillImage
  lift_lets -underBinder
  repeat' first
    | with_reducible assumption
    | (extract_lets +onlyGivenNames -underBinder x; refine (fun hx : Kept q x => ?_) ?_; clear_value x; rotate_left; subst x)
    | (extract_lets +onlyGivenNames -underBinder x; clear_value x)
    | with_reducible apply State.fillFails_kept
    | with_reducible apply State.chestEnds_kept
    | with_reducible apply State.chestWrite_kept
    | with_reducible apply State.record_kept
    | with_reducible refine kept_ite ?_ ?_

theorem State.ownPieces_kept {q : List Instr} {c : CtxId} {a : Word} (l : List (Nat × Nat)) {m : Mem} {s : State} (hs : Kept q s) :
    Kept2 q (State.ownPieces c a l m s) := by
  induction l generalizing m s with
  | nil => exact hs
  | cons e r ih =>
    rw [State.ownPieces]
    split
    · exact ih hs
    · split
      · exact (State.lmRead_kept hs).eq (by assumption)
      · rename_i d u hu
        exact ih ((State.lmRead_kept hs).eq hu)

theorem State.fillRemote_kept {q : List Instr} {s : State} {c : CtxId} {a : Word} (hs : Kept q s) :
    Kept q (State.fillRemote s c a) := by
  delta State.fillRemote
  repeat' first
    | with_reducible assumption
    | (extract_lets +onlyGivenNames -underBinder x; refine (fun hx : Kept q x => ?_) ?_; clear_value x; rotate_left; subst x)
    | with_reducible apply State.ownPieces_kept
    | with_reducible apply State.fillFails_kept
    | with_reducible apply State.chestWaits_kept
    | with_reducible apply kept_foldl
    | with_reducible (refine Kept2.snd ?_; apply State.request_kept)
    | split
    | with_reducible intro _
    | with_reducible refine Kept2.eq ?_ (by assumption)

theorem State.chestFill_kept {q : List Instr} {s : State} {c : CtxId} (hs : Kept q s) :
    Kept q (State.chestFill s c) := by
  delta State.chestFill
  lift_lets -underBinder
  repeat' first
    | with_reducible assumption
    | (extract_lets +onlyGivenNames -underBinder x; clear_value x)
    | with_reducible apply State.fillRemote_kept
    | with_reducible apply State.fillImage_kept
    | with_reducible apply State.fillFails_kept
    | with_reducible apply State.chestEnds_kept
    | with_reducible apply State.lmRead_kept
    | with_reducible refine kept_ite ?_ ?_
    | split
    | with_reducible refine Kept2.eq ?_ (by assumption)

theorem State.chestAnswer_kept {q : List Instr} {s : State} {off len : Nat} {p : Packet} (hs : Kept q s) :
    Kept q (State.chestAnswer s off len p) := by
  delta State.chestAnswer
  lift_lets -underBinder
  repeat' first
    | with_reducible assumption
    | (extract_lets +onlyGivenNames -underBinder x; refine (fun hx : Kept q x => ?_) ?_; clear_value x; rotate_left; subst x)
    | (extract_lets +onlyGivenNames -underBinder x; clear_value x)
    | (extract_lets +onlyGivenNames -underBinder x; subst x)
    | with_reducible apply State.fillImage_kept
    | with_reducible apply State.fillFails_kept
    | with_reducible apply State.chestEnds_kept
    | with_reducible apply State.chestWaits_kept
    | with_reducible apply State.chestCtrUp_kept
    | with_reducible apply State.settled_kept
    | with_reducible refine kept_ite ?_ ?_
    | split

theorem State.chestStart_kept {q : List Instr} {s : State} {op : Nat} {c : CtxId} {mask : BitVec 8} (hs : Kept q s) :
    Kept q (State.chestStart s op c mask) := by
  delta State.chestStart
  lift_lets -underBinder
  repeat' first
    | with_reducible assumption
    | (extract_lets +onlyGivenNames -underBinder x; refine (fun hl : ∀ a, Kept2 q a → Kept q (x a) => ?_) ?_; clear_value x; rotate_left; subst x; intro _ _; try dsimp only)
    | with_reducible apply State.chestFill_kept
    | with_reducible apply State.chestSpill_kept
    | with_reducible apply State.chestEnds_kept
    | with_reducible apply State.chestHandover_kept
    | with_reducible apply State.chestErase_kept
    | with_reducible apply State.chestDiscard_kept
    | with_reducible apply State.chestSave_kept
    | with_reducible apply hl
    | split
    | with_reducible exact Kept2.snd (by assumption)

theorem State.chestDone_kept {q : List Instr} {s : State} (hs : Kept q s) :
    Kept q (State.chestDone s) := by
  delta State.chestDone
  repeat' first
    | with_reducible assumption
    | (extract_lets +onlyGivenNames -underBinder x; clear_value x)
    | with_reducible refine kept_ite ?_ ?_
    | split
    | with_reducible (refine Kept.other ?_; assumption)

/-! ### Accum -/

theorem State.dirty_kept {q : List Instr} {s : State} {gs : List Nat} (hs : Kept q s) :
    Kept q (State.dirty s gs) := by
  delta State.dirty
  lift_lets -underBinder
  repeat' first
    | (extract_lets +onlyGivenNames -underBinder x; clear_value x)
    | with_reducible (refine Kept.other ?_; assumption)

theorem State.drainCopy_kept {q : List Instr} {s : State} (hs : Kept q s) :
    Kept q (State.drainCopy s) := by
  delta State.drainCopy
  repeat' first
    | with_reducible assumption
    | (extract_lets +onlyGivenNames -underBinder x; clear_value x)
    | with_reducible refine kept_ite ?_ ?_
    | split
    | with_reducible (refine Kept.other ?_; assumption)

theorem State.drainComplete_kept {q : List Instr} {s : State} (hs : Kept q s) :
    Kept q (State.drainComplete s) := by
  delta State.drainComplete
  repeat' first
    | with_reducible assumption
    | (extract_lets +onlyGivenNames -underBinder x; refine (fun hx : Kept q x => ?_) ?_; clear_value x; rotate_left; subst x)
    | (extract_lets +onlyGivenNames -underBinder x; clear_value x)
    | with_reducible apply State.dirty_kept
    | with_reducible apply State.perf_kept
    | with_reducible apply State.setCtx_kept
    | with_reducible refine kept_ite ?_ ?_
    | split
    | with_reducible (refine Kept.other ?_; assumption)

theorem State.drainForce_kept {q : List Instr} {s : State} (hs : Kept q s) :
    Kept q (State.drainForce s) := by
  delta State.drainForce
  repeat' first
    | with_reducible assumption
    | with_reducible apply State.drainComplete_kept
    | with_reducible apply State.drainCopy_kept

theorem State.drainAbandon_kept {q : List Instr} {s : State} (hs : Kept q s) :
    Kept q (State.drainAbandon s) := by
  delta State.drainAbandon
  repeat' first
    | with_reducible assumption
    | (extract_lets +onlyGivenNames -underBinder x; refine (fun hx : Kept q x => ?_) ?_; clear_value x; rotate_left; subst x)
    | (extract_lets +onlyGivenNames -underBinder x; clear_value x)
    | with_reducible apply State.drainForce_kept
    | with_reducible apply State.setCtx_kept
    | with_reducible refine kept_ite ?_ ?_
    | split
    | with_reducible (refine Kept.other ?_; assumption)

/-! ### SysRegs -/

theorem State.ctxStart_kept {q : List Instr} {s : State} {v : Word} (hs : Kept q s) :
    Kept q (State.ctxStart s v) := by
  delta State.ctxStart
  lift_lets -underBinder
  repeat' first
    | with_reducible assumption
    | with_reducible apply State.purge_kept
    | (extract_lets +onlyGivenNames -underBinder x; refine (fun hx : Kept q x => ?_) ?_; clear_value x; rotate_left; subst x)
    | (extract_lets +onlyGivenNames -underBinder x; have hx : Queue := x; clear hx; subst x)
    | (extract_lets +onlyGivenNames -underBinder x; clear_value x)
    | with_reducible apply State.restart_kept
    | with_reducible apply State.setCtx_kept
    | with_reducible refine kept_ite ?_ ?_
    | (refine Kept.fifos ?_ ?_ ?_ ?_ ?_; with_reducible assumption; exact Kept.db hx; exact Nat.le_trans (List.length_filter_le _ _) (Kept.imq hx); exact Kept.cq0 hx; exact Kept.cq1 hx)

theorem State.ctxCtl_kept {q : List Instr} {s : State} {v : Nat} (hs : Kept q s) :
    Kept q (State.ctxCtl s v) := by
  delta State.ctxCtl
  lift_lets -underBinder
  repeat' first
    | (extract_lets +onlyGivenNames -underBinder x; clear_value x)
    | with_reducible (refine Kept.other ?_; assumption)

theorem State.tcfg_kept {q : List Instr} {s : State} {v : Nat} (hs : Kept q s) :
    Kept q (State.tcfg s v) := by
  delta State.tcfg
  lift_lets -underBinder
  repeat' first
    | with_reducible assumption
    | (extract_lets +onlyGivenNames -underBinder x; clear_value x)
    | with_reducible refine kept_ite ?_ ?_
    | with_reducible (refine Kept.other ?_; assumption)

theorem State.chestCmd_kept {q : List Instr} {s : State} {v : Nat} (hs : Kept q s) :
    Kept q (State.chestCmd s v) := by
  delta State.chestCmd
  repeat' first
    | with_reducible assumption
    | with_reducible apply State.chestStart_kept
    | with_reducible refine kept_ite ?_ ?_

theorem State.setMx_kept {q : List Instr} {s : State} {m : Mx} {gs : List Nat} (hs : Kept q s) :
    Kept q (State.setMx s m gs) := by
  delta State.setMx
  repeat' first
    | with_reducible apply State.dirty_kept
    | with_reducible (refine Kept.other ?_; assumption)

theorem State.sysWrite_kept {q : List Instr} {s : State} {n : Nat} {v : Word} (hs : Kept q s) :
    Kept q (State.sysWrite s n v) := by
  delta State.sysWrite
  lift_lets -underBinder
  repeat' first
    | with_reducible assumption
    | (extract_lets +onlyGivenNames -underBinder x; clear_value x)
    | with_reducible apply State.setMx_kept
    | with_reducible apply State.chestCmd_kept
    | with_reducible apply State.tcfg_kept
    | with_reducible apply State.ctxCtl_kept
    | with_reducible apply State.ctxStart_kept
    | with_reducible apply State.setCx_kept
    | with_reducible refine kept_ite ?_ ?_
    | split
    | with_reducible (refine Kept.other ?_; assumption)

/-! ### Issue -/

theorem State.syncN1_kept {q : List Instr} {s : State} (hs : Kept q s) :
    Kept q (State.syncN1 s) := by
  delta State.syncN1
  repeat' first
    | with_reducible assumption
    | with_reducible apply State.put_kept
    | with_reducible refine kept_ite ?_ ?_

theorem State.refresh_kept {q : List Instr} {s : State} (hs : Kept q s) :
    Kept q (State.refresh s) := by
  delta State.refresh
  repeat' first
    | with_reducible assumption
    | with_reducible apply State.syncN1_kept
    | with_reducible apply State.updatePend_kept

theorem State.parcelLook_kept {q : List Instr} {s : State} {a : Word} (hs : Kept q s) :
    Kept2 q (State.parcelLook s a) := by
  delta State.parcelLook
  lift_lets -underBinder
  repeat' first
    | with_reducible assumption
    | (extract_lets +onlyGivenNames -underBinder x; refine (fun hx : Kept q x.2 => ?_) ?_; clear_value x; rotate_left; subst x; change Kept2 q _)
    | with_reducible apply State.codeLoad_kept
    | with_reducible apply Kept2.mk
    | split

theorem State.parcelsLooked_kept {q : List Instr} {s : State} {len : Nat} (hs : Kept q s) :
    Kept q (State.parcelsLooked s len) := by
  delta State.parcelsLooked
  lift_lets -underBinder
  repeat' first
    | with_reducible assumption
    | (extract_lets +onlyGivenNames -underBinder x; refine (fun hx : Kept q x.2 => ?_) ?_; clear_value x; rotate_left; subst x; change Kept2 q _)
    | (extract_lets +onlyGivenNames -underBinder x; clear_value x)
    | with_reducible apply State.parcelLook_kept
    | with_reducible (refine Kept2.snd ?_; apply State.parcelLook_kept)
    | with_reducible refine kept_ite ?_ ?_

theorem State.begun_kept {q : List Instr} {s : State} {len : Nat} (hs : Kept q s) : Kept q (s.begun len) :=
  State.parcelsLooked_kept (Kept.other (State.drainForce_kept hs))

theorem State.askCode_kept {q : List Instr} {s : State} {c : CtxId} {b : Word} (hs : Kept q s) :
    Kept2 q (State.askCode s c b) := by
  delta State.askCode
  repeat' first
    | with_reducible assumption
    | with_reducible apply State.request_kept

theorem State.askFetch_kept {q : List Instr} {s : State} {a : Word} {inst : Word32} (hs : Kept q s) :
    Kept q (State.askFetch s a inst) := by
  unfold State.askFetch
  extract_lets c b t w u n
  have ht : Kept q t.2 := by
    show Kept q (Prod.snd (match s.codeComing c b with
      | some t => (t, s)
      | none => s.askCode c b))
    split
    · exact hs
    · exact (State.askCode_kept hs).snd
  have hu : Kept q u := State.setCtx_kept ht
  exact kept_ite (State.askCode_kept hu).snd hu

theorem State.fetchNoted_kept {q : List Instr} {s : State} {c : Nat} {a : Word} (hs : Kept q s) :
    Kept q (State.fetchNoted s c a) := by
  delta State.fetchNoted
  repeat' first
    | with_reducible assumption
    | with_reducible apply State.eccFailed_kept
    | with_reducible refine kept_ite ?_ ?_

theorem State.retireOf_kept {q : List Instr} {s : State} {c : CtxId} {pc : Word} (hs : Kept q s) :
    Kept q (State.retireOf s c pc) := by
  delta State.retireOf
  lift_lets -underBinder
  repeat' first
    | with_reducible assumption
    | (extract_lets +onlyGivenNames -underBinder x; refine (fun hx : Kept q x => ?_) ?_; clear_value x; rotate_left; subst x)
    | (extract_lets +onlyGivenNames -underBinder x; clear_value x)
    | with_reducible apply State.perf_kept
    | with_reducible apply State.setCtx_kept

theorem State.retire_kept {q : List Instr} {s : State} {pc : Word} (hs : Kept q s) :
    Kept q (State.retire s pc) := by
  delta State.retire
  repeat' first
    | with_reducible assumption
    | with_reducible apply State.retireOf_kept

theorem State.owned_kept {q : List Instr} {s : State} {touch : List Nat} {k : State → Done} (hs : Kept q s) (hk : ∀ x0, Kept q x0 → DKept q (k x0)) :
    DKept q (State.owned s touch k) := by
  delta State.owned
  repeat' first
    | with_reducible assumption
    | with_reducible apply hk
    | with_reducible apply DKept.exc
    | with_reducible refine dkept_ite ?_ ?_

theorem State.result_kept {q : List Instr} {s : State} {f : Bool} {rd : BitVec 5} {r : Word × Flags} (hs : Kept q s) :
    DKept q (State.result s f rd r) := by
  delta State.result
  lift_lets -underBinder
  repeat' first
    | with_reducible assumption
    | (extract_lets +onlyGivenNames -underBinder x; clear_value x)
    | with_reducible apply State.setCx_kept
    | with_reducible apply DKept.next

theorem State.value_kept {q : List Instr} {s : State} {rd : BitVec 5} {v : Word} (hs : Kept q s) :
    DKept q (State.value s rd v) := by
  delta State.value
  repeat' first
    | with_reducible assumption
    | with_reducible apply State.w_kept
    | with_reducible apply DKept.next

/-! ### MemOps -/

theorem State.postStore_kept {q : List Instr} {s : State} {c : CtxId} {a : Word} {d : List Byte} (hs : Kept q s) :
    Kept q (State.postStore s c a d) := by
  delta State.postStore
  lift_lets -underBinder
  repeat' first
    | with_reducible assumption
    | (extract_lets +onlyGivenNames -underBinder x; refine (fun hx : Kept q x => ?_) ?_; clear_value x; rotate_left; subst x)
    | (extract_lets +onlyGivenNames -underBinder x; refine (fun hx : Kept q x.2 => ?_) ?_; clear_value x; rotate_left; subst x; change Kept2 q _)
    | (extract_lets +onlyGivenNames -underBinder x; clear_value x)
    | with_reducible apply State.cacheStore_kept
    | with_reducible apply State.request_kept
    | with_reducible apply State.setCtx_kept
    | with_reducible apply forN_kept
    | with_reducible refine kept_ite ?_ ?_
    | with_reducible intro _

theorem State.sendLoad_kept {q : List Instr} {s : State} {a : Word} {f : LoadForm} {fill : Bool} (hs : Kept q s) :
    DKept q (State.sendLoad s a f fill) := by
  delta State.sendLoad
  lift_lets -underBinder
  repeat' first
    | with_reducible assumption
    | (extract_lets +onlyGivenNames -underBinder x; refine (fun hx : Kept q x.2 => ?_) ?_; clear_value x; rotate_left; subst x; change Kept2 q _)
    | (extract_lets +onlyGivenNames -underBinder x; clear_value x)
    | with_reducible apply State.request_kept
    | with_reducible apply State.setCtx_kept
    | with_reducible apply DKept.wait
    | with_reducible refine kept2_ite ?_ ?_

theorem State.loadLm_kept {q : List Instr} {s : State} {a : Word} {off : Nat} {f : LoadForm} (hs : Kept q s) :
    DKept q (State.loadLm s a off f) := by
  delta State.loadLm
  repeat' first
    | with_reducible assumption
    | with_reducible apply State.value_kept
    | with_reducible apply State.lmRead_kept
    | with_reducible apply DKept.exc
    | split
    | with_reducible refine Kept2.eq ?_ (by assumption)

theorem State.loadAt_kept {q : List Instr} {s : State} {a : Word} {f : LoadForm} (hs : Kept q s) :
    DKept q (State.loadAt s a f) := by
  delta State.loadAt
  lift_lets -underBinder
  repeat' first
    | with_reducible assumption
    | (extract_lets +onlyGivenNames -underBinder x; refine (fun hx : Kept q x.2 => ?_) ?_; clear_value x; rotate_left; subst x; change Kept2 q _)
    | (extract_lets +onlyGivenNames -underBinder x; clear_value x)
    | with_reducible apply State.loadLm_kept
    | with_reducible apply State.sendLoad_kept
    | with_reducible apply State.value_kept
    | with_reducible apply State.cacheLoad_kept
    | with_reducible apply State.readReg_kept
    | with_reducible apply DKept.exc
    | with_reducible apply DKept.wait
    | with_reducible refine dkept_ite ?_ ?_
    | split
    | with_reducible refine Kept2.eq ?_ (by assumption)

theorem State.storeLm_kept {q : List Instr} {s : State} {a : Word} {off : Nat} {d : List Byte} (hs : Kept q s) :
    DKept q (State.storeLm s a off d) := by
  delta State.storeLm
  repeat' first
    | with_reducible assumption
    | with_reducible apply State.lmWrite_kept
    | with_reducible apply DKept.next
    | with_reducible apply DKept.exc
    | split
    | with_reducible refine Kept2.eq ?_ (by assumption)

theorem State.storeAt_kept {q : List Instr} {s : State} {a : Word} {n : Nat} {v : Word} (hs : Kept q s) :
    DKept q (State.storeAt s a n v) := by
  delta State.storeAt
  lift_lets -underBinder
  repeat' first
    | with_reducible assumption
    | (extract_lets +onlyGivenNames -underBinder x; clear_value x)
    | with_reducible apply State.storeLm_kept
    | with_reducible apply State.postStore_kept
    | with_reducible apply State.writeReg_kept
    | with_reducible apply DKept.next
    | with_reducible apply DKept.exc
    | with_reducible apply DKept.wait
    | with_reducible refine dkept_ite ?_ ?_
    | split

theorem State.lmAtomic_kept {q : List Instr} {s : State} {req : Nat} {ctx : Option CtxId} {off : Nat} {cas : Bool} {a b : Word} (hs : Kept q s) :
    Kept2 q (State.lmAtomic s req ctx off cas a b) := by
  delta State.lmAtomic
  dsimp only
  split
  · exact (State.lmRead_kept hs).eq (by assumption)
  · rename_i d u hd
    have hu : Kept q u := (State.lmRead_kept hs).eq hd
    exact Kept2.mk (Kept.store hu (Mem.wf_write hu.mem) (twf_tput_const hu.ecc))

theorem State.atomicAt_kept {q : List Instr} {s : State} {cas : Bool} {a v w : Word} {rd : BitVec 5} {inst : Word32} (hs : Kept q s) :
    DKept q (State.atomicAt s cas a v w rd inst) := by
  delta State.atomicAt
  lift_lets -underBinder
  repeat' first
    | with_reducible assumption
    | (extract_lets +onlyGivenNames -underBinder x; refine (fun hx : Kept q x => ?_) ?_; clear_value x; rotate_left; subst x)
    | (extract_lets +onlyGivenNames -underBinder x; refine (fun hx : Kept q x.2 => ?_) ?_; clear_value x; rotate_left; subst x; change Kept2 q _)
    | (extract_lets +onlyGivenNames -underBinder x; clear_value x)
    | with_reducible apply State.lmAtomic_kept
    | with_reducible apply State.value_kept
    | with_reducible apply State.invalSector_kept
    | with_reducible apply State.request_kept
    | with_reducible apply State.tick_kept
    | with_reducible apply State.setCtx_kept
    | with_reducible apply DKept.exc
    | with_reducible apply DKept.wait
    | with_reducible refine dkept_ite ?_ ?_
    | split
    | with_reducible refine Kept2.eq ?_ (by assumption)

theorem State.dwStore_kept {q : List Instr} {s : State} {e : Word × Word} (hs : Kept q s) :
    Kept q (State.dwStore s e) := by
  delta State.dwStore
  repeat' first
    | with_reducible assumption
    | with_reducible apply State.writeReg_kept
    | with_reducible (refine Kept2.snd ?_; apply State.lmWrite_kept)
    | split

theorem State.storeDws_kept {q : List Instr} {s : State} {a : Word} {vs : List Word} {after : State → State} (hs : Kept q s) (hafter : ∀ x0, Kept q x0 → Kept q (after x0)) :
    DKept q (State.storeDws s a vs after) := by
  delta State.storeDws
  lift_lets -underBinder
  repeat' first
    | with_reducible assumption
    | (extract_lets +onlyGivenNames -underBinder x; refine (fun hx : Kept q x => ?_) ?_; clear_value x; rotate_left; subst x)
    | (extract_lets +onlyGivenNames -underBinder x; clear_value x)
    | with_reducible apply State.dwStore_kept
    | with_reducible apply State.postStore_kept
    | with_reducible apply kept_foldl
    | with_reducible apply hafter
    | with_reducible apply DKept.next
    | with_reducible apply DKept.exc
    | with_reducible apply DKept.wait
    | with_reducible refine dkept_ite ?_ ?_
    | split
    | with_reducible intro _

theorem State.dwLoads_kept {q : List Instr} {s : State} {c : CtxId} {a0 : List Word} (hs : Kept q s) :
    Kept2 q (State.dwLoads s c a0) := by
  induction a0 generalizing s with
  | nil => exact hs
  | cons a r ih =>
  rw [State.dwLoads]
  repeat' first
    | with_reducible assumption
    | (extract_lets +onlyGivenNames -underBinder x; refine (fun hx : Kept q x.2 => ?_) ?_; clear_value x; rotate_left; subst x; change Kept2 q _)
    | with_reducible apply State.readReg_kept
    | with_reducible apply State.lmRead_kept
    | with_reducible apply ih
    | with_reducible apply Kept2.mk
    | split
    | with_reducible refine Kept2.snd (Kept2.mk ?_)
    | with_reducible refine Kept2.eq ?_ (by assumption)

theorem State.fillLoop_kept {q : List Instr} {c : CtxId} {a : Word} {len : Nat} {inst : Word32} {a0 : Nat} {a1 : List Byte} {s : State} (hs : Kept q s) :
    Kept2 q (State.fillLoop c a len inst a0 a1 s) := by
  induction a0 generalizing a1 s with
  | zero => exact hs
  | succ n ih =>
  rw [State.fillLoop]
  lift_lets -underBinder
  repeat' first
    | with_reducible assumption
    | (extract_lets +onlyGivenNames -underBinder x; refine (fun hl : ∀ a b c, Kept q a → Kept q (x a b c) => ?_) ?_; clear_value x; rotate_left; subst x; intro _ _ _ _; try dsimp only)
    | (extract_lets +onlyGivenNames -underBinder x; clear_value x)
    | with_reducible apply State.dwLoads_kept
    | with_reducible apply State.cacheLoad_kept
    | with_reducible apply State.setCtx_kept
    | with_reducible apply Kept2.mk
    | with_reducible apply hl
    | with_reducible (refine Kept2.snd ?_; apply State.request_kept)
    | with_reducible (refine Kept2.snd ?_; apply ih)
    | split
    | with_reducible refine Kept2.snd (Kept2.mk ?_)
    | with_reducible refine Kept2.eq ?_ (by assumption)

theorem State.fillDws_kept {q : List Instr} {s : State} {a : Word} {n : Nat} {inst : Word32} (hs : Kept q s) :
    DKept q (State.fillDws s a n inst) := by
  delta State.fillDws
  lift_lets -underBinder
  repeat' first
    | with_reducible assumption
    | (extract_lets +onlyGivenNames -underBinder x; clear_value x)
    | with_reducible apply State.fillLoop_kept
    | with_reducible apply State.dwLoads_kept
    | with_reducible apply State.setCx_kept
    | with_reducible apply DKept.next
    | with_reducible apply DKept.exc
    | with_reducible apply DKept.wait
    | with_reducible refine dkept_ite ?_ ?_
    | split
    | with_reducible refine Kept2.eq ?_ (by assumption)

theorem State.fillAnswer_kept {q : List Instr} {s : State} {c : CtxId} {a : Word} {len : Nat} {got : List Byte} {inst : Word32} {d : List Byte} (hs : Kept q s) :
    Kept q (State.fillAnswer s c a len got inst d) := by
  delta State.fillAnswer
  lift_lets -underBinder
  repeat' first
    | with_reducible assumption
    | (extract_lets +onlyGivenNames -underBinder x; refine (fun hx : Kept q x => ?_) ?_; clear_value x; rotate_left; subst x)
    | (extract_lets +onlyGivenNames -underBinder x; clear_value x)
    | with_reducible apply State.fillLoop_kept
    | with_reducible apply State.retireOf_kept
    | with_reducible apply State.cacheFill_kept
    | with_reducible apply State.raiseOf_kept
    | with_reducible apply State.setCtx_kept
    | with_reducible refine kept_ite ?_ ?_
    | split
    | with_reducible refine Kept2.eq ?_ (by assumption)

/-! ### Entry -/

theorem State.sendCoords_kept {q : List Instr} {s : State} (hs : Kept q s) :
    Kept q (State.sendCoords s) := by
  delta State.sendCoords
  lift_lets -underBinder
  repeat' first
    | with_reducible assumption
    | (extract_lets +onlyGivenNames -underBinder x; refine (fun hx : Kept q x => ?_) ?_; clear_value x; rotate_left; subst x)
    | (extract_lets +onlyGivenNames -underBinder x; clear_value x)
    | with_reducible apply State.hold_kept
    | with_reducible apply State.tick_kept
    | with_reducible apply kept_foldl
    | split
    | with_reducible intro _

theorem State.tryBootWait_kept {q : List Instr} {s : State} (hs : Kept q s) :
    Kept q (State.tryBootWait s) := by
  delta State.tryBootWait
  repeat' first
    | with_reducible assumption
    | with_reducible apply State.put_kept
    | with_reducible refine kept_ite ?_ ?_

theorem State.enumKnown_kept {q : List Instr} {s : State} {p : Packet} {port : Port} (hs : Kept q s) :
    Kept q (State.enumKnown s p port) := by
  delta State.enumKnown
  lift_lets -underBinder
  repeat' first
    | with_reducible assumption
    | (extract_lets +onlyGivenNames -underBinder x; refine (fun hx : Kept q x => ?_) ?_; clear_value x; rotate_left; subst x)
    | with_reducible apply State.tryBootWait_kept
    | with_reducible apply State.hold_kept
    | with_reducible apply State.startUpFault_kept
    | with_reducible apply State.put_kept
    | with_reducible apply kept_foldl
    | with_reducible refine kept_ite ?_ ?_
    | split
    | with_reducible intro _

theorem State.takeEnum_kept {q : List Instr} {s : State} {p : Packet} {port : Port} (hs : Kept q s) :
    Kept q (State.takeEnum s p port) := by
  delta State.takeEnum
  repeat' first
    | with_reducible assumption
    | (extract_lets +onlyGivenNames -underBinder x; clear_value x)
    | with_reducible apply State.enumKnown_kept
    | with_reducible apply State.startUpFault_kept
    | with_reducible refine kept_ite ?_ ?_
    | split
    | with_reducible (refine Kept.other ?_; assumption)

theorem State.coordsKnown_kept {q : List Instr} {s : State} (hs : Kept q s) :
    Kept q (State.coordsKnown s) := by
  delta State.coordsKnown
  lift_lets -underBinder
  repeat' first
    | with_reducible assumption
    | (extract_lets +onlyGivenNames -underBinder x; refine (fun hx : Kept q x => ?_) ?_; clear_value x; rotate_left; subst x)
    | (extract_lets +onlyGivenNames -underBinder x; clear_value x)
    | with_reducible apply State.enumKnown_kept
    | with_reducible apply State.sendCoords_kept
    | with_reducible apply State.startUpFault_kept
    | with_reducible apply State.put_kept
    | with_reducible refine kept_ite ?_ ?_
    | split
    | with_reducible (refine Kept.other ?_; assumption)

theorem State.learn_kept {q : List Instr} {s : State} {isX : Bool} {v : Nat} (hs : Kept q s) :
    Kept q (State.learn s isX v) := by
  delta State.learn
  lift_lets -underBinder
  repeat' first
    | with_reducible assumption
    | (extract_lets +onlyGivenNames -underBinder x; refine (fun hx : Kept q x => ?_) ?_; clear_value x; rotate_left; subst x)
    | (extract_lets +onlyGivenNames -underBinder x; clear_value x)
    | with_reducible apply State.startUpFault_kept
    | with_reducible apply State.put_kept
    | with_reducible refine kept_ite ?_ ?_
    | with_reducible (refine Kept.other ?_; assumption)

theorem State.agree_kept {q : List Instr} {s : State} {isX : Bool} {v : Nat} (hs : Kept q s) :
    Kept q (State.agree s isX v) := by
  delta State.agree
  lift_lets -underBinder
  repeat' first
    | with_reducible assumption
    | (extract_lets +onlyGivenNames -underBinder x; clear_value x)
    | with_reducible apply State.startUpFault_kept
    | with_reducible refine kept_ite ?_ ?_

theorem State.takeCoord_kept {q : List Instr} {s : State} {p : Packet} {port : Port} (hs : Kept q s) :
    Kept q (State.takeCoord s p port) := by
  delta State.takeCoord
  lift_lets -underBinder
  repeat' first
    | with_reducible assumption
    | (extract_lets +onlyGivenNames -underBinder x; clear_value x)
    | with_reducible apply State.agree_kept
    | with_reducible apply State.learn_kept
    | with_reducible apply State.coordsKnown_kept
    | with_reducible refine kept_ite ?_ ?_

theorem State.queued_kept {q : List Instr} {s : State} {i : Port} {p : Packet} {owed : Nat} (hs : Kept q s) :
    Kept q (State.queued s i p owed) := by
  delta State.queued
  lift_lets -underBinder
  repeat' first
    | (extract_lets +onlyGivenNames -underBinder x; clear_value x)
    | with_reducible (refine Kept.other ?_; assumption)

theorem State.adapterPays_kept {q : List Instr} {s : State} {i : Port} {vc : BitVec 2} {n : Nat} (hs : Kept q s) :
    Kept q (State.adapterPays s i vc n) := by
  delta State.adapterPays
  lift_lets -underBinder
  repeat' first
    | with_reducible assumption
    | (extract_lets +onlyGivenNames -underBinder x; clear_value x)
    | with_reducible apply State.setLnk_kept

theorem State.enqueue_kept {q : List Instr} {s : State} {i : Port} {p : Packet} (hs : Kept q s) :
    Kept q (State.enqueue s i p) := by
  delta State.enqueue
  lift_lets -underBinder
  repeat' first
    | with_reducible assumption
    | (extract_lets +onlyGivenNames -underBinder x; clear_value x)
    | with_reducible apply State.adapterPays_kept
    | with_reducible apply State.queued_kept
    | with_reducible apply State.credit_kept
    | with_reducible refine kept_ite ?_ ?_

theorem State.takeFlits_kept {q : List Instr} {s : State} {i : Port} {p : Packet} {back : Nat} (hs : Kept q s) :
    Kept q (State.takeFlits s i p back) := by
  delta State.takeFlits
  lift_lets -underBinder
  repeat' first
    | with_reducible assumption
    | (extract_lets +onlyGivenNames -underBinder x; refine (fun hx : Kept q x => ?_) ?_; clear_value x; rotate_left; subst x)
    | (extract_lets +onlyGivenNames -underBinder x; subst x)
    | with_reducible apply State.enqueue_kept
    | with_reducible apply State.takeCoord_kept
    | with_reducible apply State.takeEnum_kept
    | with_reducible apply State.credit_kept
    | with_reducible apply State.sendError_kept
    | with_reducible apply State.sat_kept
    | with_reducible refine kept_ite ?_ ?_

theorem State.linkEntry_kept {q : List Instr} {s : State} {i : Port} (hs : Kept q s) :
    OptKept q (State.linkEntry s i) := by
  delta State.linkEntry
  lift_lets -underBinder
  repeat' first
    | with_reducible assumption
    | (extract_lets +onlyGivenNames -underBinder x; refine (fun hx : Kept q x => ?_) ?_; clear_value x; rotate_left; subst x)
    | (extract_lets +onlyGivenNames -underBinder x; clear_value x)
    | with_reducible apply State.takeFlits_kept
    | with_reducible apply State.setLnk_kept
    | with_reducible apply State.meshBusy_kept
    | with_reducible apply OptKept.some
    | with_reducible apply OptKept.none
    | split

/-! ### Deliver -/

theorem State.dupFilter_kept {q : List Instr} {s : State} {p : Packet} (hs : Kept q s) :
    Kept2 q (State.dupFilter s p) := by
  delta State.dupFilter
  lift_lets -underBinder
  repeat' first
    | with_reducible assumption
    | (extract_lets +onlyGivenNames -underBinder x; refine (fun hx : Kept q x => ?_) ?_; clear_value x; rotate_left; subst x)
    | (extract_lets +onlyGivenNames -underBinder x; clear_value x)
    | (extract_lets +onlyGivenNames -underBinder x; subst x)
    | with_reducible apply State.sat_kept
    | with_reducible apply Kept2.mk
    | with_reducible refine kept_ite ?_ ?_
    | split
    | with_reducible refine Kept2.snd (Kept2.mk ?_)
    | with_reducible (refine Kept.other ?_; assumption)

theorem State.memRead_kept {q : List Instr} {s : State} {p : Packet} {off n : Nat} (hs : Kept q s) :
    Kept q (State.memRead s p off n) := by
  delta State.memRead
  repeat' first
    | with_reducible assumption
    | with_reducible apply State.lmRead_kept
    | with_reducible apply State.sendError_kept
    | with_reducible apply State.sendData_kept
    | split
    | with_reducible refine Kept2.eq ?_ (by assumption)

theorem State.memWrite_kept {q : List Instr} {s : State} {p : Packet} {off : Nat} (hs : Kept q s) :
    Kept q (State.memWrite s p off) := by
  delta State.memWrite
  repeat' first
    | with_reducible assumption
    | with_reducible apply State.ackWrite_kept
    | with_reducible apply State.refuse_kept
    | with_reducible apply State.inboundWrote_kept
    | with_reducible apply State.lmWrite_kept
    | split
    | with_reducible refine Kept2.eq ?_ (by assumption)

theorem State.memAtomic_kept {q : List Instr} {s : State} {p : Packet} {off : Nat} (hs : Kept q s) :
    Kept q (State.memAtomic s p off) := by
  delta State.memAtomic
  lift_lets -underBinder
  repeat' first
    | with_reducible assumption
    | (extract_lets +onlyGivenNames -underBinder x; clear_value x)
    | with_reducible apply State.lmAtomic_kept
    | with_reducible apply State.sendError_kept
    | with_reducible apply State.sendData_kept
    | split
    | with_reducible refine Kept2.eq ?_ (by assumption)

theorem State.serveMem_kept {q : List Instr} {s : State} {p : Packet} {anyPage : Bool} (hs : Kept q s) :
    Kept q (State.serveMem s p anyPage) := by
  delta State.serveMem
  lift_lets -underBinder
  repeat' first
    | with_reducible assumption
    | (extract_lets +onlyGivenNames -underBinder x; refine (fun hx : Kept q x.2 => ?_) ?_; clear_value x; rotate_left; subst x; change Kept2 q _)
    | (extract_lets +onlyGivenNames -underBinder x; clear_value x)
    | with_reducible apply State.memAtomic_kept
    | with_reducible apply State.memWrite_kept
    | with_reducible apply State.memRead_kept
    | with_reducible apply State.ackWrite_kept
    | with_reducible apply State.refuse_kept
    | with_reducible apply State.remoteWrite_kept
    | with_reducible apply State.remoteRead_kept
    | with_reducible apply State.sendError_kept
    | with_reducible apply State.sendData_kept
    | with_reducible refine kept_ite ?_ ?_
    | split
    | with_reducible refine Kept2.eq ?_ (by assumption)

theorem State.wakeIf_kept {q : List Instr} {s : State} {en : Bool} (hs : Kept q s) :
    Kept q (State.wakeIf s en) := by
  delta State.wakeIf
  repeat' first
    | with_reducible assumption
    | with_reducible apply State.wakeBy_kept
    | with_reducible refine kept_ite ?_ ?_

theorem State.takeDoorbell_kept {q : List Instr} {s : State} {p : Packet} (hs : Kept q s) :
    Kept q (State.takeDoorbell s p) := by
  delta State.takeDoorbell
  have hs : Kept q s.purge := State.purge_kept hs
  generalize s.purge = s at hs ⊢
  extract_lets +onlyGivenNames -underBinder s' n t
  clear_value n t
  subst s'
  split
  · exact State.refuse_kept hs
  · split
    · exact State.sendDropped_kept (State.put_kept hs)
    · rename_i hl
      have hx : Kept q (if s.qe.db.isEmpty then s.restart 0 else s) ∧
          (if s.qe.db.isEmpty then s.restart 0 else s).qe.db = s.qe.db := by
        split
        · exact ⟨State.restart_kept hs, rfl⟩
        · exact ⟨hs, rfl⟩
      generalize (if s.qe.db.isEmpty then s.restart 0 else s) = x at hx
      obtain ⟨hx, hd⟩ := hx
      refine State.wakeIf_kept (Kept.fifos hx ?_ hx.imq hx.cq0 hx.cq1)
      simp only [List.length_append, List.length_singleton, hd]
      omega

theorem State.perf1_qe {s : State} {a b : Nat} {c : Option CtxId} {j : Nat} : (State.perf1 a b c j s).qe = s.qe := by
  have h : ∀ (c : Prop) [Decidable c] (a b : State), a.qe = s.qe → b.qe = s.qe → (if c then a else b).qe = s.qe := by
    intro c _ a b ha hb
    split
    · exact ha
    · exact hb
  unfold State.perf1
  refine h _ _ _ ?_ rfl
  dsimp only
  exact h _ _ _ (State.put_qe.trans State.put_qe) State.put_qe

theorem forN_qe {n : Nat} {f : Nat → State → State} {s : State} (h : ∀ i t, (f i t).qe = t.qe) : (forN n f s).qe = s.qe := by
  unfold forN
  generalize List.range n = l
  induction l generalizing s with
  | nil => rfl
  | cons j r ih => exact ih.trans (h _ _)

theorem State.perf_qe {s : State} {a b : Nat} {c : Option CtxId} : (s.perf a b c).qe = s.qe := by
  unfold State.perf State.tally
  split
  · exact forN_qe fun _ _ => State.perf1_qe
  · exact forN_qe fun _ _ => State.perf1_qe

theorem State.takeMsg_kept {q : List Instr} {s : State} {p : Packet} (hs : Kept q s) :
    Kept q (State.takeMsg s p) := by
  delta State.takeMsg
  have hs : Kept q s.purge := State.purge_kept hs
  generalize s.purge = s at hs ⊢
  extract_lets +onlyGivenNames -underBinder s' c
  clear_value c
  subst s'
  split
  · exact State.refuse_kept hs
  · split
    · exact State.sendDropped_kept (State.put_kept hs)
    · rename_i hl
      have hx : Kept q (if s.imqCount c = 0 then s.restart (1 + c.num) else s) ∧
          (if s.imqCount c = 0 then s.restart (1 + c.num) else s).qe.imq = s.qe.imq := by
        split
        · exact ⟨State.restart_kept hs, rfl⟩
        · exact ⟨hs, rfl⟩
      generalize (if s.imqCount c = 0 then s.restart (1 + c.num) else s) = x at hx
      obtain ⟨hx, hd⟩ := hx
      have hy : Kept q (x.perf 0x42 1 none) ∧ (x.perf 0x42 1 none).qe.imq = s.qe.imq :=
        ⟨State.perf_kept hx, by rw [State.perf_qe, hd]⟩
      show Kept q (State.wakeIf { x.perf 0x42 1 none with qe := { (x.perf 0x42 1 none).qe with
        imq := (x.perf 0x42 1 none).qe.imq ++ [{ ctx := c, bytes := (x.perf 0x42 1 none).imqBytes p }] } }
        ((x.perf 0x42 1 none).is F.wakeMsg))
      generalize x.perf 0x42 1 none = y at hy ⊢
      obtain ⟨hy, he⟩ := hy
      refine State.wakeIf_kept (Kept.fifos hy hy.db ?_ hy.cq0 hy.cq1)
      simp only [List.length_append, List.length_singleton, he]
      omega

theorem State.takeRequest_kept {q : List Instr} {s : State} {p : Packet} (hs : Kept q s) :
    Kept q (State.takeRequest s p) := by
  delta State.takeRequest
  lift_lets -underBinder
  repeat' first
    | with_reducible assumption
    | (extract_lets +onlyGivenNames -underBinder x; clear_value x)
    | with_reducible apply State.takeMsg_kept
    | with_reducible apply State.takeDoorbell_kept
    | with_reducible apply State.serveMem_kept
    | with_reducible apply State.refuse_kept
    | with_reducible apply State.sendFenced_kept
    | with_reducible refine kept_ite ?_ ?_
    | split

theorem State.countMsgAnswer_kept {q : List Instr} {s : State} {p : Packet} {seq : Nat} (hs : Kept q s) :
    Kept q (State.countMsgAnswer s p seq) := by
  delta State.countMsgAnswer
  lift_lets -underBinder
  repeat' first
    | with_reducible assumption
    | (extract_lets +onlyGivenNames -underBinder x; clear_value x)
    | with_reducible apply State.sat_kept
    | with_reducible apply State.put_kept

theorem State.storeAnswer_kept {q : List Instr} {s : State} {c : CtxId} {p : Packet} (hs : Kept q s) :
    Kept q (State.storeAnswer s c p) := by
  delta State.storeAnswer
  lift_lets -underBinder
  repeat' first
    | with_reducible assumption
    | (extract_lets +onlyGivenNames -underBinder x; refine (fun hx : Kept q x => ?_) ?_; clear_value x; rotate_left; subst x)
    | (extract_lets +onlyGivenNames -underBinder x; clear_value x)
    | with_reducible apply State.record_kept
    | with_reducible apply State.settled_kept
    | with_reducible apply State.setCtx_kept
    | with_reducible refine kept_ite ?_ ?_

theorem State.remoteFails_kept {q : List Instr} {s : State} {c : CtxId} {p : Packet} {a : Word} {inst : Word32} (hs : Kept q s) :
    Kept q (State.remoteFails s c p a inst) := by
  delta State.remoteFails
  lift_lets -underBinder
  repeat' first
    | with_reducible assumption
    | (extract_lets +onlyGivenNames -underBinder x; refine (fun hx : Kept q x => ?_) ?_; clear_value x; rotate_left; subst x)
    | (extract_lets +onlyGivenNames -underBinder x; clear_value x)
    | with_reducible apply State.raiseOf_kept
    | with_reducible apply State.setCtx_kept

theorem State.loadAnswer_kept {q : List Instr} {s : State} {c : CtxId} {p : Packet} (hs : Kept q s) :
    Kept q (State.loadAnswer s c p) := by
  delta State.loadAnswer
  lift_lets -underBinder
  repeat' first
    | with_reducible assumption
    | (extract_lets +onlyGivenNames -underBinder x; refine (fun hx : Kept q x => ?_) ?_; clear_value x; rotate_left; subst x)
    | (extract_lets +onlyGivenNames -underBinder x; clear_value x)
    | with_reducible apply State.remoteFails_kept
    | with_reducible apply State.fillAnswer_kept
    | with_reducible apply State.retireOf_kept
    | with_reducible apply State.cacheFill_kept
    | with_reducible apply State.settled_kept
    | with_reducible apply State.setCtx_kept
    | with_reducible refine kept_ite ?_ ?_
    | split

theorem State.codeAnswer_kept {q : List Instr} {s : State} {c : CtxId} {b : Word} {p : Packet} (hs : Kept q s) :
    Kept q (State.codeAnswer s c b p) := by
  delta State.codeAnswer
  lift_lets -underBinder
  repeat' first
    | with_reducible assumption
    | (extract_lets +onlyGivenNames -underBinder x; refine (fun hx : Kept q x => ?_) ?_; clear_value x; rotate_left; subst x)
    | (extract_lets +onlyGivenNames -underBinder x; clear_value x)
    | (extract_lets +onlyGivenNames -underBinder x; subst x)
    | with_reducible apply State.remoteFails_kept
    | with_reducible apply State.codeFill_kept
    | with_reducible apply State.settled_kept
    | with_reducible apply State.setCtx_kept
    | with_reducible refine kept_ite ?_ ?_
    | split

theorem State.atomicAnswer_kept {q : List Instr} {s : State} {c : CtxId} {p : Packet} (hs : Kept q s) :
    Kept q (State.atomicAnswer s c p) := by
  delta State.atomicAnswer
  lift_lets -underBinder
  repeat' first
    | with_reducible assumption
    | (extract_lets +onlyGivenNames -underBinder x; refine (fun hx : Kept q x => ?_) ?_; clear_value x; rotate_left; subst x)
    | (extract_lets +onlyGivenNames -underBinder x; clear_value x)
    | with_reducible apply State.remoteFails_kept
    | with_reducible apply State.retireOf_kept
    | with_reducible apply State.settled_kept
    | with_reducible apply State.setCtx_kept
    | with_reducible refine kept_ite ?_ ?_
    | split

theorem State.fetchAnswer_kept {q : List Instr} {s : State} {n : Nat} {p : Packet} (hs : Kept q s) :
    Kept q (State.fetchAnswer s n p) := by
  delta State.fetchAnswer
  lift_lets -underBinder
  repeat' first
    | with_reducible assumption
    | (extract_lets +onlyGivenNames -underBinder x; refine (fun hx : Kept q x => ?_) ?_; clear_value x; rotate_left; subst x)
    | (extract_lets +onlyGivenNames -underBinder x; clear_value x)
    | with_reducible apply State.fetched_kept
    | with_reducible apply State.fetchFailed_kept
    | with_reducible apply State.setRing_kept
    | with_reducible apply State.settled_kept
    | with_reducible refine kept_ite ?_ ?_

theorem State.tripSample_kept {q : List Instr} {s : State} {o : Owner} {p : Packet} (hs : Kept q s) :
    Kept q (State.tripSample s o p) := by
  delta State.tripSample
  lift_lets -underBinder
  repeat' first
    | with_reducible assumption
    | (extract_lets +onlyGivenNames -underBinder x; clear_value x)
    | with_reducible apply State.sampleTime_kept
    | with_reducible refine kept_ite ?_ ?_
    | split

theorem State.handAnswer_kept {q : List Instr} {s : State} {o : Owner} {p : Packet} (hs : Kept q s) :
    Kept q (State.handAnswer s o p) := by
  delta State.handAnswer
  repeat' first
    | with_reducible assumption
    | with_reducible apply State.fetchAnswer_kept
    | with_reducible apply State.atomicAnswer_kept
    | with_reducible apply State.codeAnswer_kept
    | with_reducible apply State.loadAnswer_kept
    | with_reducible apply State.storeAnswer_kept
    | with_reducible apply State.chestAnswer_kept
    | with_reducible apply State.ringDrop_kept
    | with_reducible apply State.ringAnswer_kept
    | with_reducible refine kept_ite ?_ ?_
    | split

theorem State.takeResponse_kept {q : List Instr} {s : State} {p : Packet} (hs : Kept q s) :
    Kept q (State.takeResponse s p) := by
  delta State.takeResponse
  lift_lets -underBinder
  repeat' first
    | with_reducible assumption
    | (extract_lets +onlyGivenNames -underBinder x; refine (fun hx : Kept q x => ?_) ?_; clear_value x; rotate_left; subst x)
    | with_reducible apply State.handAnswer_kept
    | with_reducible apply State.tripSample_kept
    | with_reducible apply State.countMsgAnswer_kept
    | with_reducible apply State.wakeBy_kept
    | with_reducible apply State.sat_kept
    | with_reducible refine kept_ite ?_ ?_
    | split

theorem State.takeBudget_kept {q : List Instr} {s : State} {p : Packet} (hs : Kept q s) :
    Kept q (State.takeBudget s p) := by
  delta State.takeBudget
  lift_lets -underBinder
  repeat' first
    | with_reducible assumption
    | (extract_lets +onlyGivenNames -underBinder x; refine (fun hx : Kept q x => ?_) ?_; clear_value x; rotate_left; subst x)
    | (extract_lets +onlyGivenNames -underBinder x; clear_value x)
    | with_reducible apply State.hwAdd_kept
    | with_reducible apply State.hwSet_kept
    | with_reducible apply State.put_kept
    | with_reducible refine kept_ite ?_ ?_
    | with_reducible (refine Kept.other ?_; assumption)

theorem State.takeSkein_kept {q : List Instr} {s : State} {p : Packet} (hs : Kept q s) :
    Kept q (State.takeSkein s p) := by
  delta State.takeSkein
  lift_lets -underBinder
  repeat' first
    | with_reducible assumption
    | (extract_lets +onlyGivenNames -underBinder x; clear_value x)
    | with_reducible apply State.trigger_kept
    | with_reducible apply State.sat_kept
    | with_reducible refine kept_ite ?_ ?_

theorem State.takeFenceCmd_kept {q : List Instr} {s : State} {p : Packet} (hs : Kept q s) :
    Kept q (State.takeFenceCmd s p) := by
  delta State.takeFenceCmd
  lift_lets -underBinder
  repeat' first
    | with_reducible assumption
    | (extract_lets +onlyGivenNames -underBinder x; refine (fun hx : Kept q x => ?_) ?_; clear_value x; rotate_left; subst x)
    | (extract_lets +onlyGivenNames -underBinder x; clear_value x)
    | with_reducible apply State.requestReset_kept
    | with_reducible apply State.fence_kept
    | with_reducible apply State.record_kept
    | with_reducible apply State.hwAdd_kept
    | with_reducible apply State.put_kept
    | with_reducible refine kept_ite ?_ ?_
    | split

theorem State.takeReport_kept {q : List Instr} {s : State} {p : Packet} (hs : Kept q s) :
    Kept q (State.takeReport s p) := by
  delta State.takeReport
  repeat' first
    | with_reducible assumption
    | with_reducible apply State.hwSet_kept
    | with_reducible refine kept_ite ?_ ?_
    | with_reducible (refine Kept.other ?_; assumption)

theorem State.takeRoot_kept {q : List Instr} {s : State} {p : Packet} (hs : Kept q s) :
    Kept q (State.takeRoot s p) := by
  delta State.takeRoot
  repeat' first
    | with_reducible assumption
    | with_reducible apply State.rootResult_kept
    | with_reducible refine kept_ite ?_ ?_

theorem State.consume_kept {q : List Instr} {s : State} {p : Packet} (hs : Kept q s) :
    Kept q (State.consume s p) := by
  delta State.consume
  repeat' first
    | with_reducible assumption
    | with_reducible apply State.takeRoot_kept
    | with_reducible apply State.takeReport_kept
    | with_reducible apply State.takeFenceCmd_kept
    | with_reducible apply State.takeSkein_kept
    | with_reducible apply State.takeBudget_kept
    | with_reducible apply State.takeResponse_kept
    | with_reducible apply State.takeRequest_kept
    | with_reducible refine kept_ite ?_ ?_

theorem State.deliver_kept {q : List Instr} {s : State} {p : Packet} (hs : Kept q s) :
    Kept q (State.deliver s p) := by
  delta State.deliver
  lift_lets -underBinder
  repeat' first
    | with_reducible assumption
    | (extract_lets +onlyGivenNames -underBinder x; refine (fun hx : Kept q x => ?_) ?_; clear_value x; rotate_left; subst x)
    | (extract_lets +onlyGivenNames -underBinder x; refine (fun hx : Kept q x.2 => ?_) ?_; clear_value x; rotate_left; subst x; change Kept2 q _)
    | (extract_lets +onlyGivenNames -underBinder x; clear_value x)
    | with_reducible apply State.consume_kept
    | with_reducible apply State.dupFilter_kept
    | with_reducible apply State.wakeBy_kept
    | with_reducible apply State.perf_kept
    | with_reducible refine kept_ite ?_ ?_
    | with_reducible (refine Kept.other ?_; assumption)

theorem State.holdL_kept {q : List Instr} {s : State} {inp : Port} {p : Packet} {owed : Nat} (hs : Kept q s) :
    Kept q (State.holdL s inp p owed) := by
  delta State.holdL
  lift_lets -underBinder
  repeat' first
    | (extract_lets +onlyGivenNames -underBinder x; clear_value x)
    | with_reducible (refine Kept.other ?_; assumption)

theorem State.freeBuf_kept {q : List Instr} {s : State} {inp : Port} {vc : BitVec 2} {owed : Nat} (hs : Kept q s) :
    Kept q (State.freeBuf s inp vc owed) := by
  delta State.freeBuf
  repeat' first
    | with_reducible assumption
    | with_reducible apply State.credit_kept
    | with_reducible refine kept_ite ?_ ?_

theorem State.toL_kept {q : List Instr} {inp : Port} {r : Routed}  (hr : Kept q r.1) :
    Kept q (State.toL inp r) := by
  delta State.toL
  repeat' first
    | with_reducible assumption
    | with_reducible apply State.freeBuf_kept
    | with_reducible apply State.holdL_kept
    | with_reducible apply State.deliver_kept
    | with_reducible apply State.granted_kept
    | with_reducible refine kept_ite ?_ ?_
    | split

theorem State.routeHead_kept {q : List Instr} {s : State} {inp : Port} {p : Packet} {owed : Nat} (hs : Kept q s) :
    Kept q (State.routeHead s inp p owed) := by
  delta State.routeHead
  extract_lets x
  have hx : Kept q x := by
    subst x
    refine State.meshBusy_kept ?_
    split
    · exact State.perf_kept hs
    · exact hs
  clear_value x
  split
  · split
    · exact OptKept.eq (State.plyInput_kept hx) (by assumption)
    · exact Kept.other hx
  · exact State.toL_kept (State.route_kept hx)

theorem State.retryPly_kept {q : List Instr} {s : State} {before : List (Port × Packet × Nat)} {a0 : List (Port × Packet × Nat)} (hs : Kept q s) :
    OptKept q (State.retryPly s before a0) := by
  induction a0 generalizing before with
  | nil =>
    rw [State.retryPly]
    exact OptKept.none
  | cons e r ih =>
    rw [State.retryPly]
    exact optkept_ite (State.plyInput_kept (Kept.other hs)) ih

theorem State.linksEnter_kept {q : List Instr} {s : State} (hs : Kept q s) :
    OptKept q (State.linksEnter s) := by
  delta State.linksEnter
  generalize [Port.n, Port.e, Port.s, Port.w] = l
  induction l with
  | nil => exact OptKept.none
  | cons p r ih =>
    rw [List.findSome?_cons]
    split
    · rename_i u hu
      split at hu
      · exact OptKept.some (OptKept.eq (State.linkEntry_kept hs) hu)
      · cases hu
    · exact ih

theorem State.routeStep_kept {q : List Instr} {s : State} (hs : Kept q s) :
    OptKept q (State.routeStep s) := by
  delta State.routeStep
  repeat' first
    | with_reducible assumption
    | (extract_lets +onlyGivenNames -underBinder x; clear_value x)
    | with_reducible apply State.retryPly_kept
    | with_reducible apply State.routeHead_kept
    | with_reducible apply State.toL_kept
    | with_reducible apply State.deliver_kept
    | with_reducible apply State.consume_kept
    | with_reducible apply State.restrand_kept
    | with_reducible apply State.escMove_kept
    | with_reducible apply State.dropHeld_kept
    | with_reducible apply State.granted_kept
    | with_reducible apply State.plyForward_kept
    | with_reducible apply OptKept.some
    | with_reducible apply OptKept.none
    | split
    | with_reducible refine Kept1.snd (Kept1.mk ?_)
    | with_reducible refine Kept1.eq ?_ (by assumption)
    | with_reducible refine OptKept.eq ?_ (by assumption)
    | with_reducible (refine Kept.other ?_; assumption)

theorem State.settleStep_kept {q : List Instr} {s : State} (hs : Kept q s) :
    OptKept q (State.settleStep s) := by
  delta State.settleStep
  repeat' first
    | with_reducible assumption
    | with_reducible apply State.routeStep_kept
    | with_reducible apply State.linksEnter_kept
    | with_reducible apply OptKept.some
    | with_reducible apply OptKept.none
    | with_reducible refine optkept_ite ?_ ?_
    | split
    | with_reducible refine OptKept.eq ?_ (by assumption)

theorem State.settleN_kept {q : List Instr} {a0 : Nat} {s : State} (hs : Kept q s) :
    Kept q (State.settleN a0 s) := by
  induction a0 generalizing s with
  | zero => exact hs
  | succ n ih =>
  rw [State.settleN]
  repeat' first
    | with_reducible assumption
    | with_reducible apply State.settleStep_kept
    | with_reducible apply ih
    | split
    | with_reducible refine OptKept.eq ?_ (by assumption)

theorem State.settle_kept {q : List Instr} {s : State} (hs : Kept q s) :
    Kept q (State.settle s) := by
  delta State.settle
  repeat' first
    | with_reducible assumption
    | with_reducible apply State.settleN_kept
    | with_reducible apply State.refresh_kept

/-! ### Run -/

theorem State.taken_kept {q : List Instr} {s : State} (hs : Kept q s) :
    Kept q (State.taken s) := by
  delta State.taken
  repeat' first
    | with_reducible assumption
    | with_reducible apply State.settle_kept
    | with_reducible apply State.refresh_kept
    | with_reducible refine kept_ite ?_ ?_

theorem State.conclude_kept {q : List Instr} {s0 : State} {e : Enc} {pc : Word} {d : Done} (_hs0 : Kept q s0) (hd : DKept q d) :
    Kept q (State.conclude s0 e pc d) := by
  delta State.conclude
  lift_lets -underBinder
  repeat' first
    | (extract_lets +onlyGivenNames -underBinder x; clear_value x)
    | with_reducible apply State.retire_kept
    | with_reducible apply State.refresh_kept
    | with_reducible apply State.taken_kept
    | with_reducible apply State.raiseM_kept
    | with_reducible apply State.raise_kept
    | with_reducible apply State.perf_kept
    | split
    | exact hd

theorem State.notIssued_kept {q : List Instr} {s : State} (hs : Kept q s) :
    Kept q (State.notIssued s) := by
  delta State.notIssued
  repeat' first
    | with_reducible assumption
    | with_reducible apply State.settle_kept
    | with_reducible apply State.checkstop_kept
    | with_reducible refine kept_ite ?_ ?_
    | split

theorem State.issue_kept {q : List Instr} {s : State} {e : Enc} {body : State → Done} (hs : Kept q s) (hbody : ∀ x0, Kept q x0 → DKept q (body x0)) :
    Kept q (State.issue s e body) := by
  delta State.issue
  lift_lets -underBinder
  repeat' first
    | with_reducible assumption
    | (extract_lets +onlyGivenNames -underBinder x; refine (fun hx : Kept q x => ?_) ?_; clear_value x; rotate_left; subst x)
    | (extract_lets +onlyGivenNames -underBinder x; clear_value x)
    | with_reducible apply State.notIssued_kept
    | with_reducible apply State.conclude_kept
    | with_reducible apply State.retire_kept
    | with_reducible apply State.fetchNoted_kept
    | with_reducible apply State.askFetch_kept
    | with_reducible apply State.settle_kept
    | with_reducible apply State.taken_kept
    | with_reducible apply State.begun_kept
    | with_reducible apply State.raise_kept
    | with_reducible apply hbody
    | with_reducible apply DKept.exc
    | with_reducible refine kept_ite ?_ ?_
    | split

theorem State.unnamed_kept {q : List Instr} {s : State} {p : Nat} (hs : Kept q s) : Kept q (s.unnamed p) :=
  State.issue_kept hs fun _ h => DKept.next h

end Sys2Proof.Machine
end

