-- ==== Sys2Proof/Laws/KeptInstr.lean ====
section
/-! SUPPORT. Every Core instruction's meaning keeps `Kept`. One lemma per definition. -/

set_option Elab.async false

namespace Sys2Proof.Machine

/-! ### Scalar -/

theorem State.aluF_kept {q : List Instr} {s : State} {op : Nat} {a : FrameA} {f : State → Word → Word → Word × Flags} (hs : Kept q s) :
    Kept q (State.aluF s op a f) := by
  delta State.aluF
  repeat' first
    | with_reducible assumption
    | with_reducible apply State.result_kept
    | with_reducible apply State.issue_kept
    | with_reducible intro _

theorem State.aluN_kept {q : List Instr} {s : State} {op : Nat} {ok : Bool} {a : FrameA} {f : State → Word → Word → Word} (hs : Kept q s) :
    Kept q (State.aluN s op ok a f) := by
  delta State.aluN
  repeat' first
    | with_reducible assumption
    | with_reducible apply State.value_kept
    | with_reducible apply State.issue_kept
    | with_reducible intro _

theorem execAdd_kept {q : List Instr} {a : FrameA} {s : State} (hs : Kept q s) :
    OutKept q (execAdd a s) := by
  delta execAdd
  repeat' first
    | with_reducible assumption
    | with_reducible apply State.aluF_kept
    | with_reducible apply OutKept.next

theorem execSub_kept {q : List Instr} {a : FrameA} {s : State} (hs : Kept q s) :
    OutKept q (execSub a s) := by
  delta execSub
  repeat' first
    | with_reducible assumption
    | with_reducible apply State.aluF_kept
    | with_reducible apply OutKept.next

theorem execAdc_kept {q : List Instr} {a : FrameA} {s : State} (hs : Kept q s) :
    OutKept q (execAdc a s) := by
  delta execAdc
  repeat' first
    | with_reducible assumption
    | with_reducible apply State.aluF_kept
    | with_reducible apply OutKept.next

theorem execSbc_kept {q : List Instr} {a : FrameA} {s : State} (hs : Kept q s) :
    OutKept q (execSbc a s) := by
  delta execSbc
  repeat' first
    | with_reducible assumption
    | with_reducible apply State.aluF_kept
    | with_reducible apply OutKept.next

theorem execAnd_kept {q : List Instr} {a : FrameA} {s : State} (hs : Kept q s) :
    OutKept q (execAnd a s) := by
  delta execAnd
  repeat' first
    | with_reducible assumption
    | with_reducible apply State.aluF_kept
    | with_reducible apply OutKept.next

theorem execOr_kept {q : List Instr} {a : FrameA} {s : State} (hs : Kept q s) :
    OutKept q (execOr a s) := by
  delta execOr
  repeat' first
    | with_reducible assumption
    | with_reducible apply State.aluF_kept
    | with_reducible apply OutKept.next

theorem execXor_kept {q : List Instr} {a : FrameA} {s : State} (hs : Kept q s) :
    OutKept q (execXor a s) := by
  delta execXor
  repeat' first
    | with_reducible assumption
    | with_reducible apply State.aluF_kept
    | with_reducible apply OutKept.next

theorem execAndn_kept {q : List Instr} {a : FrameA} {s : State} (hs : Kept q s) :
    OutKept q (execAndn a s) := by
  delta execAndn
  repeat' first
    | with_reducible assumption
    | with_reducible apply State.aluF_kept
    | with_reducible apply OutKept.next

theorem execShl_kept {q : List Instr} {a : FrameA} {s : State} (hs : Kept q s) :
    OutKept q (execShl a s) := by
  delta execShl
  repeat' first
    | with_reducible assumption
    | with_reducible apply State.aluF_kept
    | with_reducible apply OutKept.next

theorem execShr_kept {q : List Instr} {a : FrameA} {s : State} (hs : Kept q s) :
    OutKept q (execShr a s) := by
  delta execShr
  repeat' first
    | with_reducible assumption
    | with_reducible apply State.aluF_kept
    | with_reducible apply OutKept.next

theorem execSar_kept {q : List Instr} {a : FrameA} {s : State} (hs : Kept q s) :
    OutKept q (execSar a s) := by
  delta execSar
  repeat' first
    | with_reducible assumption
    | with_reducible apply State.aluF_kept
    | with_reducible apply OutKept.next

theorem execRor_kept {q : List Instr} {a : FrameA} {s : State} (hs : Kept q s) :
    OutKept q (execRor a s) := by
  delta execRor
  repeat' first
    | with_reducible assumption
    | with_reducible apply State.aluF_kept
    | with_reducible apply OutKept.next

theorem execSlt_kept {q : List Instr} {a : FrameA} {s : State} (hs : Kept q s) :
    OutKept q (execSlt a s) := by
  delta execSlt
  repeat' first
    | with_reducible assumption
    | with_reducible apply State.aluN_kept
    | with_reducible apply OutKept.next

theorem execSltu_kept {q : List Instr} {a : FrameA} {s : State} (hs : Kept q s) :
    OutKept q (execSltu a s) := by
  delta execSltu
  repeat' first
    | with_reducible assumption
    | with_reducible apply State.aluN_kept
    | with_reducible apply OutKept.next

theorem execMin_kept {q : List Instr} {a : FrameA} {s : State} (hs : Kept q s) :
    OutKept q (execMin a s) := by
  delta execMin
  repeat' first
    | with_reducible assumption
    | with_reducible apply State.aluN_kept
    | with_reducible apply OutKept.next

theorem execMax_kept {q : List Instr} {a : FrameA} {s : State} (hs : Kept q s) :
    OutKept q (execMax a s) := by
  delta execMax
  repeat' first
    | with_reducible assumption
    | with_reducible apply State.aluN_kept
    | with_reducible apply OutKept.next

theorem execMinu_kept {q : List Instr} {a : FrameA} {s : State} (hs : Kept q s) :
    OutKept q (execMinu a s) := by
  delta execMinu
  repeat' first
    | with_reducible assumption
    | with_reducible apply State.aluN_kept
    | with_reducible apply OutKept.next

theorem execMaxu_kept {q : List Instr} {a : FrameA} {s : State} (hs : Kept q s) :
    OutKept q (execMaxu a s) := by
  delta execMaxu
  repeat' first
    | with_reducible assumption
    | with_reducible apply State.aluN_kept
    | with_reducible apply OutKept.next

theorem execClz_kept {q : List Instr} {a : FrameA} {s : State} (hs : Kept q s) :
    OutKept q (execClz a s) := by
  delta execClz
  repeat' first
    | with_reducible assumption
    | with_reducible apply State.aluN_kept
    | with_reducible apply OutKept.next

theorem execPopc_kept {q : List Instr} {a : FrameA} {s : State} (hs : Kept q s) :
    OutKept q (execPopc a s) := by
  delta execPopc
  repeat' first
    | with_reducible assumption
    | with_reducible apply State.aluN_kept
    | with_reducible apply OutKept.next

theorem execSel_kept {q : List Instr} {a : FrameA} {s : State} (hs : Kept q s) :
    OutKept q (execSel a s) := by
  delta execSel
  repeat' first
    | with_reducible assumption
    | with_reducible apply State.aluN_kept
    | with_reducible apply OutKept.next

theorem State.produce_kept {q : List Instr} {s : State} {p : Int} (hs : Kept q s) :
    DKept q (State.produce s p) := by
  delta State.produce
  lift_lets -underBinder
  repeat' first
    | with_reducible assumption
    | (extract_lets +onlyGivenNames -underBinder x; clear_value x)
    | with_reducible apply State.setCx_kept
    | with_reducible apply DKept.next

theorem execMul_kept {q : List Instr} {a : FrameA} {s : State} (hs : Kept q s) :
    OutKept q (execMul a s) := by
  delta execMul
  repeat' first
    | with_reducible assumption
    | with_reducible apply State.produce_kept
    | with_reducible apply State.issue_kept
    | with_reducible apply OutKept.next
    | with_reducible intro _

theorem execMulu_kept {q : List Instr} {a : FrameA} {s : State} (hs : Kept q s) :
    OutKept q (execMulu a s) := by
  delta execMulu
  repeat' first
    | with_reducible assumption
    | with_reducible apply State.produce_kept
    | with_reducible apply State.issue_kept
    | with_reducible apply OutKept.next
    | with_reducible intro _

theorem execDiv_kept {q : List Instr} {a : FrameA} {s : State} (hs : Kept q s) :
    OutKept q (execDiv a s) := by
  delta execDiv
  repeat' first
    | with_reducible assumption
    | with_reducible apply State.value_kept
    | with_reducible apply State.issue_kept
    | with_reducible apply OutKept.next
    | with_reducible intro _

theorem execDivu_kept {q : List Instr} {a : FrameA} {s : State} (hs : Kept q s) :
    OutKept q (execDivu a s) := by
  delta execDivu
  repeat' first
    | with_reducible assumption
    | with_reducible apply State.value_kept
    | with_reducible apply State.issue_kept
    | with_reducible apply OutKept.next
    | with_reducible intro _

theorem execRem_kept {q : List Instr} {a : FrameA} {s : State} (hs : Kept q s) :
    OutKept q (execRem a s) := by
  delta execRem
  repeat' first
    | with_reducible assumption
    | with_reducible apply State.value_kept
    | with_reducible apply State.issue_kept
    | with_reducible apply OutKept.next
    | with_reducible intro _

theorem execRemu_kept {q : List Instr} {a : FrameA} {s : State} (hs : Kept q s) :
    OutKept q (execRemu a s) := by
  delta execRemu
  repeat' first
    | with_reducible assumption
    | with_reducible apply State.value_kept
    | with_reducible apply State.issue_kept
    | with_reducible apply OutKept.next
    | with_reducible intro _

theorem State.immN_kept {q : List Instr} {s : State} {major : Nat} {b : FrameB} {f : Word → Word} (hs : Kept q s) :
    Kept q (State.immN s major b f) := by
  delta State.immN
  repeat' first
    | with_reducible assumption
    | with_reducible apply State.value_kept
    | with_reducible apply State.issue_kept
    | with_reducible intro _

theorem execAddi_kept {q : List Instr} {f : Bool} {b : FrameB} {s : State} (hs : Kept q s) :
    OutKept q (execAddi f b s) := by
  delta execAddi
  repeat' first
    | with_reducible assumption
    | with_reducible apply State.result_kept
    | with_reducible apply State.issue_kept
    | with_reducible apply OutKept.next
    | with_reducible intro _

theorem execSubi_kept {q : List Instr} {b : FrameB} {s : State} (hs : Kept q s) :
    OutKept q (execSubi b s) := by
  delta execSubi
  repeat' first
    | with_reducible assumption
    | with_reducible apply State.result_kept
    | with_reducible apply State.issue_kept
    | with_reducible apply OutKept.next
    | with_reducible intro _

theorem execAndi_kept {q : List Instr} {b : FrameB} {s : State} (hs : Kept q s) :
    OutKept q (execAndi b s) := by
  delta execAndi
  repeat' first
    | with_reducible assumption
    | with_reducible apply State.immN_kept
    | with_reducible apply OutKept.next

theorem execOri_kept {q : List Instr} {b : FrameB} {s : State} (hs : Kept q s) :
    OutKept q (execOri b s) := by
  delta execOri
  repeat' first
    | with_reducible assumption
    | with_reducible apply State.immN_kept
    | with_reducible apply OutKept.next

theorem execXori_kept {q : List Instr} {b : FrameB} {s : State} (hs : Kept q s) :
    OutKept q (execXori b s) := by
  delta execXori
  repeat' first
    | with_reducible assumption
    | with_reducible apply State.immN_kept
    | with_reducible apply OutKept.next

theorem State.shiftImm_kept {q : List Instr} {s : State} {k : ShiftKind} {code : Nat} {b : FrameSh} (hs : Kept q s) :
    Kept q (State.shiftImm s k code b) := by
  delta State.shiftImm
  repeat' first
    | with_reducible assumption
    | with_reducible apply State.result_kept
    | with_reducible apply State.issue_kept
    | with_reducible intro _

theorem execShli_kept {q : List Instr} {b : FrameSh} {s : State} (hs : Kept q s) :
    OutKept q (execShli b s) := by
  delta execShli
  repeat' first
    | with_reducible assumption
    | with_reducible apply State.shiftImm_kept
    | with_reducible apply OutKept.next

theorem execShri_kept {q : List Instr} {b : FrameSh} {s : State} (hs : Kept q s) :
    OutKept q (execShri b s) := by
  delta execShri
  repeat' first
    | with_reducible assumption
    | with_reducible apply State.shiftImm_kept
    | with_reducible apply OutKept.next

theorem execSari_kept {q : List Instr} {b : FrameSh} {s : State} (hs : Kept q s) :
    OutKept q (execSari b s) := by
  delta execSari
  repeat' first
    | with_reducible assumption
    | with_reducible apply State.shiftImm_kept
    | with_reducible apply OutKept.next

theorem execRori_kept {q : List Instr} {b : FrameSh} {s : State} (hs : Kept q s) :
    OutKept q (execRori b s) := by
  delta execRori
  repeat' first
    | with_reducible assumption
    | with_reducible apply State.shiftImm_kept
    | with_reducible apply OutKept.next

theorem execSlti_kept {q : List Instr} {b : FrameB} {s : State} (hs : Kept q s) :
    OutKept q (execSlti b s) := by
  delta execSlti
  repeat' first
    | with_reducible assumption
    | with_reducible apply State.immN_kept
    | with_reducible apply OutKept.next

theorem execSltiu_kept {q : List Instr} {b : FrameB} {s : State} (hs : Kept q s) :
    OutKept q (execSltiu b s) := by
  delta execSltiu
  repeat' first
    | with_reducible assumption
    | with_reducible apply State.immN_kept
    | with_reducible apply OutKept.next

theorem execMovh_kept {q : List Instr} {e : FrameE} {s : State} (hs : Kept q s) :
    OutKept q (execMovh e s) := by
  delta execMovh
  repeat' first
    | with_reducible assumption
    | with_reducible apply State.value_kept
    | with_reducible apply State.issue_kept
    | with_reducible apply OutKept.next
    | with_reducible intro _

theorem execLiw_kept {q : List Instr} {l : FrameL} {s : State} (hs : Kept q s) :
    OutKept q (execLiw l s) := by
  delta execLiw
  repeat' first
    | with_reducible assumption
    | with_reducible apply State.value_kept
    | with_reducible apply State.issue_kept
    | with_reducible apply OutKept.next
    | with_reducible intro _

theorem execLiwh_kept {q : List Instr} {l : FrameL} {s : State} (hs : Kept q s) :
    OutKept q (execLiwh l s) := by
  delta execLiwh
  repeat' first
    | with_reducible assumption
    | with_reducible apply State.value_kept
    | with_reducible apply State.issue_kept
    | with_reducible apply OutKept.next
    | with_reducible intro _

/-! ### Control -/

theorem execB_kept {q : List Instr} {c : FrameC} {s : State} (hs : Kept q s) :
    OutKept q (execB c s) := by
  delta execB
  repeat' first
    | with_reducible assumption
    | with_reducible apply State.issue_kept
    | with_reducible apply OutKept.next
    | with_reducible apply DKept.next
    | with_reducible apply DKept.to
    | split
    | with_reducible intro _

theorem execJ_kept {q : List Instr} {d : FrameD} {s : State} (hs : Kept q s) :
    OutKept q (execJ d s) := by
  delta execJ
  repeat' first
    | with_reducible assumption
    | with_reducible apply State.issue_kept
    | with_reducible apply OutKept.next
    | with_reducible apply DKept.to
    | with_reducible intro _

theorem execJr_kept {q : List Instr} {b : FrameB} {s : State} (hs : Kept q s) :
    OutKept q (execJr b s) := by
  delta execJr
  repeat' first
    | with_reducible assumption
    | (extract_lets +onlyGivenNames -underBinder x; clear_value x)
    | with_reducible apply State.issue_kept
    | with_reducible apply OutKept.next
    | with_reducible apply DKept.to
    | with_reducible apply DKept.exc
    | with_reducible refine dkept_ite ?_ ?_
    | with_reducible intro _

theorem State.enterCall_kept {q : List Instr} {s : State} {ra target : Word} (hs : Kept q s) :
    DKept q (State.enterCall s ra target) := by
  delta State.enterCall
  lift_lets -underBinder
  repeat' first
    | with_reducible assumption
    | (extract_lets +onlyGivenNames -underBinder x; clear_value x)
    | with_reducible apply State.setCx_kept
    | with_reducible apply DKept.to
    | with_reducible apply DKept.exc
    | with_reducible refine dkept_ite ?_ ?_

theorem State.callTo_kept {q : List Instr} {s : State} {target : Word} (hs : Kept q s) :
    DKept q (State.callTo s target) := by
  delta State.callTo
  lift_lets -underBinder
  repeat' first
    | with_reducible assumption
    | (extract_lets +onlyGivenNames -underBinder x; clear_value x)
    | with_reducible apply State.enterCall_kept
    | with_reducible apply State.setCx_kept
    | with_reducible apply DKept.excM
    | with_reducible refine dkept_ite ?_ ?_
    | split

theorem execCall_kept {q : List Instr} {d : FrameD} {s : State} (hs : Kept q s) :
    OutKept q (execCall d s) := by
  delta execCall
  repeat' first
    | with_reducible assumption
    | with_reducible apply State.callTo_kept
    | with_reducible apply State.issue_kept
    | with_reducible apply OutKept.next
    | with_reducible apply DKept.exc
    | split
    | with_reducible intro _

theorem execCallr_kept {q : List Instr} {b : FrameB} {s : State} (hs : Kept q s) :
    OutKept q (execCallr b s) := by
  delta execCallr
  repeat' first
    | with_reducible assumption
    | (extract_lets +onlyGivenNames -underBinder x; clear_value x)
    | with_reducible apply State.callTo_kept
    | with_reducible apply State.issue_kept
    | with_reducible apply OutKept.next
    | with_reducible apply DKept.exc
    | with_reducible refine dkept_ite ?_ ?_
    | split
    | with_reducible intro _

theorem execRet_kept {q : List Instr} {d : FrameD} {s : State} (hs : Kept q s) :
    OutKept q (execRet d s) := by
  delta execRet
  repeat' first
    | with_reducible assumption
    | (extract_lets +onlyGivenNames -underBinder x; clear_value x)
    | with_reducible apply State.issue_kept
    | with_reducible apply State.setCx_kept
    | with_reducible apply OutKept.next
    | with_reducible apply DKept.to
    | with_reducible apply DKept.exc
    | with_reducible refine dkept_ite ?_ ?_
    | with_reducible intro _

theorem execPset_kept {q : List Instr} {c : FrameC} {s : State} (hs : Kept q s) :
    OutKept q (execPset c s) := by
  delta execPset
  repeat' first
    | with_reducible assumption
    | (extract_lets +onlyGivenNames -underBinder x; clear_value x)
    | with_reducible apply State.issue_kept
    | with_reducible apply State.setCx_kept
    | with_reducible apply OutKept.next
    | with_reducible apply DKept.next
    | with_reducible intro _

/-! ### MemInstr -/

theorem Done.settled_kept {q : List Instr} {d : Done} (hd : DKept q d) : DKept q d.settled := by
  cases d
  · exact DKept.next (State.settle_kept hd)
  · exact hd
  · exact hd
  · exact hd
  · exact hd
  · exact hd
  · exact DKept.wait (State.settle_kept hd)

theorem State.accessed_kept {q : List Instr} {s : State} {a : Word} {d : Done} (_hs : Kept q s) (hd : DKept q d) :
    DKept q (State.accessed s a d) := by
  delta State.accessed
  repeat' first
    | with_reducible assumption
    | with_reducible apply Done.settled_kept
    | split

theorem State.load_kept {q : List Instr} {s : State} {major bytes : Nat} {sg : Bool} {b : FrameB} (hs : Kept q s) :
    Kept q (State.load s major bytes sg b) := by
  delta State.load
  repeat' first
    | with_reducible assumption
    | with_reducible apply State.accessed_kept
    | with_reducible apply State.loadAt_kept
    | with_reducible apply State.issue_kept
    | with_reducible intro _

theorem State.store_kept {q : List Instr} {s : State} {major bytes : Nat} {b : FrameB} (hs : Kept q s) :
    Kept q (State.store s major bytes b) := by
  delta State.store
  repeat' first
    | with_reducible assumption
    | with_reducible apply State.accessed_kept
    | with_reducible apply State.storeAt_kept
    | with_reducible apply State.issue_kept
    | with_reducible intro _

theorem execLb_kept {q : List Instr} {b : FrameB} {s : State} (hs : Kept q s) :
    OutKept q (execLb b s) := by
  delta execLb
  repeat' first
    | with_reducible assumption
    | with_reducible apply State.load_kept
    | with_reducible apply OutKept.next

theorem execLbu_kept {q : List Instr} {b : FrameB} {s : State} (hs : Kept q s) :
    OutKept q (execLbu b s) := by
  delta execLbu
  repeat' first
    | with_reducible assumption
    | with_reducible apply State.load_kept
    | with_reducible apply OutKept.next

theorem execLh_kept {q : List Instr} {b : FrameB} {s : State} (hs : Kept q s) :
    OutKept q (execLh b s) := by
  delta execLh
  repeat' first
    | with_reducible assumption
    | with_reducible apply State.load_kept
    | with_reducible apply OutKept.next

theorem execLhu_kept {q : List Instr} {b : FrameB} {s : State} (hs : Kept q s) :
    OutKept q (execLhu b s) := by
  delta execLhu
  repeat' first
    | with_reducible assumption
    | with_reducible apply State.load_kept
    | with_reducible apply OutKept.next

theorem execLw_kept {q : List Instr} {b : FrameB} {s : State} (hs : Kept q s) :
    OutKept q (execLw b s) := by
  delta execLw
  repeat' first
    | with_reducible assumption
    | with_reducible apply State.load_kept
    | with_reducible apply OutKept.next

theorem execLwu_kept {q : List Instr} {b : FrameB} {s : State} (hs : Kept q s) :
    OutKept q (execLwu b s) := by
  delta execLwu
  repeat' first
    | with_reducible assumption
    | with_reducible apply State.load_kept
    | with_reducible apply OutKept.next

theorem execLd_kept {q : List Instr} {b : FrameB} {s : State} (hs : Kept q s) :
    OutKept q (execLd b s) := by
  delta execLd
  repeat' first
    | with_reducible assumption
    | with_reducible apply State.load_kept
    | with_reducible apply OutKept.next

theorem execSb_kept {q : List Instr} {b : FrameB} {s : State} (hs : Kept q s) :
    OutKept q (execSb b s) := by
  delta execSb
  repeat' first
    | with_reducible assumption
    | with_reducible apply State.store_kept
    | with_reducible apply OutKept.next

theorem execSh_kept {q : List Instr} {b : FrameB} {s : State} (hs : Kept q s) :
    OutKept q (execSh b s) := by
  delta execSh
  repeat' first
    | with_reducible assumption
    | with_reducible apply State.store_kept
    | with_reducible apply OutKept.next

theorem execSw_kept {q : List Instr} {b : FrameB} {s : State} (hs : Kept q s) :
    OutKept q (execSw b s) := by
  delta execSw
  repeat' first
    | with_reducible assumption
    | with_reducible apply State.store_kept
    | with_reducible apply OutKept.next

theorem execSt_kept {q : List Instr} {b : FrameB} {s : State} (hs : Kept q s) :
    OutKept q (execSt b s) := by
  delta execSt
  repeat' first
    | with_reducible assumption
    | with_reducible apply State.store_kept
    | with_reducible apply OutKept.next

theorem State.atomicI_kept {q : List Instr} {s : State} {op : Nat} {cas : Bool} {a : FrameA} (hs : Kept q s) :
    Kept q (State.atomicI s op cas a) := by
  delta State.atomicI
  repeat' first
    | with_reducible assumption
    | with_reducible apply State.accessed_kept
    | with_reducible apply State.atomicAt_kept
    | with_reducible apply State.issue_kept
    | with_reducible intro _

theorem execAadd_kept {q : List Instr} {a : FrameA} {s : State} (hs : Kept q s) :
    OutKept q (execAadd a s) := by
  delta execAadd
  repeat' first
    | with_reducible assumption
    | with_reducible apply State.atomicI_kept
    | with_reducible apply OutKept.next

theorem execAcas_kept {q : List Instr} {a : FrameA} {s : State} (hs : Kept q s) :
    OutKept q (execAcas a s) := by
  delta execAcas
  repeat' first
    | with_reducible assumption
    | with_reducible apply State.atomicI_kept
    | with_reducible apply OutKept.next

theorem execFence_kept {q : List Instr} {a : FrameA} {s : State} (hs : Kept q s) :
    OutKept q (execFence a s) := by
  delta execFence
  repeat' first
    | with_reducible assumption
    | (extract_lets +onlyGivenNames -underBinder x; clear_value x)
    | with_reducible apply State.issue_kept
    | with_reducible apply State.setCx_kept
    | with_reducible apply OutKept.next
    | with_reducible apply DKept.next
    | with_reducible apply DKept.exc
    | with_reducible apply DKept.wait
    | split
    | with_reducible intro _

theorem State.cacheOp_kept {q : List Instr} {s : State} {op level : Nat} {b : FrameB} {f : State → Word → State} (hs : Kept q s) (hf : ∀ x0 x1, Kept q x0 → Kept q (f x0 x1)) :
    Kept q (State.cacheOp s op level b f) := by
  delta State.cacheOp
  repeat' first
    | with_reducible assumption
    | with_reducible apply State.issue_kept
    | with_reducible apply hf
    | with_reducible apply DKept.next
    | with_reducible intro _

theorem execDinvl_kept {q : List Instr} {b : FrameB} {s : State} (hs : Kept q s) :
    OutKept q (execDinvl b s) := by
  delta execDinvl
  repeat' first
    | with_reducible assumption
    | with_reducible apply State.cacheOp_kept
    | with_reducible apply State.invalLine_kept
    | with_reducible apply OutKept.next
    | with_reducible intro _

theorem execIinvl_kept {q : List Instr} {b : FrameB} {s : State} (hs : Kept q s) :
    OutKept q (execIinvl b s) := by
  delta execIinvl
  repeat' first
    | with_reducible assumption
    | with_reducible apply State.cacheOp_kept
    | with_reducible apply State.invalLine_kept
    | with_reducible apply OutKept.next
    | with_reducible intro _

theorem execDinva_kept {q : List Instr} {b : FrameB} {s : State} (hs : Kept q s) :
    OutKept q (execDinva b s) := by
  delta execDinva
  repeat' first
    | with_reducible assumption
    | with_reducible apply State.cacheOp_kept
    | with_reducible apply State.invalAll_kept
    | with_reducible apply OutKept.next
    | with_reducible intro _

theorem execIinva_kept {q : List Instr} {b : FrameB} {s : State} (hs : Kept q s) :
    OutKept q (execIinva b s) := by
  delta execIinva
  repeat' first
    | with_reducible assumption
    | with_reducible apply State.cacheOp_kept
    | with_reducible apply State.invalAll_kept
    | with_reducible apply OutKept.next
    | with_reducible intro _

theorem execWspill_kept {q : List Instr} {a : FrameA} {s : State} (hs : Kept q s) :
    OutKept q (execWspill a s) := by
  delta execWspill
  repeat' first
    | with_reducible assumption
    | (extract_lets +onlyGivenNames -underBinder x; clear_value x)
    | with_reducible apply State.accessed_kept
    | with_reducible apply State.storeDws_kept
    | with_reducible apply State.issue_kept
    | with_reducible apply State.setCx_kept
    | with_reducible apply OutKept.next
    | with_reducible apply DKept.next
    | with_reducible apply DKept.exc
    | with_reducible refine dkept_ite ?_ ?_
    | split
    | with_reducible intro _

theorem execWfill_kept {q : List Instr} {a : FrameA} {s : State} (hs : Kept q s) :
    OutKept q (execWfill a s) := by
  delta execWfill
  repeat' first
    | with_reducible assumption
    | (extract_lets +onlyGivenNames -underBinder x; clear_value x)
    | with_reducible apply State.accessed_kept
    | with_reducible apply State.fillDws_kept
    | with_reducible apply State.issue_kept
    | with_reducible apply OutKept.next
    | with_reducible apply DKept.next
    | with_reducible apply DKept.exc
    | with_reducible refine dkept_ite ?_ ?_
    | with_reducible intro _

theorem execRspill_kept {q : List Instr} {a : FrameA} {s : State} (hs : Kept q s) :
    OutKept q (execRspill a s) := by
  delta execRspill
  repeat' first
    | with_reducible assumption
    | (extract_lets +onlyGivenNames -underBinder x; clear_value x)
    | with_reducible apply State.accessed_kept
    | with_reducible apply State.storeDws_kept
    | with_reducible apply State.issue_kept
    | with_reducible apply State.setCx_kept
    | with_reducible apply OutKept.next
    | with_reducible apply DKept.next
    | with_reducible apply DKept.exc
    | with_reducible refine dkept_ite ?_ ?_
    | split
    | with_reducible intro _

theorem execRfill_kept {q : List Instr} {a : FrameA} {s : State} (hs : Kept q s) :
    OutKept q (execRfill a s) := by
  delta execRfill
  repeat' first
    | with_reducible assumption
    | (extract_lets +onlyGivenNames -underBinder x; clear_value x)
    | with_reducible apply State.accessed_kept
    | with_reducible apply State.fillDws_kept
    | with_reducible apply State.issue_kept
    | with_reducible apply OutKept.next
    | with_reducible apply DKept.next
    | with_reducible apply DKept.exc
    | with_reducible refine dkept_ite ?_ ?_
    | with_reducible intro _

theorem State.setPage_kept {q : List Instr} {s : State} {p tag claim : Nat} (hs : Kept q s) :
    Kept q (State.setPage s p tag claim) := by
  delta State.setPage
  repeat' first
    | with_reducible assumption
    | with_reducible apply State.put_kept

theorem State.zeroPage_kept {q : List Instr} {s : State} {p : Nat} (hs : Kept q s) :
    Kept q (State.zeroPage s p) := by
  delta State.zeroPage
  lift_lets -underBinder
  repeat' first
    | with_reducible assumption
    | (extract_lets +onlyGivenNames -underBinder x; refine (fun hx : Kept q x => ?_) ?_; clear_value x; rotate_left; subst x)
    | with_reducible apply State.lmGrant_kept
    | (refine Kept.store ?_ (Mem.wf_clear _ _ (Kept.mem hx)) (twf_tclear _ _ (Kept.ecc hx)); with_reducible assumption)

theorem State.claim_kept {q : List Instr} {s : State} {p : Nat} {rd : BitVec 5} {v : Word} (hs : Kept q s) :
    DKept q (State.claim s p rd v) := by
  delta State.claim
  lift_lets -underBinder
  repeat' first
    | with_reducible assumption
    | (extract_lets +onlyGivenNames -underBinder x; refine (fun hx : Kept q x => ?_) ?_; clear_value x; rotate_left; subst x)
    | (extract_lets +onlyGivenNames -underBinder x; clear_value x)
    | with_reducible apply State.zeroPage_kept
    | with_reducible apply State.setPage_kept
    | with_reducible apply State.value_kept
    | with_reducible apply State.hwSet_kept
    | with_reducible apply State.put_kept
    | with_reducible apply DKept.exc
    | with_reducible refine kept_ite ?_ ?_
    | with_reducible refine dkept_ite ?_ ?_

theorem execLmclaim_kept {q : List Instr} {a : FrameA} {s : State} (hs : Kept q s) :
    OutKept q (execLmclaim a s) := by
  delta execLmclaim
  repeat' first
    | with_reducible assumption
    | (extract_lets +onlyGivenNames -underBinder x; clear_value x)
    | with_reducible apply State.claim_kept
    | with_reducible apply State.value_kept
    | with_reducible apply State.issue_kept
    | with_reducible apply OutKept.next
    | with_reducible refine dkept_ite ?_ ?_
    | with_reducible intro _

theorem execLmclaima_kept {q : List Instr} {a : FrameA} {s : State} (hs : Kept q s) :
    OutKept q (execLmclaima a s) := by
  delta execLmclaima
  repeat' first
    | with_reducible assumption
    | with_reducible apply State.claim_kept
    | with_reducible apply State.value_kept
    | with_reducible apply State.issue_kept
    | with_reducible apply OutKept.next
    | split
    | with_reducible intro _

theorem execLmrel_kept {q : List Instr} {a : FrameA} {s : State} (hs : Kept q s) :
    OutKept q (execLmrel a s) := by
  delta execLmrel
  repeat' first
    | with_reducible assumption
    | (extract_lets +onlyGivenNames -underBinder x; clear_value x)
    | with_reducible apply State.setPage_kept
    | with_reducible apply State.value_kept
    | with_reducible apply State.issue_kept
    | with_reducible apply OutKept.next
    | with_reducible refine dkept_ite ?_ ?_
    | with_reducible intro _

theorem execMbput_kept {q : List Instr} {a : FrameA} {s : State} (hs : Kept q s) :
    OutKept q (execMbput a s) := by
  delta execMbput
  repeat' first
    | with_reducible assumption
    | (extract_lets +onlyGivenNames -underBinder x; refine (fun hx : Kept q x.2 => ?_) ?_; clear_value x; rotate_left; subst x; change Kept2 q _)
    | with_reducible apply State.value_kept
    | with_reducible apply State.issue_kept
    | with_reducible apply State.mboxPost_kept
    | with_reducible apply OutKept.next
    | with_reducible intro _

theorem execSend_kept {q : List Instr} {a : FrameSend} {s : State} (hs : Kept q s) :
    OutKept q (execSend a s) := by
  delta execSend
  refine OutKept.next (State.issue_kept hs fun x hx => ?_)
  refine dkept_ite (DKept.exc hx) (dkept_ite (DKept.exc hx) ?_)
  exact DKept.next (State.settle_kept (State.inject_kept hx))

theorem execRecv_kept {q : List Instr} {a : FrameA} {s : State} (hs : Kept q s) :
    OutKept q (execRecv a s) := by
  delta execRecv
  refine OutKept.next (State.issue_kept hs fun x hx => ?_)
  have hy : Kept3 q (x.imqPop x.core.cur) := State.imqPop_kept hx
  generalize x.imqPop x.core.cur = y at hy
  exact DKept.next (State.refresh_kept (State.setCx_kept (Kept3.snd hy)))

/-! ### SysInstr -/

theorem execSysc_kept {q : List Instr} {b : FrameB} {s : State} (hs : Kept q s) :
    OutKept q (execSysc b s) := by
  delta execSysc
  repeat' first
    | with_reducible assumption
    | with_reducible apply State.issue_kept
    | with_reducible apply OutKept.next
    | with_reducible apply DKept.call
    | with_reducible intro _

theorem execNop_kept {q : List Instr} {w : NopWord} {s : State} (hs : Kept q s) :
    OutKept q (execNop w s) := by
  delta execNop
  repeat' first
    | with_reducible assumption
    | with_reducible apply State.unnamed_kept
    | with_reducible apply State.issue_kept
    | with_reducible apply OutKept.next
    | with_reducible apply DKept.next
    | with_reducible refine kept_ite ?_ ?_
    | split

theorem execBrk_kept {q : List Instr} {a : FrameA} {s : State} (hs : Kept q s) :
    OutKept q (execBrk a s) := by
  delta execBrk
  repeat' first
    | with_reducible assumption
    | with_reducible apply State.issue_kept
    | with_reducible apply OutKept.next
    | with_reducible apply DKept.call
    | with_reducible intro _

theorem execIsync_kept {q : List Instr} {a : FrameA} {s : State} (hs : Kept q s) :
    OutKept q (execIsync a s) := by
  delta execIsync
  repeat' first
    | with_reducible assumption
    | with_reducible apply State.issue_kept
    | with_reducible apply OutKept.next
    | with_reducible apply DKept.next

theorem execEret_kept {q : List Instr} {a : FrameA} {s : State} (hs : Kept q s) :
    OutKept q (execEret a s) := by
  delta execEret
  repeat' first
    | with_reducible assumption
    | with_reducible apply State.issue_kept
    | with_reducible apply State.eret_kept
    | with_reducible apply OutKept.next

theorem execCswitch_kept {q : List Instr} {a : FrameA} {s : State} (hs : Kept q s) :
    OutKept q (execCswitch a s) := by
  delta execCswitch
  repeat' first
    | with_reducible assumption
    | (extract_lets +onlyGivenNames -underBinder x; refine (fun hx : Kept q x => ?_) ?_; clear_value x; rotate_left; subst x)
    | (extract_lets +onlyGivenNames -underBinder x; clear_value x)
    | with_reducible apply State.issue_kept
    | with_reducible apply State.setCx_kept
    | with_reducible apply OutKept.next
    | with_reducible apply DKept.next
    | with_reducible apply DKept.gone
    | with_reducible apply DKept.exc
    | with_reducible refine dkept_ite ?_ ?_
    | with_reducible intro _
    | with_reducible (refine Kept.other ?_; assumption)

theorem execWfe_kept {q : List Instr} {a : FrameA} {s : State} (hs : Kept q s) :
    OutKept q (execWfe a s) := by
  delta execWfe
  repeat' first
    | with_reducible assumption
    | (extract_lets +onlyGivenNames -underBinder x; refine (fun hx : Kept q x => ?_) ?_; clear_value x; rotate_left; subst x)
    | (extract_lets +onlyGivenNames -underBinder x; clear_value x)
    | with_reducible apply State.issue_kept
    | with_reducible apply State.refresh_kept
    | with_reducible apply State.setCx_kept
    | with_reducible apply OutKept.next
    | with_reducible apply DKept.next
    | with_reducible apply DKept.wait
    | with_reducible refine dkept_ite ?_ ?_
    | with_reducible intro _

theorem State.leaveN1_kept {q : List Instr} {s : State} (hs : Kept q s) :
    Kept q (State.leaveN1 s) := by
  delta State.leaveN1
  lift_lets -underBinder
  repeat' first
    | (extract_lets +onlyGivenNames -underBinder x; clear_value x)
    | with_reducible (refine Kept.other ?_; assumption)

theorem State.wfeDone_kept {q : List Instr} {s : State} (hs : Kept q s) :
    Kept q (State.wfeDone s) := by
  delta State.wfeDone
  lift_lets -underBinder
  repeat' first
    | with_reducible assumption
    | (extract_lets +onlyGivenNames -underBinder x; clear_value x)
    | with_reducible apply State.leaveN1_kept
    | with_reducible apply State.retire_kept
    | with_reducible apply State.refresh_kept
    | with_reducible apply State.setCx_kept

theorem execWfeWake_kept {q : List Instr} {s : State} (hs : Kept q s) :
    OutKept q (execWfeWake s) := by
  delta execWfeWake
  repeat' first
    | with_reducible assumption
    | with_reducible apply State.wfeDone_kept
    | with_reducible apply State.put_kept
    | with_reducible apply OutKept.next
    | with_reducible refine kept_ite ?_ ?_

theorem State.sysAccess_kept {q : List Instr} {s : State} {n : Nat} {wr : Bool} {k : State → Done} (hs : Kept q s) (hk : ∀ x0, Kept q x0 → DKept q (k x0)) :
    DKept q (State.sysAccess s n wr k) := by
  delta State.sysAccess
  repeat' first
    | with_reducible assumption
    | with_reducible apply State.owned_kept
    | with_reducible apply hk
    | with_reducible apply DKept.exc
    | with_reducible refine dkept_ite ?_ ?_
    | split

theorem execMovs_kept {q : List Instr} {b : FrameB} {s : State} (hs : Kept q s) :
    OutKept q (execMovs b s) := by
  delta execMovs
  repeat' first
    | with_reducible assumption
    | with_reducible apply State.sysAccess_kept
    | with_reducible apply State.value_kept
    | with_reducible apply State.issue_kept
    | with_reducible apply OutKept.next
    | with_reducible intro _

theorem State.movc_kept {q : List Instr} {s : State} {b : FrameB} (hs : Kept q s) :
    Kept q (State.movc s b) := by
  delta State.movc
  repeat' first
    | with_reducible assumption
    | (extract_lets +onlyGivenNames -underBinder x; refine (fun hx : Kept q x => ?_) ?_; clear_value x; rotate_left; subst x)
    | with_reducible apply State.sysAccess_kept
    | with_reducible apply State.settle_kept
    | with_reducible apply State.issue_kept
    | with_reducible apply State.sysWrite_kept
    | with_reducible apply DKept.next
    | split
    | with_reducible intro _

theorem execMovc_kept {q : List Instr} {b : FrameB} {s : State} (hs : Kept q s) :
    OutKept q (execMovc b s) := by
  delta execMovc
  repeat' first
    | with_reducible assumption
    | with_reducible apply State.movc_kept
    | with_reducible apply OutKept.next

theorem execRdepthWrite_kept {q : List Instr} {b : FrameB} {s : State} (hs : Kept q s) :
    OutKept q (execRdepthWrite b s) := by
  delta execRdepthWrite
  repeat' first
    | with_reducible assumption
    | with_reducible apply State.movc_kept
    | with_reducible apply OutKept.next

theorem execCtxctlWrite_kept {q : List Instr} {b : FrameB} {s : State} (hs : Kept q s) :
    OutKept q (execCtxctlWrite b s) := by
  delta execCtxctlWrite
  repeat' first
    | with_reducible assumption
    | with_reducible apply State.movc_kept
    | with_reducible apply OutKept.next

theorem execCtxstart_kept {q : List Instr} {b : FrameB} {s : State} (hs : Kept q s) :
    OutKept q (execCtxstart b s) := by
  delta execCtxstart
  repeat' first
    | with_reducible assumption
    | with_reducible apply State.movc_kept
    | with_reducible apply OutKept.next

theorem execTcfgWrite_kept {q : List Instr} {b : FrameB} {s : State} (hs : Kept q s) :
    OutKept q (execTcfgWrite b s) := by
  delta execTcfgWrite
  repeat' first
    | with_reducible assumption
    | with_reducible apply State.movc_kept
    | with_reducible apply OutKept.next

theorem execSave_kept {q : List Instr} {b : FrameB} {s : State} (hs : Kept q s) :
    OutKept q (execSave b s) := by
  delta execSave
  repeat' first
    | with_reducible assumption
    | with_reducible apply State.movc_kept
    | with_reducible apply OutKept.next

theorem execDiscard_kept {q : List Instr} {b : FrameB} {s : State} (hs : Kept q s) :
    OutKept q (execDiscard b s) := by
  delta execDiscard
  repeat' first
    | with_reducible assumption
    | with_reducible apply State.movc_kept
    | with_reducible apply OutKept.next

theorem execHandover_kept {q : List Instr} {b : FrameB} {s : State} (hs : Kept q s) :
    OutKept q (execHandover b s) := by
  delta execHandover
  repeat' first
    | with_reducible assumption
    | with_reducible apply State.movc_kept
    | with_reducible apply OutKept.next

theorem execSpill_kept {q : List Instr} {b : FrameB} {s : State} (hs : Kept q s) :
    OutKept q (execSpill b s) := by
  delta execSpill
  repeat' first
    | with_reducible assumption
    | with_reducible apply State.movc_kept
    | with_reducible apply OutKept.next

theorem execFill_kept {q : List Instr} {b : FrameB} {s : State} (hs : Kept q s) :
    OutKept q (execFill b s) := by
  delta execFill
  repeat' first
    | with_reducible assumption
    | with_reducible apply State.movc_kept
    | with_reducible apply OutKept.next

theorem execErase_kept {q : List Instr} {b : FrameB} {s : State} (hs : Kept q s) :
    OutKept q (execErase b s) := by
  delta execErase
  repeat' first
    | with_reducible assumption
    | with_reducible apply State.movc_kept
    | with_reducible apply OutKept.next

theorem execChestOperationDone_kept {q : List Instr} {s : State} (hs : Kept q s) :
    OutKept q (execChestOperationDone s) := by
  delta execChestOperationDone
  repeat' first
    | with_reducible assumption
    | with_reducible apply State.chestDone_kept
    | with_reducible apply OutKept.next

theorem State.wfePast_kept {q : List Instr} {s : State} {id : CtxId} (hs : Kept q s) :
    Kept q (State.wfePast s id) := by
  delta State.wfePast
  lift_lets -underBinder
  repeat' first
    | with_reducible assumption
    | (extract_lets +onlyGivenNames -underBinder x; clear_value x)
    | with_reducible apply State.retireOf_kept
    | with_reducible apply State.setCtx_kept
    | with_reducible refine kept_ite ?_ ?_

theorem State.enterAsync_kept {q : List Instr} {s : State} {id : CtxId} {c : Nat} (hs : Kept q s) :
    Kept q (State.enterAsync s id c) := by
  delta State.enterAsync
  lift_lets -underBinder
  repeat' first
    | with_reducible assumption
    | (extract_lets +onlyGivenNames -underBinder x; refine (fun hx : Kept q x => ?_) ?_; clear_value x; rotate_left; subst x)
    | (extract_lets +onlyGivenNames -underBinder x; clear_value x)
    | with_reducible apply State.leaveN1_kept
    | with_reducible apply State.taken_kept
    | with_reducible apply State.drainAbandon_kept
    | with_reducible apply State.enter_kept

theorem execAsyncEntry_kept {q : List Instr} {s : State} (hs : Kept q s) :
    OutKept q (execAsyncEntry s) := by
  delta execAsyncEntry
  lift_lets -underBinder
  repeat' first
    | with_reducible assumption
    | (extract_lets +onlyGivenNames -underBinder x; refine (fun hx : Kept q x => ?_) ?_; clear_value x; rotate_left; subst x)
    | with_reducible apply State.enterAsync_kept
    | with_reducible apply State.taken_kept
    | with_reducible apply State.fetchNoted_kept
    | with_reducible apply State.refresh_kept
    | with_reducible apply State.drainForce_kept
    | with_reducible apply State.raise_kept
    | with_reducible apply OutKept.next
    | with_reducible refine kept_ite ?_ ?_
    | split

theorem execPreempt_kept {q : List Instr} {s : State} (hs : Kept q s) :
    OutKept q (execPreempt s) := by
  delta execPreempt
  lift_lets -underBinder
  repeat' first
    | with_reducible assumption
    | (extract_lets +onlyGivenNames -underBinder x; refine (fun hx : Kept q x => ?_) ?_; clear_value x; rotate_left; subst x)
    | (extract_lets +onlyGivenNames -underBinder x; clear_value x)
    | with_reducible apply State.enterAsync_kept
    | with_reducible apply State.wfePast_kept
    | with_reducible apply State.refresh_kept
    | with_reducible apply State.setCtx_kept
    | with_reducible apply OutKept.next
    | with_reducible refine kept_ite ?_ ?_
    | split
    | with_reducible (refine Kept.other ?_; assumption)

/-! ### TileMem -/

theorem State.unitRead_kept {q : List Instr} {s : State} {req : Nat} {a0 : List (Word × Nat)} (hs : Kept q s) :
    Kept2 q (State.unitRead s req a0) := by
  induction a0 generalizing s with
  | nil => exact hs
  | cons a r ih =>
  rw [State.unitRead]
  repeat' first
    | with_reducible assumption
    | with_reducible apply State.lmRead_kept
    | with_reducible apply ih
    | with_reducible apply Kept2.mk
    | split
    | with_reducible refine Kept2.snd (Kept2.mk ?_)
    | with_reducible refine Kept2.eq ?_ (by assumption)

theorem State.unitWrite_kept {q : List Instr} {s : State} {req : Nat} {a0 : List (Word × Nat)} {a1 : List Byte} (hs : Kept q s) :
    Kept2 q (State.unitWrite s req a0 a1) := by
  induction a0 generalizing a1 s with
  | nil => exact hs
  | cons a r ih =>
  rw [State.unitWrite]
  repeat' first
    | with_reducible assumption
    | with_reducible apply State.lmWrite_kept
    | with_reducible apply Kept2.mk
    | with_reducible (refine Kept2.snd ?_; apply ih)
    | split
    | with_reducible refine Kept2.snd (Kept2.mk ?_)
    | with_reducible refine Kept2.eq ?_ (by assumption)

theorem unitFail_kept {q : List Instr} {s : State} {c : Nat × Word} (hs : Kept q s) :
    DKept q (unitFail s c) := by
  delta unitFail
  repeat' first
    | with_reducible assumption
    | with_reducible apply DKept.exc

theorem tileFail_kept {q : List Instr} {s : State} {ts : List (List Piece)} {c : Nat × Word} (hs : Kept q s) :
    DKept q (tileFail s ts c) := by
  delta tileFail
  repeat' first
    | with_reducible assumption
    | with_reducible apply DKept.exc

theorem State.lmMasked_kept {q : List Instr} {s : State} {req : Nat} {ctx : Option CtxId} {l : List (Nat × Byte)} (hs : Kept q s) :
    Kept2 q (State.lmMasked s req ctx l) := by
  delta State.lmMasked
  lift_lets -underBinder
  repeat' first
    | with_reducible assumption
    | (extract_lets +onlyGivenNames -underBinder x; refine (fun hx : Kept q x => ?_) ?_; clear_value x; rotate_left; subst x)
    | (extract_lets +onlyGivenNames -underBinder x; clear_value x)
    | with_reducible apply State.eccFailed_kept
    | with_reducible apply State.eccCorrect_kept
    | with_reducible apply State.lmGrant_kept
    | with_reducible apply Kept2.mk
    | split
    | with_reducible refine Kept2.snd (Kept2.mk ?_)
    | (refine Kept.store ?_ (Mem.wf_puts _ (Kept.mem hx)) (twf_foldl_tput _ (Kept.ecc hx)); with_reducible assumption)

theorem State.gatherLanes_kept {q : List Instr} {s : State} {n : Nat} {a0 : List (List Lane)} (hs : Kept q s) :
    Kept2 q (State.gatherLanes s n a0) := by
  induction a0 generalizing s with
  | nil => exact hs
  | cons a r ih =>
  rw [State.gatherLanes]
  repeat' first
    | with_reducible assumption
    | (extract_lets +onlyGivenNames -underBinder x; refine (fun hx : Kept q x => ?_) ?_; clear_value x; rotate_left; subst x)
    | (extract_lets +onlyGivenNames -underBinder x; clear_value x)
    | with_reducible apply State.eccFailed_kept
    | with_reducible apply State.eccCorrect_kept
    | with_reducible apply State.lmGrant_kept
    | with_reducible apply ih
    | with_reducible apply Kept2.mk
    | split
    | with_reducible refine Kept2.snd (Kept2.mk ?_)
    | with_reducible refine Kept2.eq ?_ (by assumption)

theorem State.scatterLanes_kept {q : List Instr} {s : State} {n : Nat} {val : Nat → Nat} {a0 : List (List Lane)} (hs : Kept q s) :
    Kept2 q (State.scatterLanes s n val a0) := by
  induction a0 generalizing s with
  | nil => exact hs
  | cons a r ih =>
  rw [State.scatterLanes]
  repeat' first
    | with_reducible assumption
    | (extract_lets +onlyGivenNames -underBinder x; clear_value x)
    | with_reducible apply State.lmMasked_kept
    | with_reducible apply Kept2.mk
    | with_reducible (refine Kept2.snd ?_; apply ih)
    | split
    | with_reducible refine Kept2.snd (Kept2.mk ?_)
    | with_reducible refine Kept2.eq ?_ (by assumption)

theorem State.fits_kept {q : List Instr} {s : State} {f : Option Fit} {k : State → Done} (hs : Kept q s) (hk : ∀ x0, Kept q x0 → DKept q (k x0)) :
    DKept q (State.fits s f k) := by
  delta State.fits
  repeat' first
    | with_reducible assumption
    | with_reducible apply hk
    | with_reducible apply DKept.exc
    | split

/-! ### VecOps -/

theorem State.setVec_kept {q : List Instr} {s : State} {r : BitVec 5} {v : Nat} (hs : Kept q s) :
    Kept q (State.setVec s r v) := by
  delta State.setVec
  lift_lets -underBinder
  repeat' first
    | (extract_lets +onlyGivenNames -underBinder x; clear_value x)
    | with_reducible apply State.dirty_kept
    | with_reducible (refine Kept.other ?_; assumption)

theorem State.fmtFlags_kept {q : List Instr} {s : State} {ovf inv : Bool} (hs : Kept q s) :
    Kept q (State.fmtFlags s ovf inv) := by
  delta State.fmtFlags
  lift_lets -underBinder
  repeat' first
    | with_reducible assumption
    | (extract_lets +onlyGivenNames -underBinder x; clear_value x)
    | with_reducible apply State.setMx_kept
    | with_reducible refine kept_ite ?_ ?_

theorem State.vecIssued_kept {q : List Instr} {s : State} (hs : Kept q s) :
    Kept q (State.vecIssued s) := by
  delta State.vecIssued
  repeat' first
    | with_reducible assumption
    | with_reducible apply State.perf_kept

theorem State.vecDone_kept {q : List Instr} {s : State} (hs : Kept q s) :
    DKept q (State.vecDone s) := by
  delta State.vecDone
  repeat' first
    | with_reducible assumption
    | with_reducible apply State.vecIssued_kept
    | with_reducible apply DKept.next

theorem State.vec2_kept {q : List Instr} {s : State} {op : Nat} {types : Nat → Bool} {a : FrameV} {f : Nat → Nat → Nat → Nat} (hs : Kept q s) :
    Kept q (State.vec2 s op types a f) := by
  delta State.vec2
  lift_lets -underBinder
  repeat' first
    | with_reducible assumption
    | (extract_lets +onlyGivenNames -underBinder x; clear_value x)
    | with_reducible apply State.vecDone_kept
    | with_reducible apply State.setVec_kept
    | with_reducible apply State.owned_kept
    | with_reducible apply State.issue_kept
    | with_reducible intro _

theorem State.vec3_kept {q : List Instr} {s : State} {op : Nat} {a : FrameV} {f : Nat → Nat → Nat → Nat → Nat} (hs : Kept q s) :
    Kept q (State.vec3 s op a f) := by
  delta State.vec3
  lift_lets -underBinder
  repeat' first
    | with_reducible assumption
    | (extract_lets +onlyGivenNames -underBinder x; clear_value x)
    | with_reducible apply State.vecDone_kept
    | with_reducible apply State.setVec_kept
    | with_reducible apply State.owned_kept
    | with_reducible apply State.issue_kept
    | with_reducible intro _

theorem State.vec1_kept {q : List Instr} {s : State} {op : Nat} {types : Nat → Bool} {a : FrameV} {f : Nat → List Nat → List Nat} (hs : Kept q s) :
    Kept q (State.vec1 s op types a f) := by
  delta State.vec1
  lift_lets -underBinder
  repeat' first
    | with_reducible assumption
    | (extract_lets +onlyGivenNames -underBinder x; clear_value x)
    | with_reducible apply State.vecDone_kept
    | with_reducible apply State.setVec_kept
    | with_reducible apply State.owned_kept
    | with_reducible apply State.issue_kept
    | with_reducible intro _

/-! ### Vector -/

theorem execVadd_kept {q : List Instr} {a : FrameV} {s : State} (hs : Kept q s) :
    OutKept q (execVadd a s) := by
  delta execVadd
  repeat' first
    | with_reducible assumption
    | with_reducible apply State.vec2_kept
    | with_reducible apply OutKept.next

theorem execVsub_kept {q : List Instr} {a : FrameV} {s : State} (hs : Kept q s) :
    OutKept q (execVsub a s) := by
  delta execVsub
  repeat' first
    | with_reducible assumption
    | with_reducible apply State.vec2_kept
    | with_reducible apply OutKept.next

theorem execVmul_kept {q : List Instr} {a : FrameV} {s : State} (hs : Kept q s) :
    OutKept q (execVmul a s) := by
  delta execVmul
  repeat' first
    | with_reducible assumption
    | with_reducible apply State.vec2_kept
    | with_reducible apply OutKept.next

theorem execVmin_kept {q : List Instr} {a : FrameV} {s : State} (hs : Kept q s) :
    OutKept q (execVmin a s) := by
  delta execVmin
  repeat' first
    | with_reducible assumption
    | with_reducible apply State.vec2_kept
    | with_reducible apply OutKept.next

theorem execVmax_kept {q : List Instr} {a : FrameV} {s : State} (hs : Kept q s) :
    OutKept q (execVmax a s) := by
  delta execVmax
  repeat' first
    | with_reducible assumption
    | with_reducible apply State.vec2_kept
    | with_reducible apply OutKept.next

theorem execVand_kept {q : List Instr} {a : FrameV} {s : State} (hs : Kept q s) :
    OutKept q (execVand a s) := by
  delta execVand
  repeat' first
    | with_reducible assumption
    | with_reducible apply State.vec2_kept
    | with_reducible apply OutKept.next

theorem execVor_kept {q : List Instr} {a : FrameV} {s : State} (hs : Kept q s) :
    OutKept q (execVor a s) := by
  delta execVor
  repeat' first
    | with_reducible assumption
    | with_reducible apply State.vec2_kept
    | with_reducible apply OutKept.next

theorem execVxor_kept {q : List Instr} {a : FrameV} {s : State} (hs : Kept q s) :
    OutKept q (execVxor a s) := by
  delta execVxor
  repeat' first
    | with_reducible assumption
    | with_reducible apply State.vec2_kept
    | with_reducible apply OutKept.next

theorem execVshl_kept {q : List Instr} {a : FrameV} {s : State} (hs : Kept q s) :
    OutKept q (execVshl a s) := by
  delta execVshl
  repeat' first
    | with_reducible assumption
    | with_reducible apply State.vec2_kept
    | with_reducible apply OutKept.next

theorem execVshr_kept {q : List Instr} {a : FrameV} {s : State} (hs : Kept q s) :
    OutKept q (execVshr a s) := by
  delta execVshr
  repeat' first
    | with_reducible assumption
    | with_reducible apply State.vec2_kept
    | with_reducible apply OutKept.next

theorem execVsar_kept {q : List Instr} {a : FrameV} {s : State} (hs : Kept q s) :
    OutKept q (execVsar a s) := by
  delta execVsar
  repeat' first
    | with_reducible assumption
    | with_reducible apply State.vec2_kept
    | with_reducible apply OutKept.next

theorem execVcmpeq_kept {q : List Instr} {a : FrameV} {s : State} (hs : Kept q s) :
    OutKept q (execVcmpeq a s) := by
  delta execVcmpeq
  repeat' first
    | with_reducible assumption
    | with_reducible apply State.vec2_kept
    | with_reducible apply OutKept.next

theorem execVcmplt_kept {q : List Instr} {a : FrameV} {s : State} (hs : Kept q s) :
    OutKept q (execVcmplt a s) := by
  delta execVcmplt
  repeat' first
    | with_reducible assumption
    | with_reducible apply State.vec2_kept
    | with_reducible apply OutKept.next

theorem execVcmple_kept {q : List Instr} {a : FrameV} {s : State} (hs : Kept q s) :
    OutKept q (execVcmple a s) := by
  delta execVcmple
  repeat' first
    | with_reducible assumption
    | with_reducible apply State.vec2_kept
    | with_reducible apply OutKept.next

theorem execVadds_kept {q : List Instr} {a : FrameV} {s : State} (hs : Kept q s) :
    OutKept q (execVadds a s) := by
  delta execVadds
  repeat' first
    | with_reducible assumption
    | with_reducible apply State.vec2_kept
    | with_reducible apply OutKept.next

theorem execVfma_kept {q : List Instr} {a : FrameV} {s : State} (hs : Kept q s) :
    OutKept q (execVfma a s) := by
  delta execVfma
  repeat' first
    | with_reducible assumption
    | with_reducible apply State.vec3_kept
    | with_reducible apply OutKept.next

theorem execVfnma_kept {q : List Instr} {a : FrameV} {s : State} (hs : Kept q s) :
    OutKept q (execVfnma a s) := by
  delta execVfnma
  repeat' first
    | with_reducible assumption
    | with_reducible apply State.vec3_kept
    | with_reducible apply OutKept.next

theorem execVsel_kept {q : List Instr} {a : FrameV} {s : State} (hs : Kept q s) :
    OutKept q (execVsel a s) := by
  delta execVsel
  repeat' first
    | with_reducible assumption
    | (extract_lets +onlyGivenNames -underBinder x; clear_value x)
    | with_reducible apply State.vecDone_kept
    | with_reducible apply State.setVec_kept
    | with_reducible apply State.owned_kept
    | with_reducible apply State.issue_kept
    | with_reducible apply OutKept.next
    | with_reducible intro _

theorem execVmov_kept {q : List Instr} {a : FrameV} {s : State} (hs : Kept q s) :
    OutKept q (execVmov a s) := by
  delta execVmov
  repeat' first
    | with_reducible assumption
    | with_reducible apply State.vec1_kept
    | with_reducible apply OutKept.next

theorem execVneg_kept {q : List Instr} {a : FrameV} {s : State} (hs : Kept q s) :
    OutKept q (execVneg a s) := by
  delta execVneg
  repeat' first
    | with_reducible assumption
    | with_reducible apply State.vec1_kept
    | with_reducible apply OutKept.next

theorem execVabs_kept {q : List Instr} {a : FrameV} {s : State} (hs : Kept q s) :
    OutKept q (execVabs a s) := by
  delta execVabs
  repeat' first
    | with_reducible assumption
    | with_reducible apply State.vec1_kept
    | with_reducible apply OutKept.next

theorem execVexp2_kept {q : List Instr} {a : FrameV} {s : State} (hs : Kept q s) :
    OutKept q (execVexp2 a s) := by
  delta execVexp2
  repeat' first
    | with_reducible assumption
    | with_reducible apply State.vec1_kept
    | with_reducible apply OutKept.next

theorem execVrcp_kept {q : List Instr} {a : FrameV} {s : State} (hs : Kept q s) :
    OutKept q (execVrcp a s) := by
  delta execVrcp
  repeat' first
    | with_reducible assumption
    | with_reducible apply State.vec1_kept
    | with_reducible apply OutKept.next

theorem execVredsum_kept {q : List Instr} {a : FrameV} {s : State} (hs : Kept q s) :
    OutKept q (execVredsum a s) := by
  delta execVredsum
  repeat' first
    | with_reducible assumption
    | with_reducible apply State.vec1_kept
    | with_reducible apply OutKept.next

theorem execVredmax_kept {q : List Instr} {a : FrameV} {s : State} (hs : Kept q s) :
    OutKept q (execVredmax a s) := by
  delta execVredmax
  repeat' first
    | with_reducible assumption
    | with_reducible apply State.vec1_kept
    | with_reducible apply OutKept.next

theorem execVredmin_kept {q : List Instr} {a : FrameV} {s : State} (hs : Kept q s) :
    OutKept q (execVredmin a s) := by
  delta execVredmin
  repeat' first
    | with_reducible assumption
    | with_reducible apply State.vec1_kept
    | with_reducible apply OutKept.next

theorem execVbcast_kept {q : List Instr} {a : FrameV} {s : State} (hs : Kept q s) :
    OutKept q (execVbcast a s) := by
  delta execVbcast
  lift_lets -underBinder
  repeat' first
    | with_reducible assumption
    | (extract_lets +onlyGivenNames -underBinder x; clear_value x)
    | with_reducible apply State.vecDone_kept
    | with_reducible apply State.setVec_kept
    | with_reducible apply State.owned_kept
    | with_reducible apply State.issue_kept
    | with_reducible apply OutKept.next
    | with_reducible intro _

theorem execVget_kept {q : List Instr} {a : FrameV} {s : State} (hs : Kept q s) :
    OutKept q (execVget a s) := by
  delta execVget
  lift_lets -underBinder
  repeat' first
    | with_reducible assumption
    | (extract_lets +onlyGivenNames -underBinder x; clear_value x)
    | with_reducible apply State.vecDone_kept
    | with_reducible apply State.owned_kept
    | with_reducible apply State.issue_kept
    | with_reducible apply State.w_kept
    | with_reducible apply OutKept.next
    | split
    | with_reducible intro _

theorem execVld_kept {q : List Instr} {a : FrameW} {s : State} (hs : Kept q s) :
    OutKept q (execVld a s) := by
  delta execVld
  repeat' first
    | with_reducible assumption
    | (extract_lets +onlyGivenNames -underBinder x; clear_value x)
    | with_reducible apply State.vecIssued_kept
    | with_reducible apply State.setVec_kept
    | with_reducible apply unitFail_kept
    | with_reducible apply State.unitRead_kept
    | with_reducible apply State.issue_kept
    | with_reducible apply State.owned_kept
    | with_reducible apply OutKept.next
    | with_reducible apply DKept.next
    | with_reducible apply DKept.exc
    | with_reducible refine dkept_ite ?_ ?_
    | split
    | with_reducible intro _
    | with_reducible refine Kept2.eq ?_ (by assumption)

theorem execVst_kept {q : List Instr} {a : FrameW} {s : State} (hs : Kept q s) :
    OutKept q (execVst a s) := by
  delta execVst
  repeat' first
    | with_reducible assumption
    | (extract_lets +onlyGivenNames -underBinder x; clear_value x)
    | with_reducible apply State.vecIssued_kept
    | with_reducible apply unitFail_kept
    | with_reducible apply State.unitWrite_kept
    | with_reducible apply State.issue_kept
    | with_reducible apply State.owned_kept
    | with_reducible apply OutKept.next
    | with_reducible apply DKept.next
    | with_reducible apply DKept.exc
    | with_reducible refine dkept_ite ?_ ?_
    | split
    | with_reducible intro _
    | with_reducible refine Kept2.eq ?_ (by assumption)

theorem execVgather_kept {q : List Instr} {a : FrameW} {s : State} (hs : Kept q s) :
    OutKept q (execVgather a s) := by
  delta execVgather
  repeat' first
    | with_reducible assumption
    | with_reducible apply State.vecIssued_kept
    | with_reducible apply State.setVec_kept
    | with_reducible apply State.gatherLanes_kept
    | with_reducible apply unitFail_kept
    | with_reducible apply State.issue_kept
    | with_reducible apply State.owned_kept
    | with_reducible apply OutKept.next
    | with_reducible apply DKept.next
    | with_reducible apply DKept.exc
    | split
    | with_reducible intro _
    | with_reducible refine Kept2.eq ?_ (by assumption)

theorem execVscatter_kept {q : List Instr} {a : FrameW} {s : State} (hs : Kept q s) :
    OutKept q (execVscatter a s) := by
  delta execVscatter
  repeat' first
    | with_reducible assumption
    | with_reducible apply State.vecIssued_kept
    | with_reducible apply State.scatterLanes_kept
    | with_reducible apply unitFail_kept
    | with_reducible apply State.issue_kept
    | with_reducible apply State.owned_kept
    | with_reducible apply OutKept.next
    | with_reducible apply DKept.next
    | with_reducible apply DKept.exc
    | split
    | with_reducible intro _
    | with_reducible refine Kept2.eq ?_ (by assumption)

theorem execVcvt_kept {q : List Instr} {a : FrameW} {s : State} (hs : Kept q s) :
    OutKept q (execVcvt a s) := by
  delta execVcvt
  lift_lets -underBinder
  repeat' first
    | with_reducible assumption
    | (extract_lets +onlyGivenNames -underBinder x; clear_value x)
    | with_reducible apply State.vecDone_kept
    | with_reducible apply State.fmtFlags_kept
    | with_reducible apply State.setVec_kept
    | with_reducible apply State.owned_kept
    | with_reducible apply State.issue_kept
    | with_reducible apply OutKept.next
    | with_reducible intro _

theorem execVwid6_kept {q : List Instr} {a : FrameW} {s : State} (hs : Kept q s) :
    OutKept q (execVwid6 a s) := by
  delta execVwid6
  lift_lets -underBinder
  repeat' first
    | with_reducible assumption
    | (extract_lets +onlyGivenNames -underBinder x; clear_value x)
    | with_reducible apply State.vecDone_kept
    | with_reducible apply State.setVec_kept
    | with_reducible apply State.owned_kept
    | with_reducible apply State.issue_kept
    | with_reducible apply OutKept.next
    | with_reducible intro _

theorem execVqmx_kept {q : List Instr} {a : FrameW} {s : State} (hs : Kept q s) :
    OutKept q (execVqmx a s) := by
  delta execVqmx
  lift_lets -underBinder
  repeat' first
    | with_reducible assumption
    | (extract_lets +onlyGivenNames -underBinder x; refine (fun hx : Kept q x => ?_) ?_; clear_value x; rotate_left; subst x)
    | (extract_lets +onlyGivenNames -underBinder x; clear_value x)
    | with_reducible apply State.vecDone_kept
    | with_reducible apply State.fmtFlags_kept
    | with_reducible apply State.setVec_kept
    | with_reducible apply State.owned_kept
    | with_reducible apply State.issue_kept
    | with_reducible apply OutKept.next
    | split
    | with_reducible intro _

theorem execVtrd_kept {q : List Instr} {a : FrameW} {s : State} (hs : Kept q s) :
    OutKept q (execVtrd a s) := by
  delta execVtrd
  repeat' first
    | with_reducible assumption
    | (extract_lets +onlyGivenNames -underBinder x; clear_value x)
    | with_reducible apply State.vecDone_kept
    | with_reducible apply State.setVec_kept
    | with_reducible apply State.fits_kept
    | with_reducible apply State.owned_kept
    | with_reducible apply State.issue_kept
    | with_reducible apply OutKept.next
    | with_reducible intro _

theorem execVtwr_kept {q : List Instr} {a : FrameW} {s : State} (hs : Kept q s) :
    OutKept q (execVtwr a s) := by
  delta execVtwr
  lift_lets -underBinder
  repeat' first
    | with_reducible assumption
    | (extract_lets +onlyGivenNames -underBinder x; clear_value x)
    | with_reducible apply State.vecDone_kept
    | with_reducible apply State.fits_kept
    | with_reducible apply State.owned_kept
    | with_reducible apply State.issue_kept
    | with_reducible apply State.setMx_kept
    | with_reducible apply OutKept.next
    | with_reducible intro _

/-! ### Matrix -/

theorem State.tileAligned_kept {q : List Instr} {s : State} {m : FrameM} {k : State → Done} (hs : Kept q s) (hk : ∀ x0, Kept q x0 → DKept q (k x0)) :
    DKept q (State.tileAligned s m k) := by
  delta State.tileAligned
  lift_lets -underBinder
  repeat' first
    | with_reducible assumption
    | (extract_lets +onlyGivenNames -underBinder x; clear_value x)
    | with_reducible apply hk
    | with_reducible apply DKept.exc
    | with_reducible refine dkept_ite ?_ ?_

theorem execTld_kept {q : List Instr} {m : FrameM} {s : State} (hs : Kept q s) :
    OutKept q (execTld m s) := by
  delta execTld
  repeat' first
    | with_reducible assumption
    | (extract_lets +onlyGivenNames -underBinder x; clear_value x)
    | with_reducible apply State.tileAligned_kept
    | with_reducible apply State.fits_kept
    | with_reducible apply tileFail_kept
    | with_reducible apply State.unitRead_kept
    | with_reducible apply State.issue_kept
    | with_reducible apply State.owned_kept
    | with_reducible apply State.setMx_kept
    | with_reducible apply OutKept.next
    | with_reducible apply DKept.next
    | split
    | with_reducible intro _
    | with_reducible refine Kept2.eq ?_ (by assumption)

theorem execTst_kept {q : List Instr} {m : FrameM} {s : State} (hs : Kept q s) :
    OutKept q (execTst m s) := by
  delta execTst
  repeat' first
    | with_reducible assumption
    | (extract_lets +onlyGivenNames -underBinder x; clear_value x)
    | with_reducible apply State.tileAligned_kept
    | with_reducible apply State.fits_kept
    | with_reducible apply tileFail_kept
    | with_reducible apply State.unitWrite_kept
    | with_reducible apply State.issue_kept
    | with_reducible apply State.owned_kept
    | with_reducible apply OutKept.next
    | with_reducible apply DKept.next
    | split
    | with_reducible intro _
    | with_reducible refine Kept2.eq ?_ (by assumption)

theorem execTzero_kept {q : List Instr} {m : FrameM} {s : State} (hs : Kept q s) :
    OutKept q (execTzero m s) := by
  delta execTzero
  repeat' first
    | with_reducible assumption
    | with_reducible apply State.fits_kept
    | with_reducible apply State.owned_kept
    | with_reducible apply State.issue_kept
    | with_reducible apply State.setMx_kept
    | with_reducible apply OutKept.next
    | with_reducible apply DKept.next
    | with_reducible intro _

theorem execMz_kept {q : List Instr} {m : FrameM} {s : State} (hs : Kept q s) :
    OutKept q (execMz m s) := by
  delta execMz
  repeat' first
    | with_reducible assumption
    | (extract_lets +onlyGivenNames -underBinder x; clear_value x)
    | with_reducible apply State.owned_kept
    | with_reducible apply State.issue_kept
    | with_reducible apply State.setMx_kept
    | with_reducible apply OutKept.next
    | with_reducible apply DKept.next
    | with_reducible intro _

theorem State.mmaDone_kept {q : List Instr} {s : State} {mmas : Bool} {m : FrameM} (hs : Kept q s) :
    DKept q (State.mmaDone s mmas m) := by
  delta State.mmaDone
  lift_lets -underBinder
  repeat' first
    | with_reducible assumption
    | (extract_lets +onlyGivenNames -underBinder x; refine (fun hx : Kept q x => ?_) ?_; clear_value x; rotate_left; subst x)
    | (extract_lets +onlyGivenNames -underBinder x; clear_value x)
    | with_reducible apply State.setMx_kept
    | with_reducible apply State.perf_kept
    | with_reducible apply DKept.next
    | with_reducible refine kept_ite ?_ ?_

theorem execMma_kept {q : List Instr} {m : FrameM} {s : State} (hs : Kept q s) :
    OutKept q (execMma m s) := by
  delta execMma
  repeat' first
    | with_reducible assumption
    | with_reducible apply State.mmaDone_kept
    | with_reducible apply State.fits_kept
    | with_reducible apply State.owned_kept
    | with_reducible apply State.issue_kept
    | with_reducible apply OutKept.next
    | with_reducible intro _

theorem execMmas_kept {q : List Instr} {m : FrameM} {s : State} (hs : Kept q s) :
    OutKept q (execMmas m s) := by
  delta execMmas
  repeat' first
    | with_reducible assumption
    | with_reducible apply State.mmaDone_kept
    | with_reducible apply State.fits_kept
    | with_reducible apply State.owned_kept
    | with_reducible apply State.issue_kept
    | with_reducible apply OutKept.next
    | with_reducible intro _

theorem execMdrain_kept {q : List Instr} {m : FrameM} {s : State} (hs : Kept q s) :
    OutKept q (execMdrain m s) := by
  delta execMdrain
  repeat' first
    | with_reducible assumption
    | (extract_lets +onlyGivenNames -underBinder x; refine (fun hx : Kept q x => ?_) ?_; clear_value x; rotate_left; subst x)
    | (extract_lets +onlyGivenNames -underBinder x; clear_value x)
    | with_reducible apply State.fits_kept
    | with_reducible apply State.owned_kept
    | with_reducible apply State.issue_kept
    | with_reducible apply State.setCx_kept
    | with_reducible apply OutKept.next
    | with_reducible apply DKept.wait
    | with_reducible intro _
    | with_reducible (refine Kept.other ?_; assumption)

theorem execMdrainCopy_kept {q : List Instr} {s : State} (hs : Kept q s) :
    OutKept q (execMdrainCopy s) := by
  delta execMdrainCopy
  repeat' first
    | with_reducible assumption
    | with_reducible apply State.drainCopy_kept
    | with_reducible apply OutKept.next
    | with_reducible refine kept_ite ?_ ?_

theorem execMdrainComplete_kept {q : List Instr} {s : State} (hs : Kept q s) :
    OutKept q (execMdrainComplete s) := by
  delta execMdrainComplete
  repeat' first
    | with_reducible assumption
    | with_reducible apply State.drainComplete_kept
    | with_reducible apply OutKept.next
    | with_reducible refine kept_ite ?_ ?_

theorem State.imageAligned_kept {q : List Instr} {s : State} {m : FrameM} {k : State → Done} (hs : Kept q s) (hk : ∀ x0, Kept q x0 → DKept q (k x0)) :
    DKept q (State.imageAligned s m k) := by
  delta State.imageAligned
  repeat' first
    | with_reducible assumption
    | with_reducible apply hk
    | with_reducible apply DKept.exc
    | with_reducible refine dkept_ite ?_ ?_

theorem execMsave_kept {q : List Instr} {m : FrameM} {s : State} (hs : Kept q s) :
    OutKept q (execMsave m s) := by
  delta execMsave
  repeat' first
    | with_reducible assumption
    | with_reducible apply State.imageAligned_kept
    | with_reducible apply unitFail_kept
    | with_reducible apply State.unitWrite_kept
    | with_reducible apply State.owned_kept
    | with_reducible apply State.issue_kept
    | with_reducible apply OutKept.next
    | with_reducible apply DKept.next
    | split
    | with_reducible intro _
    | with_reducible refine Kept2.eq ?_ (by assumption)

theorem execMrest_kept {q : List Instr} {m : FrameM} {s : State} (hs : Kept q s) :
    OutKept q (execMrest m s) := by
  delta execMrest
  repeat' first
    | with_reducible assumption
    | (extract_lets +onlyGivenNames -underBinder x; clear_value x)
    | with_reducible apply State.imageAligned_kept
    | with_reducible apply State.fits_kept
    | with_reducible apply unitFail_kept
    | with_reducible apply State.unitRead_kept
    | with_reducible apply State.owned_kept
    | with_reducible apply State.issue_kept
    | with_reducible apply State.setMx_kept
    | with_reducible apply OutKept.next
    | with_reducible apply DKept.next
    | split
    | with_reducible intro _
    | with_reducible refine Kept2.eq ?_ (by assumption)

theorem execMhclr_kept {q : List Instr} {m : FrameM} {s : State} (hs : Kept q s) :
    OutKept q (execMhclr m s) := by
  delta execMhclr
  repeat' first
    | with_reducible assumption
    | (extract_lets +onlyGivenNames -underBinder x; clear_value x)
    | with_reducible apply State.owned_kept
    | with_reducible apply State.issue_kept
    | with_reducible apply State.setMx_kept
    | with_reducible apply OutKept.next
    | with_reducible apply DKept.next
    | with_reducible intro _

theorem execEccWriteback_kept {q : List Instr} {w : BitVec 19} {s : State} (hs : Kept q s) :
    OutKept q (execEccWriteback w s) := by
  delta execEccWriteback
  repeat' first
    | with_reducible assumption
    | with_reducible apply OutKept.next
    | with_reducible refine kept_ite ?_ ?_
    | (refine Kept.store ?_ (Kept.mem hs) (twf_tput_const (Kept.ecc hs)); with_reducible assumption)

theorem execScrubBlock_kept {q : List Instr} {s : State} (hs : Kept q s) :
    OutKept q (execScrubBlock s) := by
  delta execScrubBlock
  lift_lets -underBinder
  repeat' first
    | with_reducible assumption
    | (extract_lets +onlyGivenNames -underBinder x; refine (fun hx : Kept q x => ?_) ?_; clear_value x; rotate_left; subst x)
    | (extract_lets +onlyGivenNames -underBinder x; clear_value x)
    | with_reducible apply State.refresh_kept
    | with_reducible apply State.eccFailed_kept
    | with_reducible apply State.eccCorrect_kept
    | with_reducible apply State.put_kept
    | with_reducible apply OutKept.next
    | with_reducible refine kept_ite ?_ ?_
    | split
    | with_reducible (refine Kept.other ?_; assumption)

end Sys2Proof.Machine
end

