-- ==== Sys2Proof/Laws/KeptRows.lean ====
section
/-! SUPPORT. Every other command's meaning keeps `Kept`. One lemma per definition. -/

set_option Elab.async false

namespace Sys2Proof.Machine

/-! ### Arrivals -/

theorem execCreditReturn_kept {q : List Instr} {p : Port} {vc : BitVec 2} {s : State} (hs : Kept q s) :
    OutKept q (execCreditReturn p vc s) := by
  delta execCreditReturn
  lift_lets -underBinder
  repeat' first
    | with_reducible assumption
    | (extract_lets +onlyGivenNames -underBinder x; clear_value x)
    | with_reducible apply OutKept.next
    | with_reducible refine kept_ite ?_ ?_
    | with_reducible (refine Kept.other ?_; assumption)

theorem execWakeIn_kept {q : List Instr} {w : WakePulse} {s : State} (hs : Kept q s) :
    OutKept q (execWakeIn w s) := by
  delta execWakeIn
  lift_lets -underBinder
  repeat' first
    | with_reducible assumption
    | (extract_lets +onlyGivenNames -underBinder x; refine (fun hx : Kept q x => ?_) ?_; clear_value x; rotate_left; subst x)
    | (extract_lets +onlyGivenNames -underBinder x; clear_value x)
    | with_reducible apply State.meshBusy_kept
    | with_reducible apply OutKept.next
    | with_reducible refine kept_ite ?_ ?_
    | with_reducible (refine Kept.other ?_; assumption)

theorem State.adapterCredits_kept {q : List Instr} {s : State} {p : Port} (hs : Kept q s) :
    Kept q (State.adapterCredits s p) := by
  delta State.adapterCredits
  lift_lets -underBinder
  repeat' first
    | with_reducible assumption
    | (extract_lets +onlyGivenNames -underBinder x; refine (fun hx : Kept q x => ?_) ?_; clear_value x; rotate_left; subst x)
    | (extract_lets +onlyGivenNames -underBinder x; clear_value x)
    | with_reducible apply State.credit_kept
    | with_reducible apply forN_kept
    | with_reducible intro _
    | with_reducible (refine Kept.other ?_; assumption)

theorem State.firstCredits_kept {q : List Instr} {s : State} (hs : Kept q s) :
    Kept q (State.firstCredits s) := by
  delta State.firstCredits
  repeat' first
    | with_reducible assumption
    | with_reducible apply State.adapterCredits_kept
    | with_reducible apply State.credit_kept
    | with_reducible apply forN_kept
    | with_reducible apply kept_foldl
    | split
    | with_reducible intro _

theorem execCoordTimeout_kept {q : List Instr} {s : State} (hs : Kept q s) :
    OutKept q (execCoordTimeout s) := by
  delta execCoordTimeout
  lift_lets -underBinder
  repeat' first
    | with_reducible assumption
    | (extract_lets +onlyGivenNames -underBinder x; refine (fun hx : Kept q x => ?_) ?_; clear_value x; rotate_left; subst x)
    | (extract_lets +onlyGivenNames -underBinder x; clear_value x)
    | with_reducible apply State.refresh_kept
    | with_reducible apply State.startUpFault_kept
    | with_reducible apply kept_foldl
    | with_reducible apply OutKept.next
    | with_reducible refine kept_ite ?_ ?_
    | split
    | with_reducible intro _
    | with_reducible (refine Kept.other ?_; assumption)

theorem State.arrive_kept {q : List Instr} {s : State} {ty : BitVec 5} {a : Arrival} (hs : Kept q s) :
    Kept q (State.arrive s ty a) := by
  delta State.arrive
  lift_lets -underBinder
  repeat' first
    | with_reducible assumption
    | (extract_lets +onlyGivenNames -underBinder x; refine (fun hx : Kept q x => ?_) ?_; clear_value x; rotate_left; subst x)
    | (extract_lets +onlyGivenNames -underBinder x; clear_value x)
    | with_reducible apply State.takeFlits_kept
    | with_reducible apply State.credit_kept
    | with_reducible apply State.record_kept
    | with_reducible apply State.sendError_kept
    | with_reducible apply State.sat_kept
    | with_reducible apply State.put_kept
    | with_reducible refine kept_ite ?_ ?_
    | split
    | with_reducible (refine Kept.other ?_; assumption)

theorem State.arrival_kept {q : List Instr} {s : State} {name : String} {ty : BitVec 5} {a : Arrival} (hs : Kept q s) :
    OutKept q (State.arrival s name ty a) := by
  delta State.arrival
  repeat' first
    | with_reducible assumption
    | with_reducible apply State.arrive_kept
    | with_reducible apply State.settle_kept
    | with_reducible apply State.meshBusy_kept
    | with_reducible apply OutKept.next
    | with_reducible apply OutKept.fault
    | split

theorem execCoord_kept {q : List Instr} {a : Arrival} {s : State} (hs : Kept q s) :
    OutKept q (execCoord a s) := by
  delta execCoord
  repeat' first
    | with_reducible assumption
    | with_reducible apply State.arrival_kept

theorem execEnum_kept {q : List Instr} {a : Arrival} {s : State} (hs : Kept q s) :
    OutKept q (execEnum a s) := by
  delta execEnum
  repeat' first
    | with_reducible assumption
    | with_reducible apply State.arrival_kept

theorem execRead_kept {q : List Instr} {a : Arrival} {s : State} (hs : Kept q s) :
    OutKept q (execRead a s) := by
  delta execRead
  repeat' first
    | with_reducible assumption
    | with_reducible apply State.arrival_kept

theorem execReadData_kept {q : List Instr} {a : Arrival} {s : State} (hs : Kept q s) :
    OutKept q (execReadData a s) := by
  delta execReadData
  repeat' first
    | with_reducible assumption
    | with_reducible apply State.arrival_kept

theorem execWrite_kept {q : List Instr} {a : Arrival} {s : State} (hs : Kept q s) :
    OutKept q (execWrite a s) := by
  delta execWrite
  repeat' first
    | with_reducible assumption
    | with_reducible apply State.arrival_kept

theorem execWriteAck_kept {q : List Instr} {a : Arrival} {s : State} (hs : Kept q s) :
    OutKept q (execWriteAck a s) := by
  delta execWriteAck
  repeat' first
    | with_reducible assumption
    | with_reducible apply State.arrival_kept

theorem execAtomic_kept {q : List Instr} {a : Arrival} {s : State} (hs : Kept q s) :
    OutKept q (execAtomic a s) := by
  delta execAtomic
  repeat' first
    | with_reducible assumption
    | with_reducible apply State.arrival_kept

theorem execDoorbell_kept {q : List Instr} {a : Arrival} {s : State} (hs : Kept q s) :
    OutKept q (execDoorbell a s) := by
  delta execDoorbell
  repeat' first
    | with_reducible assumption
    | with_reducible apply State.arrival_kept

theorem execMsg_kept {q : List Instr} {a : Arrival} {s : State} (hs : Kept q s) :
    OutKept q (execMsg a s) := by
  delta execMsg
  repeat' first
    | with_reducible assumption
    | with_reducible apply State.arrival_kept

theorem execMsgDropped_kept {q : List Instr} {a : Arrival} {s : State} (hs : Kept q s) :
    OutKept q (execMsgDropped a s) := by
  delta execMsgDropped
  repeat' first
    | with_reducible assumption
    | with_reducible apply State.arrival_kept

theorem execFenced_kept {q : List Instr} {a : Arrival} {s : State} (hs : Kept q s) :
    OutKept q (execFenced a s) := by
  delta execFenced
  repeat' first
    | with_reducible assumption
    | with_reducible apply State.arrival_kept

theorem execFenceCmd_kept {q : List Instr} {a : Arrival} {s : State} (hs : Kept q s) :
    OutKept q (execFenceCmd a s) := by
  delta execFenceCmd
  repeat' first
    | with_reducible assumption
    | with_reducible apply State.arrival_kept

theorem execMcWrite_kept {q : List Instr} {a : Arrival} {s : State} (hs : Kept q s) :
    OutKept q (execMcWrite a s) := by
  delta execMcWrite
  repeat' first
    | with_reducible assumption
    | with_reducible apply State.arrival_kept

theorem execMcDrop_kept {q : List Instr} {a : Arrival} {s : State} (hs : Kept q s) :
    OutKept q (execMcDrop a s) := by
  delta execMcDrop
  repeat' first
    | with_reducible assumption
    | with_reducible apply State.arrival_kept

theorem execPly_kept {q : List Instr} {a : Arrival} {s : State} (hs : Kept q s) :
    OutKept q (execPly a s) := by
  delta execPly
  repeat' first
    | with_reducible assumption
    | with_reducible apply State.arrival_kept

theorem execSkein_kept {q : List Instr} {a : Arrival} {s : State} (hs : Kept q s) :
    OutKept q (execSkein a s) := by
  delta execSkein
  repeat' first
    | with_reducible assumption
    | with_reducible apply State.arrival_kept

theorem execBudget_kept {q : List Instr} {a : Arrival} {s : State} (hs : Kept q s) :
    OutKept q (execBudget a s) := by
  delta execBudget
  repeat' first
    | with_reducible assumption
    | with_reducible apply State.arrival_kept

theorem execFaultReport_kept {q : List Instr} {a : Arrival} {s : State} (hs : Kept q s) :
    OutKept q (execFaultReport a s) := by
  delta execFaultReport
  repeat' first
    | with_reducible assumption
    | with_reducible apply State.arrival_kept

theorem execPacketSend_kept {q : List Instr} {p : Port} {s : State} (hs : Kept q s) :
    OutKept q (execPacketSend p s) := by
  delta execPacketSend
  repeat' first
    | with_reducible assumption
    | with_reducible apply State.settle_kept
    | with_reducible apply State.sendOne_kept
    | with_reducible apply OutKept.next
    | with_reducible refine kept_ite ?_ ?_

theorem execMcBranchHoldExpiry_kept {q : List Instr} {p : Port} {s : State} (hs : Kept q s) :
    OutKept q (execMcBranchHoldExpiry p s) := by
  delta execMcBranchHoldExpiry
  repeat' first
    | with_reducible assumption
    | (extract_lets +onlyGivenNames -underBinder x; refine (fun hx : Kept q x => ?_) ?_; clear_value x; rotate_left; subst x)
    | with_reducible apply State.settle_kept
    | with_reducible apply State.dropHeld_kept
    | with_reducible apply State.inject_kept
    | with_reducible apply State.sat_kept
    | with_reducible apply OutKept.next
    | split

theorem execPlyTimeout_kept {q : List Instr} {entry : BitVec 5} {inst : BitVec 16} {s : State} (hs : Kept q s) :
    OutKept q (execPlyTimeout entry inst s) := by
  delta execPlyTimeout
  repeat' first
    | with_reducible assumption
    | with_reducible apply State.settle_kept
    | with_reducible apply State.toL_kept
    | with_reducible apply State.plyForward_kept
    | with_reducible apply OutKept.next
    | split
    | with_reducible refine Kept1.snd (Kept1.mk ?_)
    | with_reducible refine Kept1.eq ?_ (by assumption)

theorem execDupEntryExpiry_kept {q : List Instr} {s : State} (hs : Kept q s) :
    OutKept q (execDupEntryExpiry s) := by
  delta execDupEntryExpiry
  lift_lets -underBinder
  repeat' first
    | (extract_lets +onlyGivenNames -underBinder x; clear_value x)
    | with_reducible apply OutKept.next
    | with_reducible (refine Kept.other ?_; assumption)

theorem State.reportOne_kept {q : List Instr} {s : State} (hs : Kept q s) :
    Kept q (State.reportOne s) := by
  delta State.reportOne
  repeat' first
    | with_reducible assumption
    | (extract_lets +onlyGivenNames -underBinder x; clear_value x)
    | with_reducible apply State.inject_kept
    | with_reducible apply State.put_kept
    | split

theorem execFaultReportSend_kept {q : List Instr} {s : State} (hs : Kept q s) :
    OutKept q (execFaultReportSend s) := by
  delta execFaultReportSend
  repeat' first
    | with_reducible assumption
    | with_reducible apply State.reportOne_kept
    | with_reducible apply State.settle_kept
    | with_reducible apply forN_kept
    | with_reducible apply OutKept.next
    | with_reducible refine kept_ite ?_ ?_
    | with_reducible intro _

theorem execPortDrainingEnd_kept {q : List Instr} {p : Port} {s : State} (hs : Kept q s) :
    OutKept q (execPortDrainingEnd p s) := by
  delta execPortDrainingEnd
  lift_lets -underBinder
  repeat' first
    | with_reducible assumption
    | (extract_lets +onlyGivenNames -underBinder x; clear_value x)
    | with_reducible apply OutKept.next
    | with_reducible refine kept_ite ?_ ?_
    | with_reducible (refine Kept.other ?_; assumption)

/-! ### Resets -/

theorem execPorstNAssert_kept {q : List Instr} {s : State} (hs : Kept q s) :
    OutKept q (execPorstNAssert s) := by
  exact OutKept.next ⟨hs.pending, rfl, rfl, rfl, Nat.zero_le _, Nat.zero_le _, Nat.zero_le _, Nat.zero_le _⟩

theorem execPorstNRelease_kept {q : List Instr} {st : Straps} {s : State} (hs : Kept q s) :
    OutKept q (execPorstNRelease st s) := by
  delta execPorstNRelease
  lift_lets -underBinder
  repeat' first
    | with_reducible assumption
    | (extract_lets +onlyGivenNames -underBinder x; refine (fun hx : Kept q x => ?_) ?_; clear_value x; rotate_left; subst x)
    | (extract_lets +onlyGivenNames -underBinder x; clear_value x)
    | with_reducible apply State.put_kept
    | with_reducible apply State.setReg_kept
    | with_reducible apply OutKept.next
    | with_reducible refine kept_ite ?_ ?_
    | with_reducible (refine Kept.other ?_; assumption)

theorem State.useSpare_kept {q : List Instr} {s : State} {m e : Nat} {col : BitVec 10} (hs : Kept q s) :
    Kept q (State.useSpare s m e col) := by
  delta State.useSpare
  lift_lets -underBinder
  repeat' first
    | with_reducible assumption
    | (extract_lets +onlyGivenNames -underBinder x; refine (fun hx : Kept q x => ?_) ?_; clear_value x; rotate_left; subst x)
    | (extract_lets +onlyGivenNames -underBinder x; clear_value x)
    | with_reducible apply State.put_kept
    | with_reducible (refine Kept.other ?_; assumption)

theorem State.repairOne_kept {q : List Instr} {b : List Byte} {m e : Nat} {s : State} (hs : Kept q s) :
    Kept q (State.repairOne b m e s) := by
  delta State.repairOne
  lift_lets -underBinder
  repeat' first
    | with_reducible assumption
    | (extract_lets +onlyGivenNames -underBinder x; clear_value x)
    | with_reducible apply State.useSpare_kept
    | with_reducible refine kept_ite ?_ ?_

theorem State.initStarts_kept {q : List Instr} {s : State} (hs : Kept q s) :
    Kept q (State.initStarts s) := by
  delta State.initStarts
  repeat' first
    | with_reducible assumption
    | with_reducible apply State.ldo_kept
    | with_reducible apply State.put_kept

theorem State.fuseAccept_kept {q : List Instr} {s : State} {b : List Byte} (hs : Kept q s) :
    Kept q (State.fuseAccept s b) := by
  delta State.fuseAccept
  lift_lets -underBinder
  repeat' first
    | with_reducible assumption
    | (extract_lets +onlyGivenNames -underBinder x; refine (fun hx : Kept q x => ?_) ?_; clear_value x; rotate_left; subst x)
    | (extract_lets +onlyGivenNames -underBinder x; clear_value x)
    | with_reducible apply State.initStarts_kept
    | with_reducible apply State.repairOne_kept
    | with_reducible apply State.startUpFault_kept
    | with_reducible apply State.put_kept
    | with_reducible apply forN_kept
    | with_reducible refine kept_ite ?_ ?_
    | with_reducible intro _
    | with_reducible (refine Kept.other ?_; assumption)

theorem execFuseImage_kept {q : List Instr} {bytes : List Byte} {s : State} (hs : Kept q s) :
    OutKept q (execFuseImage bytes s) := by
  delta execFuseImage
  lift_lets -underBinder
  repeat' first
    | with_reducible assumption
    | (extract_lets +onlyGivenNames -underBinder x; clear_value x)
    | with_reducible apply State.fuseAccept_kept
    | with_reducible apply State.startUpFault_kept
    | with_reducible apply OutKept.next
    | with_reducible apply OutKept.fault
    | with_reducible refine kept_ite ?_ ?_
    | split
    | with_reducible (refine Kept.other ?_; assumption)

theorem execFuseTimeout_kept {q : List Instr} {s : State} (hs : Kept q s) :
    OutKept q (execFuseTimeout s) := by
  delta execFuseTimeout
  lift_lets -underBinder
  repeat' first
    | with_reducible assumption
    | (extract_lets +onlyGivenNames -underBinder x; clear_value x)
    | with_reducible apply State.startUpFault_kept
    | with_reducible apply OutKept.next
    | with_reducible refine kept_ite ?_ ?_
    | with_reducible (refine Kept.other ?_; assumption)

theorem execPllRefLoss_kept {q : List Instr} {s : State} (hs : Kept q s) :
    OutKept q (execPllRefLoss s) := by
  delta execPllRefLoss
  lift_lets -underBinder
  repeat' first
    | with_reducible assumption
    | (extract_lets +onlyGivenNames -underBinder x; refine (fun hx : Kept q x => ?_) ?_; clear_value x; rotate_left; subst x)
    | (extract_lets +onlyGivenNames -underBinder x; clear_value x)
    | with_reducible apply State.settle_kept
    | with_reducible apply State.checkstop_kept
    | with_reducible apply OutKept.next
    | with_reducible refine kept_ite ?_ ?_
    | with_reducible (refine Kept.other ?_; assumption)

theorem execRouterReady_kept {q : List Instr} {s : State} (hs : Kept q s) :
    OutKept q (execRouterReady s) := by
  delta execRouterReady
  lift_lets -underBinder
  repeat' first
    | with_reducible assumption
    | (extract_lets +onlyGivenNames -underBinder x; refine (fun hx : Kept q x => ?_) ?_; clear_value x; rotate_left; subst x)
    | (extract_lets +onlyGivenNames -underBinder x; clear_value x)
    | with_reducible apply State.firstCredits_kept
    | with_reducible apply State.settle_kept
    | with_reducible apply State.coordsKnown_kept
    | with_reducible apply State.linksReady_kept
    | with_reducible apply State.put_kept
    | with_reducible apply OutKept.next
    | with_reducible refine kept_ite ?_ ?_
    | with_reducible (refine Kept.other ?_; assumption)

theorem State.pagesClosed_kept {q : List Instr} {s : State} (hs : Kept q s) :
    Kept q (State.pagesClosed s) := by
  delta State.pagesClosed
  repeat' first
    | with_reducible assumption
    | with_reducible apply State.setReg_kept
    | with_reducible apply forN_kept
    | with_reducible intro _

theorem execMemReady_kept {q : List Instr} {s : State} (hs : Kept q s) :
    OutKept q (execMemReady s) := by
  delta execMemReady
  lift_lets -underBinder
  repeat' first
    | with_reducible assumption
    | (extract_lets +onlyGivenNames -underBinder x; refine (fun hx : Kept q x => ?_) ?_; clear_value x; rotate_left; subst x)
    | with_reducible apply State.pagesClosed_kept
    | with_reducible apply State.settle_kept
    | with_reducible apply State.tryBootWait_kept
    | with_reducible apply State.put_kept
    | with_reducible apply OutKept.next
    | with_reducible refine kept_ite ?_ ?_
    | (refine Kept.store ?_ rfl rfl; with_reducible assumption)

theorem execIdBootGo_kept {q : List Instr} {w : RegWr} {s : State} (hs : Kept q s) :
    OutKept q (execIdBootGo w s) := by
  delta execIdBootGo
  repeat' first
    | with_reducible assumption
    | with_reducible apply State.settle_kept
    | with_reducible apply State.regCommand_kept
    | with_reducible apply OutKept.next

theorem execMeasurementDone_kept {q : List Instr} {s : State} (hs : Kept q s) :
    OutKept q (execMeasurementDone s) := by
  delta execMeasurementDone
  lift_lets -underBinder
  repeat' first
    | with_reducible assumption
    | (extract_lets +onlyGivenNames -underBinder x; refine (fun hx : Kept q x => ?_) ?_; clear_value x; rotate_left; subst x)
    | (extract_lets +onlyGivenNames -underBinder x; clear_value x)
    | with_reducible apply State.refresh_kept
    | with_reducible apply State.extend_kept
    | with_reducible apply State.put_kept
    | with_reducible apply OutKept.next
    | with_reducible refine kept_ite ?_ ?_
    | with_reducible (refine Kept.other ?_; assumption)

theorem execIdDescSelWrite_kept {q : List Instr} {w : RegWr} {s : State} (hs : Kept q s) :
    OutKept q (execIdDescSelWrite w s) := by
  delta execIdDescSelWrite
  repeat' first
    | with_reducible assumption
    | with_reducible apply State.settle_kept
    | with_reducible apply State.regCommand_kept
    | with_reducible apply OutKept.next

theorem execNodeRstN_kept {q : List Instr} {ticks : Nat} {s : State} (hs : Kept q s) :
    OutKept q (execNodeRstN ticks s) := by
  delta execNodeRstN
  lift_lets -underBinder
  repeat' first
    | with_reducible assumption
    | (extract_lets +onlyGivenNames -underBinder x; clear_value x)
    | with_reducible apply State.requestReset_kept
    | with_reducible apply OutKept.next
    | with_reducible refine kept_ite ?_ ?_
    | with_reducible (refine Kept.other ?_; assumption)

theorem State.resetRegs_kept {q : List Instr} {s : State} {gone : Nat → Bool} (hs : Kept q s) :
    Kept q (State.resetRegs s gone) := by
  delta State.resetRegs
  exact ⟨hs.pending, hs.mem, twf_filter _ hs.ctrl, hs.ecc, hs.db, hs.imq, hs.cq0, hs.cq1⟩

theorem State.resetLoses_kept {q : List Instr} {s : State} (hs : Kept q s) :
    Kept q (State.resetLoses s) := by
  delta State.resetLoses
  extract_lets r x
  have hx : Kept q x := by subst x; exact State.put_kept (State.loseLogic_kept (State.resetRegs_kept hs))
  clear_value x r
  exact Kept.fifos hx (by decide : (0 : Nat) ≤ 32) (by decide : (0 : Nat) ≤ 128) (by decide : (0 : Nat) ≤ 32)
    (by decide : (0 : Nat) ≤ 32)

theorem State.dropUnbegun_kept {q : List Instr} {s : State} (hs : Kept q s) :
    Kept q (State.dropUnbegun s) := by
  delta State.dropUnbegun
  lift_lets -underBinder
  repeat' first
    | (extract_lets +onlyGivenNames -underBinder x; clear_value x)
    | with_reducible (refine Kept.other ?_; assumption)

theorem execNodeDomainReset_kept {q : List Instr} {s : State} (hs : Kept q s) :
    OutKept q (execNodeDomainReset s) := by
  delta execNodeDomainReset
  lift_lets -underBinder
  repeat' first
    | with_reducible assumption
    | (extract_lets +onlyGivenNames -underBinder x; refine (fun hx : Kept q x => ?_) ?_; clear_value x; rotate_left; subst x)
    | (extract_lets +onlyGivenNames -underBinder x; clear_value x)
    | with_reducible apply State.dropUnbegun_kept
    | with_reducible apply State.resetLoses_kept
    | with_reducible apply State.settle_kept
    | with_reducible apply State.fence_kept
    | with_reducible apply State.ldo_kept
    | with_reducible apply State.stopEngines_kept
    | with_reducible apply State.put_kept
    | with_reducible apply OutKept.next
    | with_reducible refine kept_ite ?_ ?_
    | split
    | with_reducible (refine Kept.other ?_; assumption)

theorem execNodeResetRelease_kept {q : List Instr} {s : State} (hs : Kept q s) :
    OutKept q (execNodeResetRelease s) := by
  delta execNodeResetRelease
  lift_lets -underBinder
  repeat' first
    | with_reducible assumption
    | (extract_lets +onlyGivenNames -underBinder x; refine (fun hx : Kept q x => ?_) ?_; clear_value x; rotate_left; subst x)
    | (extract_lets +onlyGivenNames -underBinder x; clear_value x)
    | with_reducible apply State.initStarts_kept
    | with_reducible apply State.put_kept
    | with_reducible apply OutKept.next
    | with_reducible refine kept_ite ?_ ?_
    | with_reducible (refine Kept.other ?_; assumption)

theorem State.floorOn_kept {q : List Instr} {s : State} (hs : Kept q s) :
    Kept q (State.floorOn s) := by
  delta State.floorOn
  lift_lets -underBinder
  repeat' first
    | with_reducible assumption
    | (extract_lets +onlyGivenNames -underBinder x; refine (fun hx : Kept q x => ?_) ?_; clear_value x; rotate_left; subst x)
    | (extract_lets +onlyGivenNames -underBinder x; clear_value x)
    | with_reducible apply State.hwSet_kept
    | with_reducible apply State.put_kept
    | with_reducible refine kept_ite ?_ ?_
    | with_reducible (refine Kept.other ?_; assumption)

theorem execPwrWarn_kept {q : List Instr} {ns : Nat} {s : State} (hs : Kept q s) :
    OutKept q (execPwrWarn ns s) := by
  delta execPwrWarn
  refine OutKept.next (kept_ite ?_ hs)
  dsimp only
  refine kept_ite (Kept.other hs) (State.refresh_kept (State.floorOn_kept (Kept.other hs)))

theorem execFloorExit_kept {q : List Instr} {s : State} (hs : Kept q s) :
    OutKept q (execFloorExit s) := by
  delta execFloorExit
  repeat' first
    | with_reducible assumption
    | with_reducible apply State.refresh_kept
    | with_reducible apply State.hwSet_kept
    | with_reducible apply State.put_kept
    | with_reducible apply OutKept.next
    | with_reducible refine kept_ite ?_ ?_

theorem State.testOut_kept {q : List Instr} {s : State} {v d : Nat} (hs : Kept q s) :
    Kept q (State.testOut s v d) := by
  delta State.testOut
  lift_lets -underBinder
  repeat' first
    | (extract_lets +onlyGivenNames -underBinder x; clear_value x)
    | with_reducible (refine Kept.other ?_; assumption)

theorem execTestModeRise_kept {q : List Instr} {s : State} (hs : Kept q s) :
    OutKept q (execTestModeRise s) := by
  delta execTestModeRise
  lift_lets -underBinder
  repeat' first
    | with_reducible assumption
    | (extract_lets +onlyGivenNames -underBinder x; refine (fun hx : Kept q x => ?_) ?_; clear_value x; rotate_left; subst x)
    | (extract_lets +onlyGivenNames -underBinder x; clear_value x)
    | with_reducible apply State.resetRegs_kept
    | with_reducible apply State.settle_kept
    | with_reducible apply State.keyClear_kept
    | with_reducible apply State.fence_kept
    | with_reducible apply OutKept.next
    | with_reducible refine kept_ite ?_ ?_
    | with_reducible (refine Kept.other ?_; assumption)

theorem State.testWrite_kept {q : List Instr} {s : State} {a0 : TestAcc} (hs : Kept q s) :
    Kept q (State.testWrite s a0) := by
  delta State.testWrite
  repeat' first
    | with_reducible assumption
    | (extract_lets +onlyGivenNames -underBinder x; clear_value x)
    | with_reducible apply State.settle_kept
    | with_reducible apply State.writeReg_kept
    | with_reducible refine kept_ite ?_ ?_
    | split
    | with_reducible (refine Kept.other ?_; assumption)
    | (refine Kept.store ?_ (Mem.wf_put (Kept.mem hs)) (twf_tput_const (Kept.ecc hs)); with_reducible assumption)

theorem execTestAccess_kept {q : List Instr} {t : TestAcc} {s : State} (hs : Kept q s) :
    OutKept q (execTestAccess t s) := by
  delta execTestAccess
  lift_lets -underBinder
  repeat' first
    | with_reducible assumption
    | (extract_lets +onlyGivenNames -underBinder x; refine (fun hx : Kept q x => ?_) ?_; clear_value x; rotate_left; subst x)
    | with_reducible apply State.testWrite_kept
    | with_reducible apply State.testOut_kept
    | with_reducible apply OutKept.next
    | with_reducible refine kept_ite ?_ ?_

theorem State.mbistCol_kept {q : List Instr} {s : State} {m : Nat} {col : BitVec 10} (hs : Kept q s) :
    Kept q (State.mbistCol s m col) := by
  delta State.mbistCol
  repeat' first
    | with_reducible assumption
    | with_reducible apply State.useSpare_kept
    | with_reducible refine kept_ite ?_ ?_
    | split

theorem execMbistRun_kept {q : List Instr} {arr : MbistArray} {cols : List (BitVec 3 × BitVec 10)} {s : State} (hs : Kept q s) :
    OutKept q (execMbistRun arr cols s) := by
  delta execMbistRun
  refine OutKept.next (kept_ite ?_ hs)
  dsimp only
  refine kept_foldl ?_ fun x e hx => State.mbistCol_kept hx
  split
  · exact Kept.store hs twf_range_map twf_range_map
  · exact Kept.other hs
  · exact hs

/-! ### LinkRows -/

theorem State.onLink_kept {q : List Instr} {s : State} {p : Port} {f : State → State} (hs : Kept q s) (hf : ∀ x0, Kept q x0 → Kept q (f x0)) :
    OutKept q (State.onLink s p f) := by
  delta State.onLink
  repeat' first
    | with_reducible assumption
    | with_reducible apply State.settle_kept
    | with_reducible apply hf
    | with_reducible apply OutKept.next
    | with_reducible refine kept_ite ?_ ?_

theorem State.onLinkAfter_kept {q : List Instr} {s : State} {p : Port} {st n : Nat} {f : State → State} (hs : Kept q s) (hf : ∀ x0, Kept q x0 → Kept q (f x0)) :
    OutKept q (State.onLinkAfter s p st n f) := by
  delta State.onLinkAfter
  repeat' first
    | with_reducible assumption
    | with_reducible apply State.onLink_kept
    | with_reducible apply hf
    | split
    | with_reducible intro _

theorem State.onFrame_kept {q : List Instr} {s : State} {p : Port} {rx : List (List LaneWord)} (hs : Kept q s) :
    OutKept q (State.onFrame s p rx) := by
  delta State.onFrame
  repeat' first
    | with_reducible assumption
    | with_reducible apply State.onLink_kept
    | with_reducible apply State.rxFrame_kept
    | with_reducible intro _

theorem execFrameSend_kept {q : List Instr} {p : Port} {s : State} (hs : Kept q s) :
    OutKept q (execFrameSend p s) := by
  delta execFrameSend
  repeat' first
    | with_reducible assumption
    | with_reducible apply State.onLink_kept
    | with_reducible apply State.frameSend_kept
    | with_reducible intro _

theorem execDataFrame_kept {q : List Instr} {p : Port} {rx : List (List LaneWord)} {s : State} (hs : Kept q s) :
    OutKept q (execDataFrame p rx s) := by
  delta execDataFrame
  repeat' first
    | with_reducible assumption
    | with_reducible apply State.onFrame_kept

theorem execNullFrame_kept {q : List Instr} {p : Port} {rx : List (List LaneWord)} {s : State} (hs : Kept q s) :
    OutKept q (execNullFrame p rx s) := by
  delta execNullFrame
  repeat' first
    | with_reducible assumption
    | with_reducible apply State.onFrame_kept

theorem execCapFrame_kept {q : List Instr} {p : Port} {rx : List (List LaneWord)} {s : State} (hs : Kept q s) :
    OutKept q (execCapFrame p rx s) := by
  delta execCapFrame
  repeat' first
    | with_reducible assumption
    | with_reducible apply State.onFrame_kept

theorem execDetachFrame_kept {q : List Instr} {p : Port} {rx : List (List LaneWord)} {s : State} (hs : Kept q s) :
    OutKept q (execDetachFrame p rx s) := by
  delta execDetachFrame
  repeat' first
    | with_reducible assumption
    | with_reducible apply State.onFrame_kept

theorem execAlignWord_kept {q : List Instr} {p : Port} {rx : List LaneWord} {s : State} (hs : Kept q s) :
    OutKept q (execAlignWord p rx s) := by
  delta execAlignWord
  repeat' first
    | with_reducible assumption
    | with_reducible apply State.onLink_kept
    | with_reducible apply State.alignWord_kept
    | with_reducible intro _

theorem execNakTimerExpiry_kept {q : List Instr} {p : Port} {s : State} (hs : Kept q s) :
    OutKept q (execNakTimerExpiry p s) := by
  delta execNakTimerExpiry
  repeat' first
    | with_reducible assumption
    | (extract_lets +onlyGivenNames -underBinder x; clear_value x)
    | with_reducible apply State.onLink_kept
    | with_reducible apply State.setLnk_kept
    | with_reducible refine kept_ite ?_ ?_
    | with_reducible intro _

theorem execReplayTimerExpiry_kept {q : List Instr} {p : Port} {s : State} (hs : Kept q s) :
    OutKept q (execReplayTimerExpiry p s) := by
  delta execReplayTimerExpiry
  repeat' first
    | with_reducible assumption
    | (extract_lets +onlyGivenNames -underBinder x; clear_value x)
    | with_reducible apply State.onLink_kept
    | with_reducible apply State.setLnk_kept
    | with_reducible apply State.sat_kept
    | with_reducible refine kept_ite ?_ ?_
    | with_reducible intro _

theorem execRettoExpiry_kept {q : List Instr} {p : Port} {s : State} (hs : Kept q s) :
    OutKept q (execRettoExpiry p s) := by
  delta execRettoExpiry
  repeat' first
    | with_reducible assumption
    | (extract_lets +onlyGivenNames -underBinder x; clear_value x)
    | with_reducible apply State.onLink_kept
    | with_reducible apply State.retireChannel_kept
    | with_reducible refine kept_ite ?_ ?_
    | split
    | with_reducible intro _

theorem execErrorWindowEnd_kept {q : List Instr} {p : Port} {s : State} (hs : Kept q s) :
    OutKept q (execErrorWindowEnd p s) := by
  delta execErrorWindowEnd
  repeat' first
    | with_reducible assumption
    | with_reducible apply State.onLink_kept
    | with_reducible apply State.windowEnd_kept
    | with_reducible intro _

theorem execFecUncorrectable_kept {q : List Instr} {p : Port} {lane : BitVec 2} {s : State} (hs : Kept q s) :
    OutKept q (execFecUncorrectable p lane s) := by
  delta execFecUncorrectable
  repeat' first
    | with_reducible assumption
    | with_reducible apply State.onLink_kept
    | with_reducible apply State.fecUnc_kept
    | with_reducible intro _

theorem execFecCorrected_kept {q : List Instr} {p : Port} {lane : BitVec 2} {count : BitVec 8} {s : State} (hs : Kept q s) :
    OutKept q (execFecCorrected p lane count s) := by
  delta execFecCorrected
  repeat' first
    | with_reducible assumption
    | with_reducible apply State.onLink_kept
    | with_reducible apply State.fecCor_kept
    | with_reducible intro _

theorem execLaneHealthLoss_kept {q : List Instr} {p : Port} {lstat : BitVec 16} {s : State} (hs : Kept q s) :
    OutKept q (execLaneHealthLoss p lstat s) := by
  delta execLaneHealthLoss
  repeat' first
    | with_reducible assumption
    | with_reducible apply State.onLink_kept
    | with_reducible apply State.laneLoss_kept
    | with_reducible intro _

theorem State.linkWaitPhy_kept {q : List Instr} {s : State} {p : Port} (hs : Kept q s) :
    Kept q (State.linkWaitPhy s p) := by
  delta State.linkWaitPhy
  lift_lets -underBinder
  repeat' first
    | with_reducible assumption
    | (extract_lets +onlyGivenNames -underBinder x; refine (fun hx : Kept q x => ?_) ?_; clear_value x; rotate_left; subst x)
    | (extract_lets +onlyGivenNames -underBinder x; clear_value x)
    | with_reducible apply State.linkEnter_kept
    | with_reducible apply State.setLnk_kept

theorem execLinkResetDone_kept {q : List Instr} {p : Port} {s : State} (hs : Kept q s) :
    OutKept q (execLinkResetDone p s) := by
  delta execLinkResetDone
  repeat' first
    | with_reducible assumption
    | with_reducible apply State.linkWaitPhy_kept
    | with_reducible apply State.onLinkAfter_kept
    | with_reducible intro _

theorem State.linkAlign_kept {q : List Instr} {s : State} {p : Port} (hs : Kept q s) :
    Kept q (State.linkAlign s p) := by
  delta State.linkAlign
  lift_lets -underBinder
  repeat' first
    | with_reducible assumption
    | (extract_lets +onlyGivenNames -underBinder x; refine (fun hx : Kept q x => ?_) ?_; clear_value x; rotate_left; subst x)
    | (extract_lets +onlyGivenNames -underBinder x; clear_value x)
    | with_reducible apply State.linkEnter_kept
    | with_reducible apply State.setLnk_kept

theorem execPhyHealthy_kept {q : List Instr} {p : Port} {lstat : BitVec 16} {s : State} (hs : Kept q s) :
    OutKept q (execPhyHealthy p lstat s) := by
  delta execPhyHealthy
  repeat' first
    | with_reducible assumption
    | (extract_lets +onlyGivenNames -underBinder x; refine (fun hx : Kept q x => ?_) ?_; clear_value x; rotate_left; subst x)
    | with_reducible apply State.linkAlign_kept
    | with_reducible apply State.onLink_kept
    | with_reducible apply State.lanesShow_kept
    | with_reducible refine kept_ite ?_ ?_
    | split
    | with_reducible intro _

theorem execAlignTimeout_kept {q : List Instr} {p : Port} {s : State} (hs : Kept q s) :
    OutKept q (execAlignTimeout p s) := by
  delta execAlignTimeout
  repeat' first
    | with_reducible assumption
    | with_reducible apply State.onLinkAfter_kept
    | with_reducible apply State.linkReset_kept
    | with_reducible intro _

theorem execCapTimeout_kept {q : List Instr} {p : Port} {s : State} (hs : Kept q s) :
    OutKept q (execCapTimeout p s) := by
  delta execCapTimeout
  repeat' first
    | with_reducible assumption
    | with_reducible apply State.onLinkAfter_kept
    | with_reducible apply State.linkFailed_kept
    | with_reducible intro _

theorem execRetrainTimeout_kept {q : List Instr} {p : Port} {s : State} (hs : Kept q s) :
    OutKept q (execRetrainTimeout p s) := by
  delta execRetrainTimeout
  repeat' first
    | with_reducible assumption
    | with_reducible apply State.onLinkAfter_kept
    | with_reducible apply State.retireChannel_kept
    | with_reducible intro _

theorem execDetachedDone_kept {q : List Instr} {p : Port} {s : State} (hs : Kept q s) :
    OutKept q (execDetachedDone p s) := by
  delta execDetachedDone
  repeat' first
    | with_reducible assumption
    | with_reducible apply State.linkWaitPhy_kept
    | with_reducible apply State.onLinkAfter_kept
    | with_reducible intro _

theorem execWidthChangeTimeout_kept {q : List Instr} {p : Port} {s : State} (hs : Kept q s) :
    OutKept q (execWidthChangeTimeout p s) := by
  delta execWidthChangeTimeout
  repeat' first
    | with_reducible assumption
    | (extract_lets +onlyGivenNames -underBinder x; clear_value x)
    | with_reducible apply State.onLink_kept
    | with_reducible apply State.linkRetrain_kept
    | with_reducible refine kept_ite ?_ ?_
    | with_reducible intro _

theorem State.lnkCtlWrite_kept {q : List Instr} {s : State} {p : Port} {w : RegWr} {v : Word} (hs : Kept q s) :
    OutKept q (State.lnkCtlWrite s p w v) := by
  delta State.lnkCtlWrite
  repeat' first
    | with_reducible assumption
    | with_reducible apply State.onLink_kept
    | with_reducible apply State.regCommand_kept
    | with_reducible intro _

theorem execLnkCtlEn_kept {q : List Instr} {p : Port} {w : RegWr} {s : State} (hs : Kept q s) :
    OutKept q (execLnkCtlEn p w s) := by
  delta execLnkCtlEn
  repeat' first
    | with_reducible assumption
    | with_reducible apply State.lnkCtlWrite_kept

theorem execRearm_kept {q : List Instr} {p : Port} {w : RegWr} {s : State} (hs : Kept q s) :
    OutKept q (execRearm p w s) := by
  delta execRearm
  repeat' first
    | with_reducible assumption
    | with_reducible apply State.lnkCtlWrite_kept

theorem execRetire_kept {q : List Instr} {p : Port} {w : RegWr} {s : State} (hs : Kept q s) :
    OutKept q (execRetire p w s) := by
  delta execRetire
  repeat' first
    | with_reducible assumption
    | with_reducible apply State.lnkCtlWrite_kept

/-! ### QueueRows -/

theorem execDoorbellApply_kept {q : List Instr} {s : State} (hs : Kept q s) :
    OutKept q (execDoorbellApply s) := by
  delta execDoorbellApply
  refine OutKept.next (kept_ite ?_ hs)
  have hs : Kept q s.purge := State.purge_kept hs
  dsimp only
  generalize s.purge = s at hs ⊢
  split
  · exact hs
  · rename_i e r he
    have h := hs.db
    rw [he] at h
    refine State.refresh_kept (State.applyTail_kept (State.restart_kept (Kept.fifos hs ?_ hs.imq hs.cq0 hs.cq1)))
    simp only [List.length_cons] at h
    show r.length ≤ 32
    omega

theorem execDescriptorFetch_kept {q : List Instr} {ring : BitVec 4} {s : State} (hs : Kept q s) :
    OutKept q (execDescriptorFetch ring s) := by
  delta execDescriptorFetch
  repeat' first
    | with_reducible assumption
    | with_reducible apply State.settle_kept
    | with_reducible apply State.fetchHead_kept
    | with_reducible apply OutKept.next
    | with_reducible refine kept_ite ?_ ?_

theorem State.descRow_kept {q : List Instr} {s : State} {ring : BitVec 4} {ty : Nat} (hs : Kept q s) :
    Kept q (State.descRow s ring ty) := by
  delta State.descRow
  lift_lets -underBinder
  repeat' first
    | with_reducible assumption
    | (extract_lets +onlyGivenNames -underBinder x; clear_value x)
    | with_reducible apply State.settle_kept
    | with_reducible apply State.startDesc_kept
    | with_reducible refine kept_ite ?_ ?_
    | split

theorem execDescNop_kept {q : List Instr} {ring : BitVec 4} {s : State} (hs : Kept q s) :
    OutKept q (execDescNop ring s) := by
  delta execDescNop
  repeat' first
    | with_reducible assumption
    | with_reducible apply State.descRow_kept
    | with_reducible apply OutKept.next

theorem execDescKernel_kept {q : List Instr} {ring : BitVec 4} {s : State} (hs : Kept q s) :
    OutKept q (execDescKernel ring s) := by
  delta execDescKernel
  repeat' first
    | with_reducible assumption
    | with_reducible apply State.descRow_kept
    | with_reducible apply OutKept.next

theorem execDescDma_kept {q : List Instr} {ring : BitVec 4} {s : State} (hs : Kept q s) :
    OutKept q (execDescDma ring s) := by
  delta execDescDma
  repeat' first
    | with_reducible assumption
    | with_reducible apply State.descRow_kept
    | with_reducible apply OutKept.next

theorem execDescReshard_kept {q : List Instr} {ring : BitVec 4} {s : State} (hs : Kept q s) :
    OutKept q (execDescReshard ring s) := by
  delta execDescReshard
  repeat' first
    | with_reducible assumption
    | with_reducible apply State.descRow_kept
    | with_reducible apply OutKept.next

theorem execDescMulticast_kept {q : List Instr} {ring : BitVec 4} {s : State} (hs : Kept q s) :
    OutKept q (execDescMulticast ring s) := by
  delta execDescMulticast
  repeat' first
    | with_reducible assumption
    | with_reducible apply State.descRow_kept
    | with_reducible apply OutKept.next

theorem execDescPly_kept {q : List Instr} {ring : BitVec 4} {s : State} (hs : Kept q s) :
    OutKept q (execDescPly ring s) := by
  delta execDescPly
  repeat' first
    | with_reducible assumption
    | with_reducible apply State.descRow_kept
    | with_reducible apply OutKept.next

theorem execDescBarrier_kept {q : List Instr} {ring : BitVec 4} {s : State} (hs : Kept q s) :
    OutKept q (execDescBarrier ring s) := by
  delta execDescBarrier
  repeat' first
    | with_reducible assumption
    | with_reducible apply State.descRow_kept
    | with_reducible apply OutKept.next

theorem execDescSkein_kept {q : List Instr} {ring : BitVec 4} {s : State} (hs : Kept q s) :
    OutKept q (execDescSkein ring s) := by
  delta execDescSkein
  repeat' first
    | with_reducible assumption
    | with_reducible apply State.descRow_kept
    | with_reducible apply OutKept.next

theorem execDescriptorComplete_kept {q : List Instr} {ring : BitVec 4} {s : State} (hs : Kept q s) :
    OutKept q (execDescriptorComplete ring s) := by
  delta execDescriptorComplete
  repeat' first
    | with_reducible assumption
    | with_reducible apply State.settle_kept
    | with_reducible apply State.finish_kept
    | with_reducible apply OutKept.next
    | with_reducible refine kept_ite ?_ ?_
    | split

theorem State.keepEnergy_kept {q : List Instr} {s : State} {c : CtxId} {e : Nat} (hs : Kept q s) :
    Kept q (State.keepEnergy s c e) := by
  delta State.keepEnergy
  lift_lets -underBinder
  repeat' first
    | (extract_lets +onlyGivenNames -underBinder x; clear_value x)
    | split
    | with_reducible (refine Kept.other ?_; assumption)

theorem execWatchdog_kept {q : List Instr} {ring : BitVec 4} {s : State} (hs : Kept q s) :
    OutKept q (execWatchdog ring s) := by
  delta execWatchdog
  lift_lets -underBinder
  repeat' first
    | with_reducible assumption
    | (extract_lets +onlyGivenNames -underBinder x; refine (fun hx : Kept q x => ?_) ?_; clear_value x; rotate_left; subst x)
    | (extract_lets +onlyGivenNames -underBinder x; clear_value x)
    | with_reducible apply State.keepEnergy_kept
    | with_reducible apply State.settle_kept
    | with_reducible apply State.finish_kept
    | with_reducible apply State.record_kept
    | with_reducible apply State.put_kept
    | with_reducible apply OutKept.next
    | with_reducible refine kept_ite ?_ ?_
    | split

theorem execQeKdone_kept {q : List Instr} {c : CtxId} {w : RegWr} {s : State} (hs : Kept q s) :
    OutKept q (execQeKdone c w s) := by
  delta execQeKdone
  repeat' first
    | with_reducible assumption
    | with_reducible apply State.settle_kept
    | with_reducible apply State.regCommand_kept
    | with_reducible apply OutKept.next

theorem execKslotTaken_kept {q : List Instr} {c : CtxId} {w : RegWr} {s : State} (hs : Kept q s) :
    OutKept q (execKslotTaken c w s) := by
  delta execKslotTaken
  repeat' first
    | with_reducible assumption
    | with_reducible apply State.settle_kept
    | with_reducible apply State.regCommand_kept
    | with_reducible apply OutKept.next

theorem execQeCqpop_kept {q : List Instr} {c : CtxId} {r : RegRd} {s : State} (hs : Kept q s) :
    OutKept q (execQeCqpop c r s) := OutKept.next (State.settle_kept (State.readCommand_kept hs))

theorem execQeMboxAck_kept {q : List Instr} {w : RegWr} {s : State} (hs : Kept q s) :
    OutKept q (execQeMboxAck w s) := by
  delta execQeMboxAck
  repeat' first
    | with_reducible assumption
    | with_reducible apply State.settle_kept
    | with_reducible apply State.regCommand_kept
    | with_reducible apply OutKept.next

theorem execRingEnable_kept {q : List Instr} {ring : BitVec 4} {w : RegWr} {s : State} (hs : Kept q s) :
    OutKept q (execRingEnable ring w s) := by
  delta execRingEnable
  repeat' first
    | with_reducible assumption
    | with_reducible apply State.settle_kept
    | with_reducible apply State.regCommand_kept
    | with_reducible apply OutKept.next

theorem execRingDisable_kept {q : List Instr} {ring : BitVec 4} {w : RegWr} {s : State} (hs : Kept q s) :
    OutKept q (execRingDisable ring w s) := by
  delta execRingDisable
  repeat' first
    | with_reducible assumption
    | with_reducible apply State.settle_kept
    | with_reducible apply State.regCommand_kept
    | with_reducible apply OutKept.next

theorem execTailWrite_kept {q : List Instr} {ring : BitVec 4} {w : RegWr} {s : State} (hs : Kept q s) :
    OutKept q (execTailWrite ring w s) := by
  delta execTailWrite
  repeat' first
    | with_reducible assumption
    | with_reducible apply State.settle_kept
    | with_reducible apply State.regCommand_kept
    | with_reducible apply OutKept.next

theorem execFifoStale_kept {qq : List Instr} {q : BitVec 3} {s : State} (hs : Kept qq s) :
    OutKept qq (execFifoStale q s) := by
  delta execFifoStale
  repeat' first
    | with_reducible assumption
    | with_reducible apply State.refresh_kept
    | with_reducible apply State.put_kept
    | with_reducible apply OutKept.next
    | with_reducible refine kept_ite ?_ ?_
    | split

/-! ### SpindleRows -/

theorem State.oppStart_kept {q : List Instr} {s : State} (hs : Kept q s) :
    Kept q (State.oppStart s) := by
  delta State.oppStart
  lift_lets -underBinder
  repeat' first
    | with_reducible assumption
    | (extract_lets +onlyGivenNames -underBinder x; refine (fun hx : Kept q x => ?_) ?_; clear_value x; rotate_left; subst x)
    | (extract_lets +onlyGivenNames -underBinder x; clear_value x)
    | with_reducible apply State.put_kept
    | with_reducible refine kept_ite ?_ ?_
    | with_reducible (refine Kept.other ?_; assumption)

theorem State.rampTick_kept {q : List Instr} {s : State} (hs : Kept q s) :
    Kept q (State.rampTick s) := by
  delta State.rampTick
  lift_lets -underBinder
  repeat' first
    | with_reducible assumption
    | (extract_lets +onlyGivenNames -underBinder x; clear_value x)
    | with_reducible apply State.put_kept
    | with_reducible refine kept_ite ?_ ?_

theorem execOppChangeDone_kept {q : List Instr} {s : State} (hs : Kept q s) :
    OutKept q (execOppChangeDone s) := by
  delta execOppChangeDone
  lift_lets -underBinder
  repeat' first
    | with_reducible assumption
    | (extract_lets +onlyGivenNames -underBinder x; clear_value x)
    | with_reducible apply State.oppStart_kept
    | with_reducible apply State.refresh_kept
    | with_reducible apply State.put_kept
    | with_reducible apply OutKept.next
    | with_reducible refine kept_ite ?_ ?_

theorem State.debtRise_kept {q : List Instr} {s : State} {clamped : Bool} (hs : Kept q s) :
    Kept q (State.debtRise s clamped) := by
  delta State.debtRise
  lift_lets -underBinder
  repeat' first
    | with_reducible assumption
    | (extract_lets +onlyGivenNames -underBinder x; refine (fun hx : Kept q x => ?_) ?_; clear_value x; rotate_left; subst x)
    | (extract_lets +onlyGivenNames -underBinder x; clear_value x)
    | with_reducible apply State.hwAdd_kept
    | with_reducible apply State.hwSet_kept
    | with_reducible apply State.put_kept
    | with_reducible refine kept_ite ?_ ?_
    | with_reducible (refine Kept.other ?_; assumption)

theorem State.bucketTick_kept {q : List Instr} {s : State} {e : Nat} (hs : Kept q s) :
    Kept q (State.bucketTick s e) := by
  delta State.bucketTick
  lift_lets -underBinder
  repeat' first
    | with_reducible assumption
    | (extract_lets +onlyGivenNames -underBinder x; refine (fun hx : Kept q x => ?_) ?_; clear_value x; rotate_left; subst x)
    | (extract_lets +onlyGivenNames -underBinder x; clear_value x)
    | with_reducible apply State.debtRise_kept
    | with_reducible apply State.perf_kept
    | with_reducible apply State.put_kept
    | with_reducible refine kept_ite ?_ ?_
    | with_reducible (refine Kept.other ?_; assumption)

theorem State.noteEnergy_kept {q : List Instr} {s : State} {sensed : Nat} {l : List (Nat × Nat)} (hs : Kept q s) :
    Kept q (State.noteEnergy s sensed l) := by
  delta State.noteEnergy
  lift_lets -underBinder
  repeat' first
    | (extract_lets +onlyGivenNames -underBinder x; clear_value x)
    | with_reducible (refine Kept.other ?_; assumption)

theorem State.ringTick_kept {q : List Instr} {e : Nat} {n : Nat} {s : State} (hs : Kept q s) :
    Kept q (State.ringTick e n s) := by
  delta State.ringTick
  lift_lets -underBinder
  repeat' first
    | with_reducible assumption
    | (extract_lets +onlyGivenNames -underBinder x; refine (fun hx : Kept q x => ?_) ?_; clear_value x; rotate_left; subst x)
    | (extract_lets +onlyGivenNames -underBinder x; clear_value x)
    | with_reducible apply State.setRing_kept
    | with_reducible apply State.put_kept

theorem State.sumResv_kept {q : List Instr} {s : State} (hs : Kept q s) :
    Kept q (State.sumResv s) := by
  delta State.sumResv
  repeat' first
    | with_reducible assumption
    | with_reducible apply State.put_kept

theorem State.admitRing_kept {q : List Instr} {s : State} {n : Nat} (hs : Kept q s) :
    Kept q (State.admitRing s n) := by
  delta State.admitRing
  lift_lets -underBinder
  repeat' first
    | with_reducible assumption
    | (extract_lets +onlyGivenNames -underBinder x; refine (fun hx : Kept q x => ?_) ?_; clear_value x; rotate_left; subst x)
    | (extract_lets +onlyGivenNames -underBinder x; clear_value x)
    | with_reducible apply State.wakeBy_kept
    | with_reducible apply State.sample_kept
    | with_reducible apply State.setRing_kept
    | with_reducible apply State.perf_kept
    | with_reducible apply State.put_kept
    | with_reducible (refine Kept.other ?_; assumption)

theorem State.decides_kept {q : List Instr} {a0 : Nat} {s : State} (hs : Kept q s) :
    Kept q (State.decides a0 s) := by
  induction a0 generalizing s with
  | zero => exact hs
  | succ n ih =>
  rw [State.decides]
  repeat' first
    | with_reducible assumption
    | with_reducible apply State.admitRing_kept
    | with_reducible apply State.tick_kept
    | with_reducible apply ih
    | split

theorem State.admission_kept {q : List Instr} {s : State} (hs : Kept q s) :
    Kept q (State.admission s) := by
  delta State.admission
  repeat' first
    | with_reducible assumption
    | with_reducible apply State.decides_kept
    | with_reducible refine kept_ite ?_ ?_

theorem State.awake_kept {q : List Instr} {s : State} (hs : Kept q s) :
    Kept q (State.awake s) := by
  delta State.awake
  lift_lets -underBinder
  repeat' first
    | with_reducible assumption
    | (extract_lets +onlyGivenNames -underBinder x; refine (fun hx : Kept q x => ?_) ?_; clear_value x; rotate_left; subst x)
    | (extract_lets +onlyGivenNames -underBinder x; clear_value x)
    | with_reducible apply State.floorOn_kept
    | with_reducible apply State.ldo_kept
    | with_reducible apply State.put_kept
    | with_reducible refine kept_ite ?_ ?_
    | with_reducible (refine Kept.other ?_; assumption)

theorem execN2Entry_kept {q : List Instr} {s : State} (hs : Kept q s) :
    OutKept q (execN2Entry s) := by
  delta execN2Entry
  lift_lets -underBinder
  repeat' first
    | with_reducible assumption
    | (extract_lets +onlyGivenNames -underBinder x; refine (fun hx : Kept q x => ?_) ?_; clear_value x; rotate_left; subst x)
    | (extract_lets +onlyGivenNames -underBinder x; clear_value x)
    | with_reducible apply State.put_kept
    | with_reducible apply OutKept.next
    | with_reducible refine kept_ite ?_ ?_
    | with_reducible (refine Kept.other ?_; assumption)

theorem execN2Wake_kept {q : List Instr} {s : State} (hs : Kept q s) :
    OutKept q (execN2Wake s) := by
  delta execN2Wake
  lift_lets -underBinder
  repeat' first
    | with_reducible assumption
    | (extract_lets +onlyGivenNames -underBinder x; refine (fun hx : Kept q x => ?_) ?_; clear_value x; rotate_left; subst x)
    | with_reducible apply State.awake_kept
    | with_reducible apply State.wfeDone_kept
    | with_reducible apply State.settle_kept
    | with_reducible apply OutKept.next
    | with_reducible refine kept_ite ?_ ?_

theorem execPscmdN3_kept {q : List Instr} {w : RegWr} {s : State} (hs : Kept q s) :
    OutKept q (execPscmdN3 w s) := by
  delta execPscmdN3
  repeat' first
    | with_reducible assumption
    | with_reducible apply State.settle_kept
    | with_reducible apply State.regCommand_kept
    | with_reducible apply OutKept.next

theorem execPscmdN4_kept {q : List Instr} {w : RegWr} {s : State} (hs : Kept q s) :
    OutKept q (execPscmdN4 w s) := by
  delta execPscmdN4
  repeat' first
    | with_reducible assumption
    | with_reducible apply State.settle_kept
    | with_reducible apply State.regCommand_kept
    | with_reducible apply OutKept.next

theorem execPscmdWithdraw_kept {q : List Instr} {w : RegWr} {s : State} (hs : Kept q s) :
    OutKept q (execPscmdWithdraw w s) := by
  delta execPscmdWithdraw
  repeat' first
    | with_reducible assumption
    | with_reducible apply State.settle_kept
    | with_reducible apply State.regCommand_kept
    | with_reducible apply OutKept.next

theorem execSpnWakeGo_kept {q : List Instr} {w : RegWr} {s : State} (hs : Kept q s) :
    OutKept q (execSpnWakeGo w s) := by
  delta execSpnWakeGo
  repeat' first
    | with_reducible assumption
    | with_reducible apply State.settle_kept
    | with_reducible apply State.regCommand_kept
    | with_reducible apply OutKept.next

theorem execDeepSleepEntry_kept {q : List Instr} {s : State} (hs : Kept q s) :
    OutKept q (execDeepSleepEntry s) := by
  delta execDeepSleepEntry
  lift_lets -underBinder
  repeat' first
    | with_reducible assumption
    | (extract_lets +onlyGivenNames -underBinder x; refine (fun hx : Kept q x => ?_) ?_; clear_value x; rotate_left; subst x)
    | (extract_lets +onlyGivenNames -underBinder x; clear_value x)
    | with_reducible apply State.loseLogic_kept
    | with_reducible apply State.ldo_kept
    | with_reducible apply State.put_kept
    | with_reducible apply OutKept.next
    | with_reducible refine kept_ite ?_ ?_
    | with_reducible (refine Kept.other ?_; assumption)

theorem execDeepWake_kept {q : List Instr} {s : State} (hs : Kept q s) :
    OutKept q (execDeepWake s) := by
  delta execDeepWake
  lift_lets -underBinder
  repeat' first
    | with_reducible assumption
    | (extract_lets +onlyGivenNames -underBinder x; refine (fun hx : Kept q x => ?_) ?_; clear_value x; rotate_left; subst x)
    | (extract_lets +onlyGivenNames -underBinder x; clear_value x)
    | with_reducible apply State.awake_kept
    | with_reducible apply State.resetRegs_kept
    | with_reducible apply State.settle_kept
    | with_reducible apply State.put_kept
    | with_reducible apply OutKept.next
    | with_reducible refine kept_ite ?_ ?_
    | with_reducible (refine Kept.other ?_; assumption)

theorem execMeshIdle_kept {q : List Instr} {s : State} (hs : Kept q s) :
    OutKept q (execMeshIdle s) := by
  delta execMeshIdle
  lift_lets -underBinder
  repeat' first
    | with_reducible assumption
    | (extract_lets +onlyGivenNames -underBinder x; clear_value x)
    | with_reducible apply OutKept.next
    | with_reducible refine kept_ite ?_ ?_
    | with_reducible (refine Kept.other ?_; assumption)

theorem execDroopDetect_kept {q : List Instr} {sensed : BitVec 10} {s : State} (hs : Kept q s) :
    OutKept q (execDroopDetect sensed s) := by
  delta execDroopDetect
  lift_lets -underBinder
  repeat' first
    | with_reducible assumption
    | (extract_lets +onlyGivenNames -underBinder x; refine (fun hx : Kept q x => ?_) ?_; clear_value x; rotate_left; subst x)
    | (extract_lets +onlyGivenNames -underBinder x; clear_value x)
    | with_reducible apply State.perf_kept
    | with_reducible apply State.hwAdd_kept
    | with_reducible apply OutKept.next
    | with_reducible refine kept_ite ?_ ?_
    | with_reducible (refine Kept.other ?_; assumption)

theorem execDroopEnd_kept {q : List Instr} {s : State} (hs : Kept q s) :
    OutKept q (execDroopEnd s) := by
  delta execDroopEnd
  lift_lets -underBinder
  repeat' first
    | (extract_lets +onlyGivenNames -underBinder x; clear_value x)
    | with_reducible apply OutKept.next
    | with_reducible (refine Kept.other ?_; assumption)

theorem State.ldoTick_kept {q : List Instr} {s : State} {v : Nat} (hs : Kept q s) :
    Kept q (State.ldoTick s v) := by
  delta State.ldoTick
  lift_lets -underBinder
  repeat' first
    | (extract_lets +onlyGivenNames -underBinder x; clear_value x)
    | split
    | with_reducible (refine Kept.other ?_; assumption)

theorem execLdoFault_kept {q : List Instr} {sensed : BitVec 10} {overcurrent : Bool} {s : State} (hs : Kept q s) :
    OutKept q (execLdoFault sensed overcurrent s) := by
  delta execLdoFault
  lift_lets -underBinder
  repeat' first
    | with_reducible assumption
    | (extract_lets +onlyGivenNames -underBinder x; refine (fun hx : Kept q x => ?_) ?_; clear_value x; rotate_left; subst x)
    | (extract_lets +onlyGivenNames -underBinder x; clear_value x)
    | with_reducible apply State.settle_kept
    | with_reducible apply State.fence_kept
    | with_reducible apply State.loseLogic_kept
    | with_reducible apply State.ldo_kept
    | with_reducible apply State.record_kept
    | with_reducible apply OutKept.next
    | with_reducible refine kept_ite ?_ ?_

theorem State.softTick_kept {q : List Instr} {s : State} {m : Int} (hs : Kept q s) :
    Kept q (State.softTick s m) := by
  delta State.softTick
  lift_lets -underBinder
  repeat' first
    | with_reducible assumption
    | (extract_lets +onlyGivenNames -underBinder x; refine (fun hx : Kept q x => ?_) ?_; clear_value x; rotate_left; subst x)
    | (extract_lets +onlyGivenNames -underBinder x; clear_value x)
    | with_reducible apply State.hwSet_kept
    | with_reducible refine kept_ite ?_ ?_
    | split
    | with_reducible (refine Kept.other ?_; assumption)

theorem State.hardTick_kept {q : List Instr} {s : State} {m : Int} (hs : Kept q s) :
    Kept q (State.hardTick s m) := by
  delta State.hardTick
  lift_lets -underBinder
  repeat' first
    | with_reducible assumption
    | (extract_lets +onlyGivenNames -underBinder x; refine (fun hx : Kept q x => ?_) ?_; clear_value x; rotate_left; subst x)
    | (extract_lets +onlyGivenNames -underBinder x; clear_value x)
    | with_reducible apply State.hwSet_kept
    | with_reducible apply State.put_kept
    | with_reducible refine kept_ite ?_ ?_
    | with_reducible (refine Kept.other ?_; assumption)

theorem State.tripTick_kept {q : List Instr} {s : State} {m : Int} (hs : Kept q s) :
    Kept q (State.tripTick s m) := by
  delta State.tripTick
  lift_lets -underBinder
  repeat' first
    | (extract_lets +onlyGivenNames -underBinder x; refine (fun hx : Kept q x => ?_) ?_; clear_value x; rotate_left; subst x)
    | (extract_lets +onlyGivenNames -underBinder x; clear_value x)
    | (extract_lets +onlyGivenNames -underBinder x; subst x)
    | with_reducible apply State.fence_kept
    | with_reducible apply State.record_kept
    | with_reducible refine kept_ite ?_ ?_
    | split
    | with_reducible (refine Kept.other ?_; assumption)

theorem State.diffTick_kept {q : List Instr} {s : State} {a b : Int} (hs : Kept q s) :
    Kept q (State.diffTick s a b) := by
  delta State.diffTick
  lift_lets -underBinder
  repeat' first
    | with_reducible assumption
    | (extract_lets +onlyGivenNames -underBinder x; refine (fun hx : Kept q x => ?_) ?_; clear_value x; rotate_left; subst x)
    | (extract_lets +onlyGivenNames -underBinder x; clear_value x)
    | with_reducible apply State.record_kept
    | with_reducible apply State.hwSet_kept
    | with_reducible refine kept_ite ?_ ?_
    | with_reducible (refine Kept.other ?_; assumption)

theorem execThermalSample_kept {q : List Instr} {t0 t1 : BitVec 12} {s : State} (hs : Kept q s) :
    OutKept q (execThermalSample t0 t1 s) := by
  delta execThermalSample
  lift_lets -underBinder
  repeat' first
    | with_reducible assumption
    | (extract_lets +onlyGivenNames -underBinder x; refine (fun hx : Kept q x => ?_) ?_; clear_value x; rotate_left; subst x)
    | (extract_lets +onlyGivenNames -underBinder x; clear_value x)
    | with_reducible apply State.diffTick_kept
    | with_reducible apply State.tripTick_kept
    | with_reducible apply State.hardTick_kept
    | with_reducible apply State.softTick_kept
    | with_reducible apply State.settle_kept
    | with_reducible apply State.sample_kept
    | with_reducible apply State.put_kept
    | with_reducible apply OutKept.next
    | with_reducible refine kept_ite ?_ ?_

theorem execComparatorMatch_kept {q : List Instr} {i : BitVec 2} {s : State} (hs : Kept q s) :
    OutKept q (execComparatorMatch i s) := by
  delta execComparatorMatch
  lift_lets -underBinder
  repeat' first
    | with_reducible assumption
    | (extract_lets +onlyGivenNames -underBinder x; refine (fun hx : Kept q x => ?_) ?_; clear_value x; rotate_left; subst x)
    | (extract_lets +onlyGivenNames -underBinder x; clear_value x)
    | with_reducible apply State.refresh_kept
    | with_reducible apply State.wakeBy_kept
    | with_reducible apply State.hwAdd_kept
    | with_reducible apply State.hwSet_kept
    | with_reducible apply State.put_kept
    | with_reducible apply OutKept.next
    | with_reducible refine kept_ite ?_ ?_
    | with_reducible (refine Kept.other ?_; assumption)

theorem execCmpValWrite_kept {q : List Instr} {i : BitVec 2} {w : RegWr} {s : State} (hs : Kept q s) :
    OutKept q (execCmpValWrite i w s) := by
  delta execCmpValWrite
  repeat' first
    | with_reducible assumption
    | with_reducible apply State.settle_kept
    | with_reducible apply State.regCommand_kept
    | with_reducible apply OutKept.next

theorem execEpochEnd_kept {q : List Instr} {s : State} (hs : Kept q s) :
    OutKept q (execEpochEnd s) := by
  delta execEpochEnd
  lift_lets -underBinder
  repeat' first
    | with_reducible assumption
    | (extract_lets +onlyGivenNames -underBinder x; refine (fun hx : Kept q x => ?_) ?_; clear_value x; rotate_left; subst x)
    | (extract_lets +onlyGivenNames -underBinder x; clear_value x)
    | with_reducible apply State.refresh_kept
    | with_reducible apply State.hwSet_kept
    | with_reducible apply State.put_kept
    | with_reducible apply OutKept.next
    | with_reducible refine kept_ite ?_ ?_
    | with_reducible (refine Kept.other ?_; assumption)

theorem execSpnEpochWrite_kept {q : List Instr} {w : RegWr} {s : State} (hs : Kept q s) :
    OutKept q (execSpnEpochWrite w s) := by
  delta execSpnEpochWrite
  repeat' first
    | with_reducible assumption
    | with_reducible apply State.settle_kept
    | with_reducible apply State.regCommand_kept
    | with_reducible apply OutKept.next

theorem State.timersTick_kept {q : List Instr} {s : State} (hs : Kept q s) :
    Kept q (State.timersTick s) := by
  delta State.timersTick
  lift_lets -underBinder
  repeat' first
    | with_reducible assumption
    | (extract_lets +onlyGivenNames -underBinder x; refine (fun hx : Kept q x => ?_) ?_; clear_value x; rotate_left; subst x)
    | (extract_lets +onlyGivenNames -underBinder x; have hx : Queue := x; clear hx; subst x)
    | (extract_lets +onlyGivenNames -underBinder x; clear_value x)
    | with_reducible apply State.linkTick_kept
    | with_reducible apply State.put_kept
    | with_reducible apply kept_foldl
    | split
    | with_reducible (refine Kept.queue ?_; assumption)

theorem State.energyTick_kept {q : List Instr} {s : State} {e : Nat} (hs : Kept q s) :
    Kept q (State.energyTick s e) := by
  delta State.energyTick
  lift_lets -underBinder
  repeat' first
    | with_reducible assumption
    | (extract_lets +onlyGivenNames -underBinder x; refine (fun hx : Kept q x => ?_) ?_; clear_value x; rotate_left; subst x)
    | (extract_lets +onlyGivenNames -underBinder x; clear_value x)
    | with_reducible apply State.put_kept
    | with_reducible (refine Kept.other ?_; assumption)

theorem State.tickSamples_kept {q : List Instr} {s : State} (hs : Kept q s) :
    Kept q (State.tickSamples s) := by
  delta State.tickSamples
  lift_lets -underBinder
  repeat' first
    | with_reducible assumption
    | (extract_lets +onlyGivenNames -underBinder x; clear_value x)
    | with_reducible apply State.samples_kept

theorem execAonTick_kept {q : List Instr} {e : TickEnergy} {s : State} (hs : Kept q s) :
    OutKept q (execAonTick e s) := by
  delta execAonTick
  lift_lets -underBinder
  repeat' first
    | with_reducible assumption
    | (extract_lets +onlyGivenNames -underBinder x; refine (fun hx : Kept q x => ?_) ?_; clear_value x; rotate_left; subst x)
    | (extract_lets +onlyGivenNames -underBinder x; clear_value x)
    | with_reducible apply State.tickSamples_kept
    | with_reducible apply State.energyTick_kept
    | with_reducible apply State.timersTick_kept
    | with_reducible apply State.ldoTick_kept
    | with_reducible apply State.admission_kept
    | with_reducible apply State.sumResv_kept
    | with_reducible apply State.ringTick_kept
    | with_reducible apply State.noteEnergy_kept
    | with_reducible apply State.bucketTick_kept
    | with_reducible apply State.rampTick_kept
    | with_reducible apply State.oppStart_kept
    | with_reducible apply State.settle_kept
    | with_reducible apply State.put_kept
    | with_reducible apply forN_kept
    | with_reducible apply OutKept.next
    | with_reducible refine kept_ite ?_ ?_
    | with_reducible intro _
    | with_reducible (refine Kept.other ?_; assumption)

/-! ### RegRows -/

theorem State.regRow_kept {q : List Instr} {s : State} {w : RegWr} {off : Nat} (hs : Kept q s) :
    OutKept q (State.regRow s w off) := by
  delta State.regRow
  repeat' first
    | with_reducible assumption
    | with_reducible apply State.settle_kept
    | with_reducible apply State.regCommand_kept
    | with_reducible apply OutKept.next

theorem execFltNrst_kept {q : List Instr} {w : RegWr} {s : State} (hs : Kept q s) :
    OutKept q (execFltNrst w s) := by
  delta execFltNrst
  repeat' first
    | with_reducible assumption
    | with_reducible apply State.regRow_kept

theorem execFltRxpop_kept {q : List Instr} {w : RegWr} {s : State} (hs : Kept q s) :
    OutKept q (execFltRxpop w s) := by
  delta execFltRxpop
  repeat' first
    | with_reducible assumption
    | with_reducible apply State.regRow_kept

theorem execSecKeyWrite_kept {q : List Instr} {c : CtxId} {j : BitVec 2} {w : RegWr} {s : State} (hs : Kept q s) :
    OutKept q (execSecKeyWrite c j w s) := by
  delta execSecKeyWrite
  repeat' first
    | with_reducible assumption
    | with_reducible apply State.regRow_kept

theorem execSecKeyclr_kept {q : List Instr} {w : RegWr} {s : State} (hs : Kept q s) :
    OutKept q (execSecKeyclr w s) := by
  delta execSecKeyclr
  repeat' first
    | with_reducible assumption
    | with_reducible apply State.regRow_kept

theorem execSecExtgo_kept {q : List Instr} {w : RegWr} {s : State} (hs : Kept q s) :
    OutKept q (execSecExtgo w s) := by
  delta execSecExtgo
  repeat' first
    | with_reducible assumption
    | with_reducible apply State.regRow_kept

theorem execExtensionDone_kept {q : List Instr} {s : State} (hs : Kept q s) :
    OutKept q (execExtensionDone s) := by
  delta execExtensionDone
  repeat' first
    | with_reducible assumption
    | with_reducible apply State.extend_kept
    | with_reducible apply State.put_kept
    | with_reducible apply OutKept.next
    | with_reducible refine kept_ite ?_ ?_

theorem execSecDbgctlWrite_kept {q : List Instr} {w : RegWr} {s : State} (hs : Kept q s) :
    OutKept q (execSecDbgctlWrite w s) := by
  delta execSecDbgctlWrite
  repeat' first
    | with_reducible assumption
    | with_reducible apply State.regRow_kept

theorem execSecFckeyWrite_kept {q : List Instr} {j : BitVec 2} {w : RegWr} {s : State} (hs : Kept q s) :
    OutKept q (execSecFckeyWrite j w s) := by
  delta execSecFckeyWrite
  repeat' first
    | with_reducible assumption
    | with_reducible apply State.regRow_kept

theorem execSecFcclr_kept {q : List Instr} {w : RegWr} {s : State} (hs : Kept q s) :
    OutKept q (execSecFcclr w s) := by
  delta execSecFcclr
  repeat' first
    | with_reducible assumption
    | with_reducible apply State.regRow_kept

theorem execObsSwtrig_kept {q : List Instr} {w : RegWr} {s : State} (hs : Kept q s) :
    OutKept q (execObsSwtrig w s) := by
  delta execObsSwtrig
  repeat' first
    | with_reducible assumption
    | with_reducible apply State.regRow_kept

theorem execMonitorClr_kept {q : List Instr} {i : BitVec 3} {w : RegWr} {s : State} (hs : Kept q s) :
    OutKept q (execMonitorClr i w s) := by
  delta execMonitorClr
  repeat' first
    | with_reducible assumption
    | with_reducible apply State.regRow_kept

theorem execRcRead_kept {q : List Instr} {r : RegRd} {off : BitVec 20} {s : State} (hs : Kept q s) :
    OutKept q (execRcRead r off s) := OutKept.next (State.settle_kept (State.readCommand_kept hs))

theorem execRegisterWrite_kept {q : List Instr} {off : BitVec 20} {w : RegWr} {s : State} (hs : Kept q s) :
    OutKept q (execRegisterWrite off w s) := by
  delta execRegisterWrite
  repeat' first
    | with_reducible assumption
    | with_reducible apply State.regRow_kept

end Sys2Proof.Machine
end

