-- ==== Sys2Proof/Laws/KeptExec.lean ====
section
/-! SUPPORT. Every command keeps `Kept`: one case per constructor, each its meaning's own lemma. -/

set_option Elab.async false

namespace Sys2Proof.Machine

theorem exec_kept {q : List Instr} {s : State} (h : Kept q s) : ∀ c, OutKept q (exec c s)
  | .porstNAssert => execPorstNAssert_kept h
  | .porstNRelease _ => execPorstNRelease_kept h
  | .fuseImage _ => execFuseImage_kept h
  | .fuseTimeout => execFuseTimeout_kept h
  | .pllRefLoss => execPllRefLoss_kept h
  | .routerReady => execRouterReady_kept h
  | .creditReturn _ _ => execCreditReturn_kept h
  | .wakeIn _ => execWakeIn_kept h
  | .coord _ => execCoord_kept h
  | .coordTimeout => execCoordTimeout_kept h
  | .enum _ => execEnum_kept h
  | .memReady => execMemReady_kept h
  | .idBootGo _ => execIdBootGo_kept h
  | .measurementDone => execMeasurementDone_kept h
  | .idDescSelWrite _ => execIdDescSelWrite_kept h
  | .nodeRstN _ => execNodeRstN_kept h
  | .nodeDomainReset => execNodeDomainReset_kept h
  | .nodeResetRelease => execNodeResetRelease_kept h
  | .pwrWarn _ => execPwrWarn_kept h
  | .floorExit => execFloorExit_kept h
  | .testModeRise => execTestModeRise_kept h
  | .testAccess _ => execTestAccess_kept h
  | .mbistRun _ _ => execMbistRun_kept h
  | .add _ => execAdd_kept h
  | .sub _ => execSub_kept h
  | .adc _ => execAdc_kept h
  | .sbc _ => execSbc_kept h
  | .and _ => execAnd_kept h
  | .or _ => execOr_kept h
  | .xor _ => execXor_kept h
  | .andn _ => execAndn_kept h
  | .shl _ => execShl_kept h
  | .shr _ => execShr_kept h
  | .sar _ => execSar_kept h
  | .ror _ => execRor_kept h
  | .slt _ => execSlt_kept h
  | .sltu _ => execSltu_kept h
  | .min _ => execMin_kept h
  | .max _ => execMax_kept h
  | .minu _ => execMinu_kept h
  | .maxu _ => execMaxu_kept h
  | .clz _ => execClz_kept h
  | .popc _ => execPopc_kept h
  | .sel _ => execSel_kept h
  | .mul _ => execMul_kept h
  | .mulu _ => execMulu_kept h
  | .div _ => execDiv_kept h
  | .divu _ => execDivu_kept h
  | .rem _ => execRem_kept h
  | .remu _ => execRemu_kept h
  | .addi _ _ => execAddi_kept h
  | .subi _ => execSubi_kept h
  | .andi _ => execAndi_kept h
  | .ori _ => execOri_kept h
  | .xori _ => execXori_kept h
  | .shli _ => execShli_kept h
  | .shri _ => execShri_kept h
  | .sari _ => execSari_kept h
  | .rori _ => execRori_kept h
  | .slti _ => execSlti_kept h
  | .sltiu _ => execSltiu_kept h
  | .movh _ => execMovh_kept h
  | .liw _ => execLiw_kept h
  | .liwh _ => execLiwh_kept h
  | .lb _ => execLb_kept h
  | .lbu _ => execLbu_kept h
  | .lh _ => execLh_kept h
  | .lhu _ => execLhu_kept h
  | .lw _ => execLw_kept h
  | .lwu _ => execLwu_kept h
  | .ld _ => execLd_kept h
  | .sb _ => execSb_kept h
  | .sh _ => execSh_kept h
  | .sw _ => execSw_kept h
  | .st _ => execSt_kept h
  | .aadd _ => execAadd_kept h
  | .acas _ => execAcas_kept h
  | .b _ => execB_kept h
  | .j _ => execJ_kept h
  | .call _ => execCall_kept h
  | .callr _ => execCallr_kept h
  | .jr _ => execJr_kept h
  | .ret _ => execRet_kept h
  | .pset _ => execPset_kept h
  | .sysc _ => execSysc_kept h
  | .nop _ => execNop_kept h
  | .eret _ => execEret_kept h
  | .cswitch _ => execCswitch_kept h
  | .wfe _ => execWfe_kept h
  | .wfeWake => execWfeWake_kept h
  | .brk _ => execBrk_kept h
  | .isync _ => execIsync_kept h
  | .fence _ => execFence_kept h
  | .movs _ => execMovs_kept h
  | .movc _ => execMovc_kept h
  | .rdepthWrite _ => execRdepthWrite_kept h
  | .ctxctlWrite _ => execCtxctlWrite_kept h
  | .ctxstart _ => execCtxstart_kept h
  | .tcfgWrite _ => execTcfgWrite_kept h
  | .save _ => execSave_kept h
  | .discard _ => execDiscard_kept h
  | .handover _ => execHandover_kept h
  | .spill _ => execSpill_kept h
  | .fill _ => execFill_kept h
  | .erase _ => execErase_kept h
  | .chestOperationDone => execChestOperationDone_kept h
  | .send _ => execSend_kept h
  | .recv _ => execRecv_kept h
  | .wspill _ => execWspill_kept h
  | .wfill _ => execWfill_kept h
  | .rspill _ => execRspill_kept h
  | .rfill _ => execRfill_kept h
  | .lmclaim _ => execLmclaim_kept h
  | .lmclaima _ => execLmclaima_kept h
  | .lmrel _ => execLmrel_kept h
  | .dinvl _ => execDinvl_kept h
  | .iinvl _ => execIinvl_kept h
  | .dinva _ => execDinva_kept h
  | .iinva _ => execIinva_kept h
  | .mbput _ => execMbput_kept h
  | .asyncEntry => execAsyncEntry_kept h
  | .preempt => execPreempt_kept h
  | .vadd _ => execVadd_kept h
  | .vsub _ => execVsub_kept h
  | .vmul _ => execVmul_kept h
  | .vmin _ => execVmin_kept h
  | .vmax _ => execVmax_kept h
  | .vand _ => execVand_kept h
  | .vor _ => execVor_kept h
  | .vxor _ => execVxor_kept h
  | .vshl _ => execVshl_kept h
  | .vshr _ => execVshr_kept h
  | .vsar _ => execVsar_kept h
  | .vcmpeq _ => execVcmpeq_kept h
  | .vcmplt _ => execVcmplt_kept h
  | .vcmple _ => execVcmple_kept h
  | .vadds _ => execVadds_kept h
  | .vfma _ => execVfma_kept h
  | .vfnma _ => execVfnma_kept h
  | .vsel _ => execVsel_kept h
  | .vmov _ => execVmov_kept h
  | .vneg _ => execVneg_kept h
  | .vabs _ => execVabs_kept h
  | .vexp2 _ => execVexp2_kept h
  | .vrcp _ => execVrcp_kept h
  | .vredsum _ => execVredsum_kept h
  | .vredmax _ => execVredmax_kept h
  | .vredmin _ => execVredmin_kept h
  | .vbcast _ => execVbcast_kept h
  | .vget _ => execVget_kept h
  | .vld _ => execVld_kept h
  | .vst _ => execVst_kept h
  | .vgather _ => execVgather_kept h
  | .vscatter _ => execVscatter_kept h
  | .vcvt _ => execVcvt_kept h
  | .vwid6 _ => execVwid6_kept h
  | .vqmx _ => execVqmx_kept h
  | .vtrd _ => execVtrd_kept h
  | .vtwr _ => execVtwr_kept h
  | .tld _ => execTld_kept h
  | .tst _ => execTst_kept h
  | .tzero _ => execTzero_kept h
  | .mz _ => execMz_kept h
  | .mma _ => execMma_kept h
  | .mmas _ => execMmas_kept h
  | .mdrain _ => execMdrain_kept h
  | .mdrainCopy => execMdrainCopy_kept h
  | .mdrainComplete => execMdrainComplete_kept h
  | .msave _ => execMsave_kept h
  | .mrest _ => execMrest_kept h
  | .mhclr _ => execMhclr_kept h
  | .eccWriteback _ => execEccWriteback_kept h
  | .scrubBlock => execScrubBlock_kept h
  | .read _ => execRead_kept h
  | .readData _ => execReadData_kept h
  | .write _ => execWrite_kept h
  | .writeAck _ => execWriteAck_kept h
  | .atomic _ => execAtomic_kept h
  | .doorbell _ => execDoorbell_kept h
  | .doorbellApply => execDoorbellApply_kept h
  | .msg _ => execMsg_kept h
  | .msgDropped _ => execMsgDropped_kept h
  | .fenced _ => execFenced_kept h
  | .fenceCmd _ => execFenceCmd_kept h
  | .mcWrite _ => execMcWrite_kept h
  | .mcDrop _ => execMcDrop_kept h
  | .mcBranchHoldExpiry _ => execMcBranchHoldExpiry_kept h
  | .packetSend _ => execPacketSend_kept h
  | .ply _ => execPly_kept h
  | .plyTimeout _ _ => execPlyTimeout_kept h
  | .dupEntryExpiry => execDupEntryExpiry_kept h
  | .skein _ => execSkein_kept h
  | .budget _ => execBudget_kept h
  | .faultReport _ => execFaultReport_kept h
  | .faultReportSend => execFaultReportSend_kept h
  | .frameSend _ => execFrameSend_kept h
  | .dataFrame _ _ => execDataFrame_kept h
  | .nullFrame _ _ => execNullFrame_kept h
  | .capFrame _ _ => execCapFrame_kept h
  | .detachFrame _ _ => execDetachFrame_kept h
  | .alignWord _ _ => execAlignWord_kept h
  | .nakTimerExpiry _ => execNakTimerExpiry_kept h
  | .replayTimerExpiry _ => execReplayTimerExpiry_kept h
  | .rettoExpiry _ => execRettoExpiry_kept h
  | .errorWindowEnd _ => execErrorWindowEnd_kept h
  | .fecUncorrectable _ _ => execFecUncorrectable_kept h
  | .fecCorrected _ _ _ => execFecCorrected_kept h
  | .laneHealthLoss _ _ => execLaneHealthLoss_kept h
  | .linkResetDone _ => execLinkResetDone_kept h
  | .phyHealthy _ _ => execPhyHealthy_kept h
  | .alignTimeout _ => execAlignTimeout_kept h
  | .capTimeout _ => execCapTimeout_kept h
  | .retrainTimeout _ => execRetrainTimeout_kept h
  | .detachedDone _ => execDetachedDone_kept h
  | .widthChangeTimeout _ => execWidthChangeTimeout_kept h
  | .lnkCtlEn _ _ => execLnkCtlEn_kept h
  | .rearm _ _ => execRearm_kept h
  | .retire _ _ => execRetire_kept h
  | .descriptorFetch _ => execDescriptorFetch_kept h
  | .descNop _ => execDescNop_kept h
  | .descKernel _ => execDescKernel_kept h
  | .descDma _ => execDescDma_kept h
  | .descReshard _ => execDescReshard_kept h
  | .descMulticast _ => execDescMulticast_kept h
  | .descPly _ => execDescPly_kept h
  | .descBarrier _ => execDescBarrier_kept h
  | .descSkein _ => execDescSkein_kept h
  | .descriptorComplete _ => execDescriptorComplete_kept h
  | .watchdog _ => execWatchdog_kept h
  | .qeKdone _ _ => execQeKdone_kept h
  | .kslotTaken _ _ => execKslotTaken_kept h
  | .qeCqpop _ _ => execQeCqpop_kept h
  | .qeMboxAck _ => execQeMboxAck_kept h
  | .ringEnable _ _ => execRingEnable_kept h
  | .ringDisable _ _ => execRingDisable_kept h
  | .tailWrite _ _ => execTailWrite_kept h
  | .fifoStale _ => execFifoStale_kept h
  | .aonTick _ => execAonTick_kept h
  | .oppChangeDone => execOppChangeDone_kept h
  | .droopDetect _ => execDroopDetect_kept h
  | .droopEnd => execDroopEnd_kept h
  | .ldoFault _ _ => execLdoFault_kept h
  | .thermalSample _ _ => execThermalSample_kept h
  | .n2Entry => execN2Entry_kept h
  | .n2Wake => execN2Wake_kept h
  | .pscmdN3 _ => execPscmdN3_kept h
  | .pscmdN4 _ => execPscmdN4_kept h
  | .pscmdWithdraw _ => execPscmdWithdraw_kept h
  | .deepSleepEntry => execDeepSleepEntry_kept h
  | .spnWakeGo _ => execSpnWakeGo_kept h
  | .deepWake => execDeepWake_kept h
  | .meshIdle => execMeshIdle_kept h
  | .comparatorMatch _ => execComparatorMatch_kept h
  | .cmpValWrite _ _ => execCmpValWrite_kept h
  | .epochEnd => execEpochEnd_kept h
  | .spnEpochWrite _ => execSpnEpochWrite_kept h
  | .fltNrst _ => execFltNrst_kept h
  | .fltRxpop _ => execFltRxpop_kept h
  | .secKeyWrite _ _ _ => execSecKeyWrite_kept h
  | .secKeyclr _ => execSecKeyclr_kept h
  | .secExtgo _ => execSecExtgo_kept h
  | .extensionDone => execExtensionDone_kept h
  | .secDbgctlWrite _ => execSecDbgctlWrite_kept h
  | .secFckeyWrite _ _ => execSecFckeyWrite_kept h
  | .secFcclr _ => execSecFcclr_kept h
  | .obsSwtrig _ => execObsSwtrig_kept h
  | .monitorClr _ _ => execMonitorClr_kept h
  | .rcRead _ _ => execRcRead_kept h
  | .registerWrite _ _ => execRegisterWrite_kept h
  | .portDrainingEnd _ => execPortDrainingEnd_kept h

end Sys2Proof.Machine
end

