-- ==== Sys2Proof/Laws/Ops.lean ====
section
/-! SUPPORT. The shared operations, each said once: reading and writing local memory whose check bits are good, what
bringing XPEND up to date may change, and retirement after a counted transfer. -/

set_option Elab.async false

namespace Sys2Proof.Machine

variable {s t : State}

/-! ### Alike nodes -/

theorem like_cx (h : Like s t) : t.cx = s.cx := by
  unfold State.cx State.ctx
  rw [h.core]

theorem like_setCtx (h : Like s t) (c : CtxId) (x : Ctx) : Like (s.setCtx c x) (t.setCtx c x) := by
  have hc : (t.setCtx c x).core = (s.setCtx c x).core := by
    cases c <;> simp [State.setCtx, h.core]
  have hi : ∀ u : State, (u.setCtx c x).is F.trigBcast = u.is F.trigBcast := fun u => by simp [State.is]
  obtain ⟨l, hl, hn, hm⟩ := h.skein
  exact ⟨by simp [h.pending], by simp [h.pins], by simp [h.up], fun o ho hs => by simp [h.reg o ho hs],
    fun b => by rw [State.reg_setCtx, State.reg_setCtx, h.seq (by rw [← hi s]; exact b)], by rw [hi, hi, h.bcast], hc, by simp [h.mx],
    fun a => by simp [h.mem a], by simp [h.ecc], by simp [h.cache], by simpa using h.rtr,
    ⟨l, by simpa using hl, fun b => hn (by rw [← hi s]; exact b), hm⟩, by simp [h.links], by simp [h.qe],
    by simp [h.spn], by simp [h.fltRx]⟩

theorem like_setCx (h : Like s t) (x : Ctx) : Like (s.setCx x) (t.setCx x) := by
  unfold State.setCx
  rw [h.core]
  exact like_setCtx h _ x

theorem like_w (h : Like s t) (n : BitVec 5) (v : Word) : Like (s.w n v) (t.w n v) := by
  unfold State.w
  rw [like_cx h]
  exact like_setCx h _

/-- Retiring after events that only counters saw. -/
theorem retired_of_like {pc : Word} (h : Like s t) : Retired s (t.retire pc) pc := by
  have h2 := retired_retire (s := t) (pc := pc)
  unfold Retired at h2 ⊢
  rw [like_cx h] at h2
  exact (like_setCx h { s.cx.age with pc := pc, afterEret := false }).trans h2

/-! ### Local memory with good check bits (R189) -/

theorem eccCorrect_good {ws : List Nat} (h : ∀ w ∈ ws, s.eccOf w = .good) : s.eccCorrect ws = s := by
  have : s.eccSingles ws = [] := by
    unfold State.eccSingles
    rw [List.filter_eq_nil_iff]
    intro w hw
    simp [h w hw]
  unfold State.eccCorrect
  simp [this]

theorem eccFail_good {ws : List Nat} (h : ∀ w ∈ ws, s.eccOf w = .good) : s.eccFail ws = none := by
  unfold State.eccFail
  rw [List.find?_eq_none]
  intro w hw
  simp [h w hw]

theorem Like.eccOf (h : Like s t) (w : Nat) : t.eccOf w = s.eccOf w := by
  unfold State.eccOf
  rw [h.ecc]

theorem Like.read (h : Like s t) (a n : Nat) : t.mem.read a n = s.mem.read a n := by
  simp [Mem.read, h.mem]

/-- The ECC words of a transfer are among those of its access. -/
theorem block_words {off n w : Nat} {b : Nat × Nat} (hb : b ∈ blocks off n) (hw : w ∈ eccWords b.1 b.2) : w ∈ eccWords off n := by
  simp only [blocks, eccWords, List.mem_map, List.mem_range] at *
  obtain ⟨i, hi, rfl⟩ := hb
  obtain ⟨j, hj, rfl⟩ := hw
  dsimp only at hj ⊢
  refine ⟨max off (256 * (off / 256 + i)) / 8 + j - off / 8, ?_, ?_⟩
  · omega
  · omega

/-- A read whose ECC words are good gives the bytes; its transfers are counted. -/
theorem lmRead_good {req : Nat} {o : Option CtxId} {off n : Nat} (h : ∀ w ∈ eccWords off n, s.eccOf w = .good) :
    s.lmRead req o off n = (.ok (s.mem.read off n), s.lmGrant req (transfers off n)) := by
  have hl : Like s (s.lmGrant req (transfers off n)) := lmGrant_like
  have h' : ∀ w ∈ eccWords off n, (s.lmGrant req (transfers off n)).eccOf w = .good := fun w hw => (hl.eccOf w).trans (h w hw)
  have hb : ((blocks off n).filterMap fun b => (s.lmGrant req (transfers off n)).eccFail (eccWords b.1 b.2)) = [] := by
    rw [List.filterMap_eq_nil_iff]
    exact fun b hb => eccFail_good fun w hw => h' w (block_words hb hw)
  unfold State.lmRead
  dsimp only
  rw [hb]
  dsimp only
  rw [eccCorrect_good h', hl.read]

/-- A write of local memory whose partly covered words are good: the bytes are stored, the words get fresh check bits. -/
theorem lmWrite_good {req : Nat} {o : Option CtxId} {off : Nat} {d : List Byte} (hd : d ≠ [])
    (h : ∀ w ∈ eccWords off d.length, s.eccOf w = .good) :
    ∃ u, Like s u ∧ s.lmWrite req o off d = (none, { u with
      mem := u.mem.write off d, ecc := (eccWords off d.length).foldl (fun e w => tput .good e w .good) u.ecc }) := by
  have hl : Like s (s.lmGrant req (transfers off d.length)) := lmGrant_like
  refine ⟨_, hl, ?_⟩
  have h' : ∀ w ∈ eccPartial off d.length, (s.lmGrant req (transfers off d.length)).eccOf w = .good :=
    fun w hw => (hl.eccOf w).trans (h w (List.mem_filter.mp hw).1)
  have hb : ((blocks off d.length).filterMap fun b => (s.lmGrant req (transfers off d.length)).eccFail
      ((eccPartial off d.length).filter fun w => w / 32 = b.1 / 256)) = [] := by
    rw [List.filterMap_eq_nil_iff]
    exact fun b _ => eccFail_good fun w hw => h' w (List.mem_filter.mp hw).1
  have he : d.isEmpty = false := by cases d <;> simp_all
  unfold State.lmWrite
  dsimp only
  rw [he, hb]
  simp only [Bool.false_eq_true, if_false]
  rw [eccCorrect_good h']

/-- Polled check bits: the words of a list are good, the others keep their state. -/
theorem tget_fresh {l : List Nat} {e : Tab EccMark} {w : Nat} :
    tget EccMark.good (l.foldl (fun e w => tput .good e w .good) e) w = if w ∈ l then .good else tget .good e w := by
  induction l generalizing e with
  | nil => simp
  | cons a l ih =>
    simp only [List.foldl_cons, ih, List.mem_cons]
    by_cases h : w ∈ l
    · simp [h]
    · simp only [h, or_false, if_false]
      rw [tget_tput]

/-! ### Bringing XPEND up to date -/

theorem Polled.refl (s : State) : Polled s s :=
  ⟨rfl, rfl, rfl, fun _ _ => rfl, fun _ => rfl, rfl, rfl, rfl, rfl, rfl, rfl, ⟨rfl, rfl, rfl, rfl⟩, rfl, rfl, ⟨rfl, rfl⟩, rfl⟩

theorem Polled.trans {u : State} (h : Polled s t) (k : Polled t u) : Polled s u := by
  refine ⟨k.1.trans h.1, k.2.trans h.2, k.3.trans h.3, fun o n => (k.4 o n).trans (h.4 o n), fun c => (k.5 c).trans (h.5 c), ?_,
    k.7.trans h.7, k.8.trans h.8, k.9.trans h.9, k.10.trans h.10, k.11.trans h.11,
    ⟨k.12.1.trans h.12.1, k.12.2.1.trans h.12.2.1, k.12.2.2.1.trans h.12.2.2.1, k.12.2.2.2.trans h.12.2.2.2⟩,
    k.13.trans h.13, k.14.trans h.14, ⟨k.15.1.trans h.15.1, k.15.2.trans h.15.2⟩, k.16.trans h.16⟩
  have e1 := k.core
  have e2 := h.core
  rw [← e2, ← e1]

theorem wakeBy_polled {src : BitVec 4} : Polled s (s.wakeBy src) := by
  unfold State.wakeBy
  split
  · exact ⟨rfl, rfl, rfl, fun _ _ => rfl, fun _ => rfl, rfl, rfl, rfl, rfl, rfl, rfl, ⟨rfl, rfl, rfl, rfl⟩, rfl, rfl, ⟨rfl, rfl⟩, rfl⟩
  · exact Polled.refl s

theorem setPend_polled {c : CtxId} {m : BitVec 7} {l : Bool} : Polled s (s.setCtx c { s.ctx c with xpend := m, latch := l }) := by
  cases c <;>
  · refine ⟨rfl, rfl, rfl, fun _ _ => rfl, fun k => ?_, rfl, rfl, rfl, rfl, rfl, rfl, ⟨rfl, rfl, rfl, rfl⟩, rfl, rfl, ⟨rfl, rfl⟩, rfl⟩
    cases k <;> rfl

theorem wakeBy_ctx {src : BitVec 4} {c : CtxId} : (s.wakeBy src).ctx c = s.ctx c := by
  unfold State.wakeBy
  split <;> rfl

theorem updatePend_polled {c : CtxId} : Polled s (s.updatePend c) := by
  unfold State.updatePend
  dsimp only
  split
  · exact Polled.refl s
  · split
    · refine (wakeBy_polled (src := 3)).trans ?_
      have h := setPend_polled (s := s.wakeBy 3) (c := c) (m := s.pendMask c)
        (l := (s.ctx c).latch || (s.pendMask c &&& ~~~(s.ctx c).xpend) ≠ 0)
      rw [wakeBy_ctx] at h
      exact h
    · exact setPend_polled

theorem syncN1_polled : Polled s s.syncN1 := by
  unfold State.syncN1
  split
  · exact ⟨rfl, rfl, rfl, fun o h => State.reg_put_other h, fun _ => rfl, rfl, rfl, rfl, rfl, rfl, rfl, ⟨rfl, rfl, rfl, rfl⟩, rfl, rfl,
      ⟨rfl, rfl⟩, rfl⟩
  · exact Polled.refl s

/-- Bringing XPEND up to date changes XPEND, the latches, SPN_PSSTAT and a wake asked for, and nothing else. -/
theorem refresh_polled : Polled s s.refresh := updatePend_polled.trans (updatePend_polled.trans syncN1_polled)

end Sys2Proof.Machine
end

