-- ==== Sys2Proof/Tests/Slice0.lean ====
section
/-! SUPPORT. The model's own tests: WellFormed refuses what it should, one step of chosen commands on small states, words
written out from the spec's encodings, and for every statement with hypotheses a state and operands that meet them. -/

set_option Elab.async false

namespace Sys2Proof.Tests

open Sys2Proof Sys2Proof.Machine

/-! ### Small states -/

/-- The core issues, fetches and runs an instruction of encoding `e` (`Runs`, as a Bool). -/
def runsB (s : State) (e : Enc) : Bool :=
  s.canIssue && (!e.mx || s.core.chestOp.isNone) && ((s.begun e.len).fetchCause e).isNone && ((s.begun e.len).fetchMiss e).isNone && e.legal
    && decide (e.level ≤ (s.begun e.len).cx.pl.toNat) && (s.begun e.len).cx.cond e.cond

theorem runs_of_runsB {s : State} {e : Enc} (h : runsB s e = true) : Runs s e := by
  simp only [runsB, Bool.and_eq_true, decide_eq_true_eq, Bool.or_eq_true, Bool.not_eq_true', Option.isNone_iff_eq_none] at h
  obtain ⟨⟨⟨⟨⟨⟨h1, h2⟩, h3⟩, here⟩, h4⟩, h5⟩, h6⟩ := h
  exact ⟨⟨h1, fun k => h2.resolve_left (by simp [k])⟩, h3, here, h4, h5, h6⟩

/-- An instruction comes to its own effect in `s`. -/
def meets (s : State) (i : Instr) : Bool :=
  match i.enc with
  | some e => runsB s e
  | none => false

/-- So do all of these. -/
def allMeet (s : State) (l : List Instr) : Bool := l.all (meets s)

/-- The node after a command, or the node at reset where it stops. -/
def after (o : Host.Outcome State Fault Refusal) : State :=
  match o with
  | .next t => t
  | _ => State.reset

/-- A command answers a next state. -/
def goesOn (o : Host.Outcome State Fault Refusal) : Bool :=
  match o with
  | .next _ => true
  | _ => false

/-- A node in RUN: powered, memory ready, coordinates and die ID known on a die of 4 by 4, page 0 tagged
C0, C0 issuing at M from address 0. -/
def node : State :=
  (((((({ State.reset with pins := { Pins.reset with porstN := true }, up := { StartUp.reset with ready := true } }.put F.stage 4).put
    F.memReady 1).put F.coordValid 1).put F.dieValid 1).put F.dieW 4).put F.dieH 4).setReg
    0x50100 0x0303030303030300

/-- That node with another C0. -/
def nodeX (f : Ctx → Ctx) : State := node.setCtx .c0 (f Ctx.reset)

/-- Registers of C0: G2 and G3. -/
def regs (p q : Word) (x : Ctx) : Ctx := { x with g := [(2, p), (3, q)] }

/-- rd 1, rs1 2, rs2 3. -/
def fa : FrameA := { cond := 0, rd := 1, rs1 := 2, rs2 := 3, f := false }
def fa1 : FrameA := { fa with rs2 := 0 }
def fa0 : FrameA := { fa with rd := 0 }
def fz : FrameA := { cond := 0, rd := 0, rs1 := 0, rs2 := 0, f := false }
/-- rd 1, rs1 2. -/
def fb (imm : BitVec 12) : FrameB := { cond := 0, rd := 1, rs1 := 2, imm := imm }
def fd (off : BitVec 22) : FrameD := { cond := 0, off := off }
/-- A MOVC of register 1. -/
def fc (imm : BitVec 12) : FrameB := { cond := 0, rd := 1, rs1 := 0, imm := imm }

def someMsg (c : CtxId) : ImqEntry := { ctx := c, bytes := List.replicate 48 1 }

/-! ### The statements' hypotheses are met -/

theorem test_met_StepRunsFront : State.reset.pending = [] := by decide

def waiting : State := { node with pending := [.droopEnd], mem := [(5, 7)], ecc := [(0, .single)] }

theorem test_met_StepKeepsInv : waiting.Inv ∧ goesOn (step waiting) = true := by
  refine ⟨⟨⟨by decide +kernel, by decide +kernel, by decide +kernel⟩, by decide⟩, by decide +kernel⟩

theorem test_met_ExecKeepsQueue : goesOn (exec .droopEnd node) = true := by decide +kernel

theorem test_met_NotIssuedChangesNothing :
    State.reset.canIssue = false
    ∧ { node with core := { Core.reset with chestOp := some ⟨1, .c0, 0, 0, []⟩ } }.core.chestOp ≠ none
    ∧ ((Instr.mz ⟨0, 0, 0⟩).enc.map fun e => e.mx) = some true
    ∧ (node.onCore fun k => { k with spoilt := some .acc }).mayIssue = true ∧ (node.onCore fun k => { k with spoilt := some .acc }).canIssue = false := by
  decide +kernel

theorem test_met_BeforeItsEffect :
    (nodeX fun x => { x with pc := 2 }).canIssue = true
    ∧ (nodeX fun x => { x with pc := 2 }).begun.fetchCause (encF 1 0 fa) = some (cAlign, 2, 0)
    ∧ (nodeX fun x => { x with pc := 0x3FFEFC }).begun.fetchCause (encF 1 0 fa) = none
    ∧ (nodeX fun x => { x with pc := 0x3FFF00 }).begun.fetchCause (encF 1 0 fa) = some (cAccess, 0x3FFF00, 0)
    ∧ State.fetchCause { node with ecc := [(3, .bad)] }.begun (encF 1 0 fa) = some (cMemData, 24, 0)
    ∧ (encA 2 0 0 (fa.rd = 0) fa).legal = false
    ∧ (nodeX fun x => { x with pl := 0 }).begun.cx.pl.toNat < (encA 0x39 1 1 true fa).level
    ∧ node.begun.cx.cond 1 = false
    ∧ wordNamed (0x64 * 2 ^ 22) = false ∧ node.begun.fetchCause (unnamedEnc (0x64 * 2 ^ 22)) = none
    ∧ node.begun.fetchMiss (unnamedEnc (0x64 * 2 ^ 22)) = none ∧ wordNamed (fa.parcel 1 0) = true := by decide +kernel

/-- C0 at code of node 1 that is not in L1I: the parcel is asked for, and so is the next sector of its line. -/
theorem test_met_BeforeItsEffect_far :
    (let s := nodeX fun x => { x with pc := 0x10000000100 }; s.canIssue = true ∧ s.begun.fetchCause (encF 1 0 fa) = none
      ∧ s.begun.fetchMiss (encF 1 0 fa) = some (0x10000000100, 0) ∧ lineOf (0x10000000100 + 32) = lineOf 0x10000000100
      ∧ s.codeHere .c0 (0x10000000100 + 32) = false)
    ∧ (let s := (nodeX fun x => { x with pc := 0x10000000100 }).codeFill .c0 0x10000000100 (List.replicate 32 0); s.begun.fetchMiss (encF 1 0 fa) = none)
    ∧ cacheable (node.place node.cx.pc) = false ∧ cacheable (node.place (node.cx.pc + 4)) = false := by decide +kernel

theorem test_met_BegunFrame : node.mx.drain = none := by decide

theorem test_met_scalar : allMeet node [Instr.add fa, .adc fa, .sub fa, .sbc fa, .and fa, .or fa, .xor fa, .andn fa, .shl fa, .shr fa, .sar fa, .ror fa,
    .shli ⟨0, 1, 2, 63, true, 0⟩, .shri ⟨0, 1, 2, 0, true, 0⟩, .sari ⟨0, 1, 2, 1, true, 0⟩, .rori ⟨0, 1, 2, 1, true, 0⟩, .slt fa, .sltu fa,
    .min fa, .max fa, .minu fa, .maxu fa, .clz fa1, .popc fa1, .sel fa, .mul fa0, .mulu fa0, .div fa, .divu fa, .rem fa, .remu fa,
    .addi true (fb 0xFFF), .addi false (fb 1), .subi (fb 1), .andi (fb 1), .ori (fb 1), .xori (fb 1), .slti (fb 1), .sltiu (fb 1),
    .movh ⟨0, 3, 1, true, 1⟩, .liw ⟨0, 1, 0, 1⟩, .liwh ⟨0, 1, 0, 1⟩, .pset ⟨0, 0xC, 0⟩, .nop (.nop fz), .isync fa, .sysc ⟨0, 0, 0, 5⟩, .brk fa,
    .j (fd 1), .jr ⟨0, 0, 2, 4⟩, .b ⟨0, 0xB, 1⟩] = true := by decide +kernel

theorem test_met_MultiplyAndDivide : Ctx.reset.prods = [] := by decide

/-- A load or store of `n` bytes at `a` is local, by its clauses. -/
theorem local_at {s : State} {a : Word} {n off : Nat} (h : a.toNat % n = 0) (e : s.ecc = [])
    (p : s.place a = .lm off ∧ s.pageOk s.core.cur s.cx.pl.toNat (pageOf off) = true ∨ s.place a = .bench off ∧ s.cx.pl = 2) : LocalAt s a n off :=
  ⟨h, fun w _ => by simp [State.eccOf, e, tget], p⟩

def edge : State := nodeX (regs 0x3FFEF8 1)

theorem test_met_LocalLoads : allMeet edge [Instr.lb (fb 0), .lbu (fb 0), .lh (fb 0), .lhu (fb 0), .lw (fb 0), .lwu (fb 0), .ld (fb 0), .sb (fb 0),
    .sh (fb 0), .sw (fb 0), .st (fb 0)] = true ∧ LocalAt edge.begun (edge.begun.cx.rd 2 + (0 : BitVec 12).signExtend 64) 8 0x3FFEF8
    ∧ LocalAt edge.begun (edge.begun.cx.rd 2 + (8 : BitVec 12).signExtend 64) 8 0x3FFF00 :=
  ⟨by decide +kernel, local_at (by decide +kernel) (by decide +kernel) (.inl (by decide +kernel)),
    local_at (by decide +kernel) (by decide +kernel) (.inr (by decide +kernel))⟩

theorem test_met_LocalStores : meets edge (.st (fb 0)) = true ∧ LocalAt edge.begun (edge.begun.cx.rd 2 + (0 : BitVec 12).signExtend 64) 8 0x3FFEF8 :=
  ⟨by decide +kernel, local_at (by decide +kernel) (by decide +kernel) (.inl (by decide +kernel))⟩

theorem test_met_AccessRaises : (edge.begun.cx.rd 2 + (1 : BitVec 12).signExtend 64).toNat % 8 ≠ 0
    ∧ (edge.begun.cx.rd 2 + (0x108 : BitVec 12).signExtend 64).toNat % 8 = 0
    ∧ RefusedAt edge.begun (edge.begun.cx.rd 2 + (0x108 : BitVec 12).signExtend 64) :=
  ⟨by decide +kernel, by decide +kernel, .inl (by decide +kernel)⟩

def store3 : Posted := { tag := 3, addr := 0x10000000000, answer := none }

theorem test_met_AtomicsAndFence : meets edge (.aadd fa) = true ∧ meets edge (.acas fa) = true
    ∧ LocalAt edge.begun (edge.begun.cx.rd 2) 8 0x3FFEF8 ∧ meets node (.fence fa) = true ∧ node.begun.cx.posted = []
    ∧ meets (nodeX fun x => { x with posted := [{ store3 with answer := some 1 }] }) (.fence fa) = true
    ∧ meets (nodeX fun x => { x with posted := [store3] }) (.fence fa) = true :=
  ⟨by decide +kernel, by decide +kernel, local_at (by decide +kernel) (by decide +kernel) (.inl (by decide +kernel)), by decide +kernel,
    by decide +kernel, by decide +kernel, by decide +kernel⟩

theorem test_met_Jumps : node.canIssue = true ∧ (⟨0, 0xC, 1⟩ : FrameC).cc.toNat ≥ 0xC
    ∧ ((nodeX (regs 8 0)).begun.cx.rd 2 + (4 : BitVec 12).signExtend 64).toNat % 4 = 0
    ∧ ((nodeX (regs 8 0)).begun.cx.rd 2 + (2 : BitVec 12).signExtend 64).toNat % 4 ≠ 0 := by decide +kernel

def deep : List Word := List.replicate 16 8

theorem test_met_CallReturn :
    (let s := nodeX fun x => { x with wvalid := 5 };
      meets s (.call (fd 1)) = true ∧ s.begun.cx.fast = false ∧ s.begun.cx.spare = false ∧ s.begun.cx.wvalid.getLsbD ((s.begun.cx.cwp.toNat + 2) % 8) = true)
    ∧ (let s := nodeX fun x => { x with reel := deep, reelTrap := true };
      meets s (.call (fd 1)) = true ∧ s.begun.cx.reel.length = 16 ∧ s.begun.cx.wvalid.getLsbD ((s.begun.cx.cwp.toNat + 2) % 8) = false)
    ∧ (let s := nodeX fun x => { x with reel := deep, cwp := 7, wvalid := 0x80 };
      meets s (.call (fd 1)) = true ∧ meets s (.callr ⟨0, 0, 2, 4⟩) = true ∧ (s.begun.cx.reel.length = 16 → s.begun.cx.reelTrap = false)
      ∧ s.begun.cx.wvalid.getLsbD ((s.begun.cx.cwp.toNat + 2) % 8) = false)
    ∧ (meets node (.ret (fd 0)) = true ∧ node.begun.cx.reel = [])
    ∧ (let s := nodeX fun x => { x with reel := [8] };
      meets s (.ret (fd 0)) = true ∧ s.begun.cx.reel ≠ [] ∧ s.begun.cx.wvalid.getLsbD ((s.begun.cx.cwp.toNat + 7) % 8) = false)
    ∧ (let s := nodeX fun x => { x with reel := [4, 8], wvalid := 0x81 };
      meets s (.ret (fd 0)) = true ∧ s.begun.cx.reel = [4] ++ [8] ∧ s.begun.cx.wvalid.getLsbD ((s.begun.cx.cwp.toNat + 7) % 8) = true) := by decide +kernel

def stack (x : Ctx) : Ctx := { x with xspM := 0x1000, xsbaseM := 0xFC0, xslimitM := 0x1000, xspS := 0x2000, xsbaseS := 0, xslimitS := 0x2000 }

theorem test_met_NormalEntry :
    (let s := nodeX stack; let x := (s.ctx .c0).flush;
      x.spare = false ∧ (s.setCtx .c0 x).frameCheck .c0 (x.xsp 2 - 64) 2 = none ∧ x.wvalid.getLsbD ((x.cwp.toNat + 2) % 8) = false)
    ∧ (let s := (nodeX fun x => { stack x with wvalid := 5, pl := 0 }).setReg 0x50100 0; let x := (s.ctx .c0).flush;
      x.spare = false ∧ (s.setCtx .c0 x).frameCheck .c0 (x.xsp 1 - 64) 1 = none ∧ x.wvalid.getLsbD ((x.cwp.toNat + 2) % 8) = true) := by decide +kernel

/-- An entry while SPARE = 1, and each frame R142 refuses. -/
theorem test_met_NormalEntry_bench :
    ((nodeX fun x => { x with spare := true }).ctx .c0).flush.spare = true
    ∧ (∀ e ∈ [((0x1001 : Word), (0 : Word), 0), (0x2000, 0, 1), (0x400040, 0, 2), (0x4040, 0, 3)],
      let s := nodeX fun x => { x with pl := 0, xspS := e.1, xsbaseS := 0, xslimitS := if e.2.2 = 1 then 0x1000 else 0x500000 }
      let x := (s.ctx .c0).flush
      x.spare = false ∧ (s.setCtx .c0 x).frameCheck .c0 (x.xsp 1 - 64) 1 = some e.2.2
      ∧ ((x.xsp 1).toNat % 64 ≠ 0 ↔ e.2.2 = 0) ∧ (e.2.2 = 2 → s.local? (x.xsp 1 - 64) 64 = none) ∧ (e.2.2 = 3 → s.local? (x.xsp 1 - 64) 64 = some 0x4000)) := by
  decide +kernel

theorem test_met_FastEntry : cWindowOvf ≤ cReelUnf ∧ ((nodeX fun x => { x with zbusy := true }).ctx .c0).flush.zbusy = true
    ∧ (node.ctx .c0).flush.zbusy = false := by decide +kernel

theorem test_met_BusyBenchCheckstops : (node.onCore fun k => { k with benchBusy := true }).core.benchBusy = true ∧ node.isFenced = false
    ∧ node.core.benchBusy = false := by decide +kernel

/-- C0 in the Bench, one entry deep. -/
def benched : State := (nodeX fun x => { x with fast := true, xnest := 1 }).onCore fun k => { k with benchBusy := true, benchDepth := 1 }

theorem test_met_ExceptionReturn_bench :
    (let u := benched.begun;
      meets benched (.eret fa) = true ∧ u.cx.fast = true ∧ u.cx.pl = 2 ∧ u.core.benchBusy = true ∧ u.core.benchCtx = .c0 ∧ u.cx.xnest = u.core.benchDepth
      ∧ (∀ w ∈ eccWords benchBase 256, u.eccOf w = .good))
    ∧ (State.lmRead { benched with ecc := [(benchBase / 8, .bad)] }.begun reqCore (some .c0) benchBase 256).1.isOk = false := by decide +kernel

theorem test_met_ExceptionReturn :
    (let s := nodeX fun x => { x with fast := true, pl := 1, zst := 0x10002 };
      meets s (.eret fa) = true ∧ s.begun.core.benchBusy = false ∧ bits s.begun.cx.zst.toNat 0 2 > s.begun.cx.pl.toNat)
    ∧ (let s := nodeX fun x => { x with fast := true, pl := 1, zst := 0x10001 };
      meets s (.eret fa) = true ∧ bits s.begun.cx.zst.toNat 0 2 ≤ s.begun.cx.pl.toNat ∧ bits s.begun.cx.zst.toNat 3 1 = CtxId.num .c0)
    ∧ (meets node (.eret fa) = true ∧ node.begun.cx.xnest = 0)
    ∧ (let s := nodeX fun x => { stack x with xnest := 1, xspM := 0xFC1 }; meets s (.eret fa) = true ∧ (s.begun.cx.xsp 2).toNat % 64 ≠ 0)
    ∧ (let s := nodeX fun x => { stack x with xnest := 1 }; meets s (.eret fa) = true ∧ (s.begun.cx.xslimit 2).toNat < (s.begun.cx.xsp 2).toNat + 64)
    ∧ (let s := nodeX fun x => { stack x with xnest := 1, xspM := 0xFC0 };
      meets s (.eret fa) = true ∧ s.begun.local? (s.begun.cx.xsp 2) 64 = some 0xFC0 ∧ s.begun.pageOk .c0 2 (pageOf 0xFC0) = true
      ∧ (s.begun.cx.xsp 2).toNat + 64 ≤ (s.begun.cx.xslimit 2).toNat
      ∧ bits (leNat (s.begun.mem.read 0xFC8 8)) 0 2 ≤ 2 ∧ bits (leNat (s.begun.mem.read 0xFC8 8)) 3 1 = 0 ∧ s.begun.cx.wvalid.getLsbD 0 = true)
    ∧ (let s := nodeX fun x => { x with xnest := 1, xspM := 0x3FFF00, xslimitM := 0x400000 }; s.begun.local? (s.begun.cx.xsp 2) 64 = none)
    ∧ (let s := nodeX fun x => { x with pl := 1, xnest := 1, xspS := 0x4000, xslimitS := 0x8000 };
      meets s (.eret fa) = true ∧ s.begun.local? (s.begun.cx.xsp 1) 64 = some 0x4000 ∧ s.begun.pageOk .c0 1 (pageOf 0x4000) = false)
    ∧ (let s := nodeX fun x => { stack x with xnest := 1, xspM := 0xFC0 };
      (State.lmRead { s with ecc := [(0xFC8 / 8, .bad)] }.begun reqCore (some .c0) 0xFC0 64).1.isOk = false
      ∧ 2 < bits (leNat (Mem.read { s with mem := [(0xFC8, 3)] }.begun.mem 0xFC8 8)) 0 2
      ∧ (let u := State.begun { s with mem := [(0xFC8, 0x10)] }; bits (leNat (u.mem.read 0xFC8 8)) 0 2 ≤ 2 ∧ bits (leNat (u.mem.read 0xFC8 8)) 3 1 = 0
        ∧ u.cx.spare = false ∧ u.cx.wvalid.getLsbD (bits (leNat (u.mem.read 0xFC8 8)) 4 3 % 8) = false)) := by decide +kernel

def two : State := node.onCore fun k => { k with run := 3 }

theorem test_met_ContextSwitch :
    meets (nodeX fun x => { x with fast := true }) (.cswitch fa) = true ∧ meets (nodeX fun x => { x with spare := true }) (.cswitch fa) = true
    ∧ (meets node (.cswitch fa) = true ∧ node.begun.core.run.getLsbD 1 = false)
    ∧ (meets two (.cswitch fa) = true ∧ two.begun.core.run.getLsbD 1 = true ∧ (two.begun.ctx .c1).wait = .run)
    ∧ (meets (two.setCtx .c1 { Ctx.reset with wait := .wfe }) (.cswitch fa) = true ∧ meets (two.setCtx .c1 { Ctx.reset with wait := .wfe, latch := true }) (.cswitch fa) = true)
    ∧ (meets (nodeX fun x => { x with latch := true }) (.wfe fa) = true ∧ meets node (.wfe fa) = true ∧ node.begun.cx.latch = false)
    ∧ (let s := nodeX fun x => { x with latch := true, wait := .wfe };
      s.inRun = true ∧ s.nodeRuns = true ∧ s.core.run.getLsbD s.core.cur.num = true ∧ s.cx.wait = .wfe ∧ s.cx.latch = true) := by decide +kernel

theorem test_met_SystemReads :
    ([(0x000 : BitVec 12), 0x010, 0x012, 0x020, 0x100, 0x113, 0x11A, 0x120, 0x200, 0x202, 0x208, 0x217, 0x300, 0x307, 0x308, 0x309, 0x310, 0x313,
      0x320, 0x33F, 0x340, 0x37F, 0x500, 0x501, 0x001, 0x314, 0x31F, 0x380, 0xFFF].all fun n => runsB node (encB 0x3A 0 true (fb n))) = true
    ∧ runsB (nodeX fun x => { x with pl := 0 }) (encB 0x3A 0 true (fb 0x008)) = true ∧ node.begun.core.chestOp = none
    ∧ (let s := node.onCore fun k => { k with chestOp := some ⟨1, .c0, 0, 0, []⟩ }; runsB s (encB 0x3A 0 true (fb 0x308)) = true ∧ s.begun.core.chestOp ≠ none)
    ∧ node.begun.core.mxOwner = node.begun.core.cur := by decide +kernel

theorem test_met_SystemWrites :
    ([(0x000 : BitVec 12), 0x008, 0x012, 0x021, 0x111, 0x11A, 0x309, 0x501].all fun n => runsB node (encB 0x3B 0 (decide ((fc n).rs1 = 0)) (fc n))) = true
    ∧ runsB (nodeX fun x => { x with pl := 1 }) (encB 0x3B 0 (decide ((fc 0x101).rs1 = 0)) (fc 0x101)) = true ∧ node.begun.core.chestOp = none := by decide +kernel

theorem test_met_NodeRegisterWrites :
    (([(0x012 : BitVec 12), 0x200, 0x201, 0x310, 0x120, 0x210, 0x217, 0x308, 0x311, 0x313, 0x300, 0x307, 0x340, 0x37F, 0x320, 0x33F].all fun n =>
      runsB node (encB 0x3B 0 (decide ((fc n).rs1 = 0)) { fc n with imm := n })) = true)
    ∧ node.begun.cx.pl = 2 ∧ (node.begun.cx.rd 1).toNat % 4 ≠ 3 ∧ CtxId.named (node.begun.cx.rd 1).toNat = node.begun.core.cur
    ∧ (let s := nodeX fun x => { x with g := [(1, 3)] }; s.begun.cx.pl = 2 ∧ (s.begun.cx.rd 1).toNat % 4 = 3
      ∧ CtxId.named (s.begun.cx.rd 1).toNat ≠ s.begun.core.cur) := by decide +kernel

/-- A block of `n` bytes at `a` is reached at M, by its clauses. -/
theorem block_at {s : State} {a : Word} {n off : Nat} (p : s.place a = .lm off) (h : off + n ≤ benchBase) (l : s.cx.pl = 2) (e : s.ecc = []) :
    BlockAt s a n off :=
  ⟨p, h, fun j _ => by simp [State.pageOk, l], fun w _ => by simp [State.eccOf, e, tget]⟩

theorem good_of_nil {s : State} (e : s.ecc = []) (l : List Nat) : ∀ w ∈ l, s.eccOf w = .good := fun w _ => by simp [State.eccOf, e, tget]

/-- A node about to write CHESTCMD with `v`, its Chest areas in pages 0 to 4 and 5 to 9, both tagged. -/
def chest (v : Word) : State :=
  ((forN 10 (fun p s => s.put (F.pageTag p) (p / 5)) (nodeX fun x => { x with g := [(1, v)], pc := 0x28000 }))).onCore fun k => { k with chestBase1 := 5 }

/-- A router at rest, as a Bool. -/
def stillB (s : State) : Bool :=
  ([Port.n, .e, .s, .w, .l].all fun p => (s.lnk p).inbound.isEmpty) && s.rtr.inq.isEmpty && s.rtr.held.isEmpty && s.rtr.ply.isEmpty
    && s.rtr.plyWait.isEmpty && s.rtr.ingress.isEmpty

theorem still_of {s : State} (h : stillB s = true) : s.still := by
  simp only [stillB, Bool.and_eq_true, List.all_eq_true, List.isEmpty_iff] at h
  obtain ⟨⟨⟨⟨⟨h1, h2⟩, h3⟩, h4⟩, h5⟩, h6⟩ := h
  exact ⟨fun p => h1 p (by cases p <;> decide), h2, h3, h4, h5, h6⟩

theorem test_met_ChestOperations :
    (∀ e ∈ [((1 : Nat), Instr.save (fc 0)), (2, .discard (fc 0)), (3, .handover (fc 0)), (4, .spill (fc 0)), (5, .fill (fc 0)), (6, .erase (fc 0))],
      meets (chest (BitVec.ofNat 64 (0xFF10 + e.1))) e.2 = true)
    ∧ (let u := (chest 0xFF11).begun
      u.cx.pl = 2 ∧ u.core.chestOp = none ∧ u.chestOk .c0 = true ∧ u.chestOk .c1 = true ∧ u.core.mxDirty = 0 ∧ u.core.mxCfg = false
      ∧ u.is (F.keyValid 1) = false ∧ (u.mem.byte 0x14001).toNat = 0 ∧ (u.mem.byte 0x14002).toNat % 4 ≠ 3)
    ∧ (chest 0).begun.still ∧ (∀ at0 n, ∀ w ∈ eccWords at0 n, (chest 0).begun.eccOf w = .good)
    ∧ ((chest 1).put (F.pageTag 4) 1).begun.chestOk .c0 = false
    ∧ ((chest 1).onCore fun k => { k with mxDirty := 0x80 }).begun.core.mxDirty &&& 0xFF ≠ 0 := by
  refine ⟨by decide +kernel, by decide +kernel, ?_, fun at0 n => good_of_nil (by decide +kernel) _, by decide +kernel, by decide +kernel⟩
  exact still_of (by decide +kernel)

/-- A reserved operation, and a write while an operation is under way. -/
theorem test_met_ChestOperations_ignored :
    meets (chest 0xFF10) (.movc (fc 0x212)) = true ∧ meets (chest 0xFF17) (.movc (fc 0x212)) = true ∧ (chest 0xFF17).begun.cx.pl = 2
    ∧ (let s := (chest 0xFF12).onCore fun k => { k with chestOp := some ⟨1, .c0, 0, 0, []⟩ };
      meets s (.discard (fc 0)) = true ∧ s.begun.cx.pl = 2 ∧ s.begun.core.chestOp ≠ none) :=
  ⟨by decide +kernel, by decide +kernel, by decide +kernel, by decide +kernel, by decide +kernel, by decide +kernel⟩

/-- With keys, and CHESTXA at 0x40000. -/
def keyed (v : Word) (m : Mem) : State :=
  { ((chest v).put (F.keyValid 1) 1).onCore fun k => { k with chestXa := 0x40000 } with mem := m }

/-- The image area with 16 bytes written over its tag: the rest is as before, and the tag is those bytes. -/
theorem sealed (tag : List Byte) (h : tag.length = 16) :
    let img := Mem.read (Mem.write [] (0x40000 + 78016) tag) 0x40000 78080
    img.take 78016 = (Mem.read [] 0x40000 78080).take 78016 ∧ (img.drop 78016).take 16 = tag := by
  have hr : ∀ m : Mem, Mem.read m 0x40000 78080 = (List.range 78016).map (fun i => m.byte (0x40000 + i))
      ++ ((List.range 16).map (fun i => m.byte (0x40000 + 78016 + i)) ++ (List.range 48).map fun i => m.byte (0x40000 + 78032 + i)) := fun m => by
    rw [Mem.read, show (78080 : Nat) = 78016 + (16 + 48) from rfl, List.range_add, List.range_add]
    simp only [List.map_append, List.map_map, Function.comp_def, ← Nat.add_assoc]
  have self := @Mem.read_write_self [] (0x40000 + 78016) tag
  rw [h] at self
  simp only [hr]
  refine ⟨?_, ?_⟩
  · rw [List.take_left' (by simp), List.take_left' (by simp)]
    exact List.map_congr_left fun i hi => Mem.byte_write_other (.inl (by have := List.mem_range.mp hi; omega))
  · rw [List.drop_left' (by simp), List.take_left' (by simp)]
    exact self

/-- Each of the outcomes of FILL is met: a counter other than CHESTXCTR, and a tag that is the image's or another. -/
theorem test_met_SpillAndFill :
    meets (keyed 0x15 []) (.fill (fc 0)) = true ∧ meets (keyed 0x14 []) (.spill (fc 0)) = true
    ∧ (let u := (keyed 0x15 []).begun;
      u.core.chestOp = none ∧ u.chestOk .c1 = true ∧ u.is (F.keyValid 1) = true ∧ u.place u.core.chestXa = .lm 0x40000
      ∧ u.chestCtr .c1 ≠ BitVec.allOnes 64 ∧ field (u.mem.read 0x40000 8) 0 8 = u.core.chestXctr.toNat)
    ∧ field ((keyed 0x15 [(0x40007, 1)]).begun.mem.read 0x40000 8) 0 8 ≠ (keyed 0x15 []).begun.core.chestXctr.toNat
    ∧ ((keyed 0x14 []).onCore fun k => { k with chestCtr1 := BitVec.allOnes 64 }).begun.chestCtr .c1 = BitVec.allOnes 64
    ∧ { node with core := { Core.reset with chestOp := some ⟨5, .c1, 4, 0, []⟩ } }.core.chestOp = some ⟨5, .c1, 4, 0, []⟩ := by
  decide +kernel

theorem test_met_SpillAndFill_tag :
    let keys := aesKeys ((keyed 0x15 []).begun.slotKey .c1)
    let tagOf (img : List Byte) := gcmTag keys (img.take 12) (img.take 64) ((img.drop 64).take 77952)
    (∃ t, let img := Mem.read (Mem.write [] (0x40000 + 78016) t) 0x40000 78080; tagOf img = (img.drop 78016).take 16)
    ∧ ∃ t, let img := Mem.read (Mem.write [] (0x40000 + 78016) t) 0x40000 78080; tagOf img ≠ (img.drop 78016).take 16 := by
  intro keys tagOf
  have hk : (roundKey keys 14).length = 16 := by decide +kernel
  have len (a b c) : (gcmTag keys a b c).length = 16 := by
    simp [gcmTag, xorBytes, aesBlock, shiftRows, hk, toLe]
  have same (img img' : List Byte) (h : img.take 78016 = img'.take 78016) : tagOf img = tagOf img' := by
    have cut (l : List Byte) : tagOf l = tagOf (l.take 78016) := by
      simp only [tagOf, List.take_take, List.drop_take]
      rfl
    rw [cut img, cut img', h]
  let t0 := tagOf (Mem.read [] 0x40000 78080)
  refine ⟨⟨t0, ?_⟩, ⟨t0.map fun b => ~~~b, ?_⟩⟩
  · have h := sealed t0 (len _ _ _)
    show tagOf _ = _
    rw [same _ _ h.1, h.2]
  · have h := sealed (t0.map fun b => ~~~b) (by rw [List.length_map]; exact len _ _ _)
    show tagOf _ ≠ _
    rw [same _ _ h.1, h.2]
    intro e
    have l : 0 < t0.length := by rw [show t0.length = 16 from len _ _ _]; decide
    have := congrArg (fun q => q[0]?) (show t0 = _ from e)
    simp only [List.getElem?_map, List.getElem?_eq_getElem l, Option.map_some, Option.some.injEq] at this
    exact absurd this (by generalize t0[0] = b; revert b; decide)

theorem test_met_Messages :
    meets node (.send ⟨0, 28, 2, 0, 0, 3⟩) = true ∧ node.begun.sendQueued .c0 < 4
    ∧ meets (nodeX (regs 0x8000000000000000 0)) (.send ⟨0, 28, 2, 0, 0, 3⟩) = true
    ∧ (let s := { node with rtr := { node.rtr with inq := List.replicate 4 (.l, { Packet.mk' 7 0 0 0 0 [] with src := 0 }, 0) } }
      meets s (.send ⟨0, 1, 2, 0, 0, 0⟩) = true ∧ 4 ≤ s.begun.sendQueued .c0)
    ∧ meets node (.recv ⟨0, 26, 0, 0, true⟩) = true ∧ node.begun.qe.imq = []
    ∧ (let s := { node with qe := { node.qe with imq := [someMsg .c1, someMsg .c0] } }
      meets s (.recv ⟨0, 1, 0, 0, false⟩) = true ∧ s.begun.purge.qe.imq = [someMsg .c1] ++ someMsg .c0 :: [] ∧ s.begun.qe.bad = [])
    ∧ meets node (.mbput fa) = true ∧ bits (node.begun.g F.mboxOwn) 0 1 = CtxId.num .c0
    ∧ bits ((node.put F.mboxOwn 0x80).begun.g F.mboxOwn) 7 1 ≠ CtxId.num .c0
    ∧ bit ((node.put F.mboxReady 1).begun.g F.mboxReady) 0 = true := by decide +kernel

/-- The `n` doublewords at `a` are reached at M, by their clauses. -/
theorem area_at {s : State} {a : Word} {n off : Nat} (h : a.toNat % 8 = 0) (e : s.ecc = []) (l : s.cx.pl = 2)
    (p : (List.range n).all (fun i => s.place (a + BitVec.ofNat 64 (8 * i)) = .lm (off + 8 * i)) = true) : AreaAt s a n off :=
  ⟨h, good_of_nil e _, fun i hi => ⟨by simpa using List.all_eq_true.mp p i (List.mem_range.mpr hi), by simp [State.pageOk, l]⟩⟩

def spills : State := nodeX fun x => { x with wvalid := 0x81, wsp := 0x1000, wslimit := 0x1050, reel := [8], reelsp := 0x800 }

theorem test_met_WindowMoves :
    (let x := spills.begun.cx;
      allMeet spills [.wspill fz, .wfill fz, .rspill fz, .rfill fz] = true ∧ x.wvalid.getLsbD ((x.cwp.toNat + 6 + 1) % 8) = true
      ∧ (∀ j, j < 6 → x.wvalid.getLsbD ((x.cwp.toNat + j + 1) % 8) = false) ∧ x.wsp.toNat + 80 ≤ x.wslimit.toNat ∧ x.reel = 8 :: []
      ∧ x.reel.length < 16 ∧ x.wvalid.getLsbD ((x.cwp.toNat + 7) % 8) = true)
    ∧ AreaAt spills.begun 0x1000 10 0x1000 ∧ AreaAt spills.begun 0x800 1 0x800 ∧ AreaAt node.begun (0x1000 - 80) 10 0xFB0
    ∧ (∀ k, k < 7 → node.begun.cx.wvalid.getLsbD ((node.begun.cx.cwp.toNat + k + 1) % 8) = false)
    ∧ node.begun.cx.wvalid.getLsbD ((node.begun.cx.cwp.toNat + 7) % 8) = false ∧ deep.length = 16 :=
  ⟨by decide +kernel, area_at (by decide) (by decide +kernel) (by decide +kernel) (by decide +kernel),
    area_at (by decide) (by decide +kernel) (by decide +kernel) (by decide +kernel),
    area_at (by decide) (by decide +kernel) (by decide +kernel) (by decide +kernel), by decide +kernel, by decide +kernel, by decide⟩

theorem test_met_PageClaims :
    allMeet (nodeX (regs 255 0)) [.lmclaim fa1, .lmclaima { fz with rd := 1 }, .lmrel fa1] = true
    ∧ (let u := (((nodeX (regs 255 0)).put (F.page 255) 0x43).put (F.quota 0) 2).begun
      u.g (F.pageTag 255) = 3 ∧ u.is (F.pageClaim 255) = true ∧ (∀ q, q < 255 → ¬ (u.g (F.pageTag q) = 3 ∧ u.is (F.pageClaim q) = true)))
    ∧ node.begun.is (F.pageClaim 1) = false ∧ node.begun.g (F.pageTag 0) = CtxId.num .c0 ∧ node.begun.g (F.pageTag 1) ≠ CtxId.num .c0
    ∧ ((List.range 256).filter fun p => node.begun.g (F.pageTag p) = 0).length = 1 ∧ (node.put (F.quota 0) 1).begun.g (F.quota 0) ≤ 1
    ∧ 1 < (node.put (F.quota 0) 2).begun.g (F.quota 0) := by decide +kernel

theorem test_met_CacheMaintenance :
    allMeet node [.dinvl ⟨0, 0, 2, 4⟩, .iinvl ⟨0, 1, 2, 4⟩, .dinva ⟨0, 2, 2, 4⟩, .iinva ⟨0, 3, 2, 4⟩] = true := by decide +kernel

/-- C0 with every cause enabled and a message waiting; C1 likewise. -/
def asked : State :=
  { two.setCtx .c0 { Ctx.reset with pl := 1, ie := true, xien := 0x7F, xdeleg := 0x7F00000000 } with
    qe := { Queue.reset with imq := [someMsg .c0, someMsg .c1] } }.setCtx .c1 { Ctx.reset with pl := 0, ie := true, xien := 0x7F }

theorem test_met_AsynchronousCauses :
    (let u := asked.refresh; let x := u.ctx .c0
      asked.canIssue = true ∧ x.xpend = 2 ∧ x.xien.getLsbD 1 = true ∧ x.target 0x21 = x.pl.toNat ∧ x.ie = true ∧ x.zbusy = false)
    ∧ (let u := asked.refresh; let x := u.ctx .c1
      asked.core.run.getLsbD 1 = true ∧ u.cx.wait = .run ∧ x.xpend = 2 ∧ x.xien.getLsbD 1 = true ∧ x.target 0x21 = 2)
    ∧ (node.refresh.ctx .c0).xpend = 0 ∧ (node.refresh.ctx .c1).xpend = 0 ∧ asked.refresh.fetchBlocked = none
    ∧ (asked.setCtx .c0 { asked.ctx .c0 with pc := 2 }).refresh.fetchBlocked = some (cAlign, 2, 0)
    ∧ (let s := asked.setCtx .c1 { asked.ctx .c1 with wait := .wfe }; (s.refresh.ctx .c1).wait = .wfe ∧ (s.refresh.ctx .c1).latch = true)
    ∧ asked.inRun = true ∧ asked.nodeRuns = true ∧ asked.refresh.cx.prods = [] ∧ asked.refresh.cx.afterEret = false := by decide +kernel

/-! ### Vector and matrix statements -/

theorem test_met_NotOwnedRaises :
    (let s := node.onCore fun k => { k with mxOwner := .c1 };
      allMeet s [.vadd ⟨0, 1, 2, 3, 0⟩, .vmov ⟨0, 1, 2, 0, 0⟩, .vbcast ⟨0, 1, 2, 0, 0⟩, .vget ⟨0, 1, 2, 3, 0⟩, .mz ⟨0, 0, 0⟩, .movs (fb 0x300), .movs (fb 0x309),
        .movs (fb 0x310), .movs (fb 0x313), .movs (fb 0x320), .movs (fb 0x37F), .movc (fc 0x308), .movc (fc 0x320), .tcfgWrite (fc 0x310)] = true ∧ ¬ (s.begun.core.mxOwner = s.begun.core.cur)) := by decide +kernel

def fv (t : BitVec 2) : FrameV := { cond := 0, vd := 1, va := 2, vb := 3, t := t }
def fu (t : BitVec 2) : FrameV := { fv t with vb := 0 }

theorem owns_node : node.begun.owns := by unfold State.owns; decide +kernel

theorem test_met_VectorInteger : node.begun.owns ∧ ∀ t : BitVec 2, t.toNat < 2 →
    allMeet node ([Instr.vadd, .vsub, .vmul, .vmin, .vmax, .vand, .vor, .vxor, .vshl, .vshr, .vsar, .vcmpeq, .vcmplt, .vcmple, .vadds, .vfma, .vfnma,
      .vget].map (fun f => f (fv t)) ++ [.vsel (fv 0)]
      ++ [Instr.vmov, .vneg, .vabs, .vredsum, .vredmax, .vredmin, .vbcast].map fun f => f (fu t)) = true := ⟨owns_node, by decide +kernel⟩

theorem test_met_VectorFloat : node.begun.owns ∧ ∀ t : BitVec 2, 2 ≤ t.toNat →
    allMeet node ([Instr.vadd, .vsub, .vmul, .vmin, .vmax, .vcmpeq, .vcmplt, .vcmple, .vfma, .vfnma, .vget].map (fun f => f (fv t))
      ++ [Instr.vmov, .vneg, .vabs, .vexp2, .vrcp, .vbcast, .vredsum, .vredmax, .vredmin].map fun f => f (fu t)) = true :=
  ⟨owns_node, by decide +kernel⟩

def fw (p2 : BitVec 32) : FrameW := { cond := 0, v := 1, x := 2, zero := 0, p2 := p2 }

theorem test_met_VectorMemory :
    allMeet node [.vld (fw 127), .vst (fw 0), .vgather (fw 0), .vscatter (fw 0xE0)] = true
    ∧ allMeet (nodeX (regs 4 0)) [.vld (fw 127), .vst (fw 0)] = true ∧ ((nodeX (regs 4 0)).begun.cx.rd 2).toNat % 8 ≠ 0
    ∧ BlockAt (nodeX (regs 0x3FFE80 0)).begun ((nodeX (regs 0x3FFE80 0)).begun.cx.rd 2) 128 0x3FFE80
    ∧ (∀ l, l < 32 → node.begun.cx.rd 2 + ((node.begun.el 32 0 l).signExtend 64 <<< 0) = 0) ∧ BlockAt node.begun 0 4 0
    ∧ allMeet (nodeX (regs 2 0)) [.vgather (fw 0), .vscatter (fw 0)] = true
    ∧ ((nodeX (regs 2 0)).begun.cx.rd 2 + (((nodeX (regs 2 0)).begun.el 32 0 0).signExtend 64 <<< 0)).toNat % 4 ≠ 0 :=
  ⟨by decide +kernel, by decide +kernel, by decide +kernel, block_at (by decide +kernel) (by decide) (by decide +kernel) (by decide +kernel),
    by decide +kernel, block_at (by decide +kernel) (by decide) (by decide +kernel) (by decide +kernel), by decide +kernel, by decide +kernel⟩

theorem test_met_VectorConversions :
    allMeet node [.vcvt (fw 0x67), .vcvt (fw 0x76), .vwid6 (fw 6), .vwid6 (fw 0x97), .vqmx (fw 0x83), .vqmx (fw 0x282), .vtrd (fw 0), .vtwr (fw 0x7E0)] = true
    ∧ (2 : Nat) < regCount node.begun.mx.mode.toNat ∧ 0 < rowCount node.begun.mx.mode.toNat ∧ 63 + 1 ≤ rowCap node.begun.mx.mode.toNat
    ∧ regCount node.begun.mx.mode.toNat ≤ ({ fw 0 with x := 16 } : FrameW).x.toNat
    ∧ allMeet node [.vtrd { fw 0 with x := 16 }, .vtwr { fw 0 with x := 31 }] = true
    ∧ ((fw 0x81).p2.setWidth 5 : BitVec 5) = (fw 0x81).v ∧ meets node (.vqmx (fw 0x81)) = true
    ∧ (let s : State := { nodeX (regs 32 0) with mx := { Mx.reset with mode := 1 } }; rowCount s.begun.mx.mode.toNat ≤ (s.begun.cx.rd 2).toNat % 64
      ∧ (2 : Nat) < regCount s.begun.mx.mode.toNat ∧ allMeet s [.vtrd (fw 2), .vtwr (fw 2)] = true)
    ∧ rowCap node.begun.mx.mode.toNat < 127 + 1 ∧ meets node (.vtwr (fw 0xFE0)) = true := by decide +kernel

/-- Tiles 0 and 1 tagged 32 by 64 bytes of INT8. -/
def tiled : State := { node with mx := { Mx.reset with tags := [(0, ⟨32, 64, 1⟩), (1, ⟨32, 64, 1⟩)] } }

/-- T 0, rs1 2, rs2 3, 32 rows of 64 bytes, INT8. -/
def fm : FrameM := { cond := 0, p1 := 16, p2 := 0x5FBE3 }

theorem test_met_TileMoves :
    tiled.begun.owns ∧ tiled.begun.memFit false fm = none ∧ tiled.begun.memFit true fm = none
    ∧ allMeet tiled [.tld fm, .tst fm, .tzero { fm with p1 := 0, p2 := 0x5FBE0 }, .tld { fm with p1 := 0x1010 }] = true
    ∧ (∀ i, i < fm.rows → BlockAt tiled.begun (tiled.begun.cx.rd fm.rs1 + BitVec.ofNat 64 i * tiled.begun.cx.rd fm.rs2) fm.bpr 0)
    ∧ (tiled.begun.cx.rd fm.rs1).toNat % 8 = 0 ∧ regCount tiled.begun.mx.mode.toNat ≤ ({ fm with p1 := 0x1010 } : FrameM).t := by
  refine ⟨by unfold State.owns; decide +kernel, by decide +kernel, by decide +kernel, by decide +kernel, fun i _ => ?_, by decide +kernel, by decide +kernel⟩
  have h : tiled.begun.cx.rd fm.rs1 = 0 ∧ tiled.begun.cx.rd fm.rs2 = 0 := by decide +kernel
  rw [h.1, h.2, show (0 : Word) + BitVec.ofNat 64 i * 0 = 0 by simp]
  exact block_at (by decide +kernel) (by decide) (by decide +kernel) (by decide +kernel)

/-- MMA of tiles 0 and 1, INT8, M = N = 16, K = 64. -/
def fp : FrameM := { cond := 0, p1 := 8, p2 := 0x4407FEF }

theorem test_met_MatrixProducts :
    tiled.begun.owns ∧ allMeet tiled [.mz ⟨0, 0, 0⟩, .mhclr ⟨0, 0, 0⟩, .mma fp, .mmas fp] = true ∧ tiled.begun.productFit false fp = none ∧ fp.fmtA = 1
    ∧ (tiled.begun.productFit true fp).isSome = true ∧ (node.begun.productFit false fp).isSome = true ∧ tiled.begun.mx.acc.acs = 0
    ∧ (let s := { tiled with mx := { Mx.reset with tags := [(0, ⟨16, 32, 4⟩), (1, ⟨16, 32, 4⟩), (2, ⟨16, 33, 8⟩)] } };
      let m : FrameM := { fp with p2 := 0x11043FEF }
      meets s (.mmas m) = true ∧ s.begun.productFit true m = none) := by
  refine ⟨by unfold State.owns; decide +kernel, by decide +kernel, by decide +kernel, by decide, by decide +kernel, by decide +kernel, by decide +kernel, by decide +kernel⟩

/-- MDRAIN to tile 1, 16 by 16, INT32. -/
def fr : FrameM := { cond := 0, p1 := 0x180, p2 := 0x5EF }

def draining (copied : Bool) : State := { node with mx := { Mx.reset with drain := some ⟨fr, .c0, 0, false, copied, AccSet.reset⟩ } }

theorem test_met_MatrixDrain :
    node.begun.owns ∧ meets node (.mdrain fr) = true ∧ fr.td < regCount node.begun.mx.mode.toNat
    ∧ (draining true).nodeRuns = true ∧ (draining true).mx.drain = some ⟨fr, .c0, 0, false, true, AccSet.reset⟩ ∧ fr.sr = false ∧ fr.dFmt < 8
    ∧ (draining false).mx.drain = some ⟨fr, .c0, 0, false, false, AccSet.reset⟩
    ∧ (let m : FrameM := { fr with p1 := 0x1100 }; meets node (.mdrain m) = true ∧ regCount node.begun.mx.mode.toNat ≤ m.td)
    ∧ (let m : FrameM := { fr with p1 := 0x1C0, p2 := 0xDEF }; m.sr = true ∧ m.clr = true ∧ m.dFmt = 6 ∧ meets node (.mdrain m) = true)
    ∧ node.mx.drain = none ∧ State.reset.nodeRuns = false :=
  ⟨owns_node, by decide +kernel, by decide +kernel, by decide +kernel, by decide, by decide, by decide, by decide, by decide +kernel, by decide +kernel,
    by decide, by decide +kernel⟩

def fi : FrameM := { cond := 0, p1 := 16, p2 := 0 }

theorem test_met_AccumulatorImages :
    node.begun.owns ∧ allMeet node [.msave fi, .mrest fi] = true ∧ BlockAt node.begun (node.begun.cx.rd fi.rs1) 7232 0
    ∧ allMeet (nodeX (regs 8 0)) [.msave fi, .mrest fi] = true ∧ ((nodeX (regs 8 0)).begun.cx.rd fi.rs1).toNat % 64 ≠ 0
    ∧ accImageOk (accImage AccSet.reset) = true ∧ (accImage AccSet.reset).length = 7232 ∧ accImageOk (Mem.read (Mem.write [] 0 (List.replicate 64 0xFF)) 0 7232) = false :=
  ⟨owns_node, by decide +kernel, block_at (by decide +kernel) (by decide) (by decide +kernel) (by decide +kernel), by decide +kernel, by decide +kernel,
    by decide +kernel, by decide +kernel⟩

/-! ### Every kind of place -/

/-- Node 1 of the die, offset 0x100; the same in external space; a register of the node's own. -/
def far : State := nodeX (regs 0x0000010000000100 0)
def outside : State := nodeX (regs 0x8000000000000100 0)
def ownReg (off : Word) (pl : BitVec 2) : State := nodeX fun x => { regs (0x0100000000 + off) 0 x with pl := pl }

/-- A store to the line of `far`, not acknowledged. -/
def store4 : Posted := { tag := 4, addr := 0x0000010000000140, answer := none }
def farBusy (l : List Posted) : State := far.setCtx .c0 { far.ctx .c0 with posted := l }

/-- Loads, stores and atomics of every kind of place: own memory with a corrected and a failing word, registers that may and may not be
read and written, other memory that is cached, not cached, free and busy. -/
theorem test_met_Accesses :
    (∀ k ∈ [EccMark.single, .bad], let s := { edge with ecc := [(0x3FFEF8 / 8, k)] };
      allMeet s [.lb (fb 0), .ld (fb 0), .sb (fb 0), .st (fb 0), .aadd fa, .acas fa] = true ∧ s.begun.eccOf (0x3FFEF8 / 8) = k
      ∧ s.begun.place (s.begun.cx.rd 2) = .lm 0x3FFEF8 ∧ s.begun.pageOk s.begun.core.cur s.begun.cx.pl.toNat (pageOf 0x3FFEF8) = true)
    ∧ (let s := ownReg 0x50018 2; let u := s.begun; allMeet s [.ld (fb 0), .sw (fb 0), .st (fb 0), .aadd fa] = true ∧ u.place (u.cx.rd 2) = .ctrl 0x50018
      ∧ u.mayRead u.coreAcc (0x50018 / 8 * 8) = true ∧ u.mayWrite u.coreAcc 0x50018 = true ∧ u.ownRefuses 0x50018 0 [(0x50018, 0)] = false)
    ∧ (let s := ownReg 0x90100 0; let u := s.begun; allMeet s [.ld (fb 0), .st (fb 0)] = true ∧ u.place (u.cx.rd 2) = .ctrl 0x90100
      ∧ u.mayRead u.coreAcc (0x90100 / 8 * 8) = false ∧ u.mayWrite u.coreAcc 0x90100 = false)
    ∧ (let u := far.begun; allMeet far [.ld (fb 0), .st (fb 0), .aadd fa, .acas fa] = true ∧ (u.place (u.cx.rd 2)).remote = true
      ∧ u.place (u.cx.rd 2) = .node (u.cx.rd 2) ∧ offOf (u.cx.rd 2) < 0x400000 ∧ u.lineBusy u.core.cur (u.cx.rd 2) = false ∧ (u.unacked u.core.cur).length < 16)
    ∧ (let s := farBusy [store4]; let u := s.begun; allMeet s [.ld (fb 0), .st (fb 0), .aadd fa] = true ∧ u.lineBusy u.core.cur (u.cx.rd 2) = true)
    ∧ (let s := farBusy (List.replicate 16 store3); let u := s.begun; meets s (.st (fb 0)) = true ∧ u.lineBusy u.core.cur (u.cx.rd 2) = false
      ∧ 16 ≤ (u.unacked u.core.cur).length)
    ∧ (let u := (nodeX (regs 0x0000010000400100 0)).begun; u.place (u.cx.rd 2) = .node (u.cx.rd 2) ∧ 0x400000 ≤ offOf (u.cx.rd 2))
    ∧ (let u := outside.begun; allMeet outside [.ld (fb 0), .aadd fa] = true ∧ u.place (u.cx.rd 2) = .ext (u.cx.rd 2) ∧ cacheable (u.place (u.cx.rd 2)) = true
      ∧ (u.cacheLoad u.core.cur (u.cx.rd 2) 8).1 = none)
    ∧ (let s := outside.cacheFill .c0 0x8000000000000100 (List.replicate 32 7); let u := s.begun; meets s (.ld (fb 0)) = true
      ∧ (u.cacheLoad u.core.cur (u.cx.rd 2) 8).1 = some (List.replicate 8 7))
    ∧ (∃ a, cacheable ((nodeX (regs a 0)).begun.place a) = false ∧ ((nodeX (regs a 0)).begun.place a).remote = true ∧ meets (nodeX (regs a 0)) (.ld (fb 0)) = true
      ∧ a.toNat % 8 = 0) := by
  refine ⟨by decide +kernel, by decide +kernel, by decide +kernel, by decide +kernel, by decide +kernel, by decide +kernel, by decide +kernel, by decide +kernel,
    by decide +kernel, ⟨0x0000010100000000, by decide +kernel⟩⟩

theorem test_met_CallReturn_modes :
    (let s := nodeX fun x => { x with fast := true };
      allMeet s [.call (fd 1), .callr ⟨0, 0, 2, 4⟩, .ret (fd 0)] = true ∧ s.begun.cx.fast = true)
    ∧ (let s := nodeX fun x => { x with spare := true, wvalid := 5 };
      allMeet s [.call (fd 1), .callr ⟨0, 0, 2, 4⟩, .ret (fd 0)] = true ∧ s.begun.cx.fast = false ∧ s.begun.cx.spare = true
      ∧ s.begun.cx.wvalid.getLsbD ((s.begun.cx.cwp.toNat + 2) % 8) = true)
    ∧ (let s := nodeX fun x => { x with spare := true, cwp := 7, wvalid := 0x80, spareK := [(1, 9)], spareF := [(5, 7)] };
      allMeet s [.call (fd 1), .callr ⟨0, 0, 2, 4⟩] = true ∧ s.begun.cx.fast = false ∧ s.begun.cx.spare = true
      ∧ s.begun.cx.wvalid.getLsbD ((s.begun.cx.cwp.toNat + 2) % 8) = false)
    ∧ (meets node (.callr ⟨0, 0, 2, 2⟩) = true ∧ (node.begun.cx.rd 2 + (2 : BitVec 12).signExtend 64).toNat % 4 ≠ 0) := by decide +kernel

/-- A window to spill to, or fill from, `p`; its oldest window is window 7. -/
def area (p : Word) : State := nodeX fun x => { x with wvalid := 0x81, wsp := p, wslimit := BitVec.allOnes 64, reel := [8], reelsp := p }
/-- The same, with no window below CWP. -/
def areaBelow (p : Word) : State := nodeX fun x => { x with wsp := p, reelsp := p }

theorem test_met_WindowMoves_elsewhere :
    [(0x1000 : Word), 0x3FFEC0, 0x0100050010, 0x0000010000000100, 0x8000000000000178].all (fun p =>
      allMeet (area p) [.wspill fz, .rspill fz] && allMeet (areaBelow p) [.wfill fz, .rfill fz] && p.toNat % 8 == 0) = true
    ∧ (area 0x3FFEC0).begun.dwRefused true 0x3FFEC0 10 = some 0x3FFF00 ∧ (areaBelow 0x3FFF10).begun.dwRefused false (0x3FFF10 - 80) 10 = some 0x3FFF00
    ∧ (area 0x1000).begun.dwRefused true 0x1000 10 = none ∧ (area 0x1000).begun.place 0x1000 = .lm 0x1000
    ∧ (area 0x0100050018).begun.dwRefused true 0x0100050018 1 = none ∧ (area 0x0100050018).begun.place 0x0100050018 = .ctrl 0x50018
    ∧ (let u := (area 0x8000000000000178).begun; let p : Word := 0x8000000000000178
      u.dwRefused true p 10 = none ∧ (u.place p).remote = true ∧ dwLines p 10 = [(0, 1), (1, 9)]
      ∧ (dwLines p 10).any (fun l => u.lineBusy u.core.cur (p + BitVec.ofNat 64 (8 * l.1))) = false ∧ (u.unacked u.core.cur).length + 2 ≤ 16)
    ∧ (let s := (area 0x0000010000000100).setCtx .c0 { (area 0x0000010000000100).ctx .c0 with posted := [store4] }; let u := s.begun
      meets s (.wspill fz) = true ∧ u.lineBusy u.core.cur (0x0000010000000100 + BitVec.ofNat 64 (8 * 0)) = true)
    ∧ (let u := (areaBelow 0x1000).begun; u.dwRefused false (0x1000 - 80) 10 = none ∧ (State.fillLoop .c0 (0x1000 - 80) 80 0 8 [] u).1.toOption = some (some (List.replicate 80 0)))
    ∧ (let u := (areaBelow 0x0100050020).begun; u.dwRefused false (0x0100050020 - 8) 1 = none ∧ u.place (0x0100050020 - 8) = .ctrl 0x50018
      ∧ (State.fillLoop .c0 (0x0100050020 - 8) 8 0 8 [] u).1.toOption.isSome = true)
    ∧ (let u := { areaBelow 0x1000 with ecc := [(0x1FF, .bad)] }.begun; (u.place (0x1000 - 80)).remote = false ∧ (State.fillLoop .c0 (0x1000 - 80) 80 0 8 [] u).1.toOption = none)
    ∧ (let s := areaBelow 0x8000000000000180; let u := s.begun; let p : Word := 0x8000000000000180 - 80
      (u.place p).remote = true ∧ u.dwRefused false p 10 = none ∧ (dwords p 10).any (u.lineBusy u.core.cur) = false
      ∧ (State.fillLoop u.core.cur p 80 (BitVec.ofNat 32 (encA 0x3E 1 1 true fz).parcel) 8 [] u).1.toOption = some none)
    ∧ (let s := (areaBelow 0x8000000000000108).cacheFill .c0 0x8000000000000100 (List.replicate 32 7); let u := s.begun
      meets s (.rfill fz) = true ∧ (State.fillLoop u.core.cur 0x8000000000000100 8 (BitVec.ofNat 32 (encA 0x3E 3 1 true fz).parcel) 8 [] u).1.toOption
        = some (some (List.replicate 8 7)))
    ∧ (let u := (area 0xFFFFFFFFFFFFFFF8).begun; (u.remoteLines 0xFFFFFFFFFFFFFFF8 2).length = 1 ∧ u.place (0xFFFFFFFFFFFFFFF8 + 8) = .lm 0) := by
  and_intros <;> decide +kernel

/-- Is it an error? -/
def fails {α β : Type} (r : Except α β) : Bool :=
  match r with
  | .error _ => true
  | .ok _ => false

/-- Transfers that are all made, the first of which is refused, and the first of which meets a failing word; in a gather and a scatter too. -/
theorem test_met_Transfers :
    [(0 : Word), 0x3FFF00].all (fun p => allMeet (nodeX (regs p 0)) [.vld (fw 127), .vst (fw 127), .vgather (fw 0), .vscatter (fw 0), .tld fm, .msave fi, .mrest fi]) = true
    ∧ (let u := node.begun; fails (u.unitRead reqVector (blockPieces 0 128)).1 = false ∧ (u.unitWrite reqVector (blockPieces 0 128) (List.replicate 128 0)).1 = none
      ∧ (u.laneGroups (fw 0)).toOption = some [((List.range 32).map fun l => (l, 0))] ∧ fails (u.gatherLanes 4 [[(0, 0)]]).1 = false
      ∧ (u.scatterLanes 4 (fun _ => 0) [[(0, 0)]]).1 = none)
    ∧ (let u := (nodeX (regs 0x3FFF00 0)).begun; blockPieces 0x3FFF00 128 = [(0x3FFF00, 128)] ∧ u.unitOff 0x3FFF00 128 = none
      ∧ fails (u.unitRead reqVector (blockPieces 0x3FFF00 128)).1 = true ∧ (u.unitWrite reqVector (blockPieces 0x3FFF00 128) []).1 ≠ none
      ∧ fails (u.gatherLanes 4 [[(0, 0x3FFF00)]]).1 = true ∧ (u.scatterLanes 4 (fun _ => 0) [[(0, 0x3FFF00)]]).1 ≠ none)
    ∧ (let s := { node with ecc := [(3, .bad)] }; let u := s.begun; allMeet { nodeX (regs 24 0) with ecc := [(9, .bad)] } [.vld (fw 127), .vst (fw 0), .vgather (fw 0)] = true
      ∧ u.unitOff 24 128 = some 24 ∧ (24 : Nat) / 256 = (24 + 128 - 1) / 256 ∧ u.eccFail (eccWords 24 128) = some 3)
    ∧ ((tiled.begun.tileTransfers fm).map xferOf).head? = some (0, 64) ∧ tiled.begun.unitOff 0 64 = some 0
    ∧ (let s := { tiled with core := tiled.core }.setCtx .c0 (regs 4 0 Ctx.reset); allMeet s [.tld fm, .tst fm] = true ∧ (s.begun.cx.rd fm.rs1).toNat % 8 ≠ 0)
    ∧ (let s := tiled.setCtx .c0 (regs 0 4 Ctx.reset); allMeet s [.tld fm, .tst fm] = true ∧ (s.begun.cx.rd fm.rs1).toNat % 8 = 0 ∧ (s.begun.cx.rd fm.rs2).toNat % 8 ≠ 0)
    ∧ (node.begun.memFit true fm).isSome = true ∧ (tiled.begun.memFit false { fm with p1 := 0x1010 }).isSome = true := by
  and_intros <;> decide +kernel

/-- C1's Chest, at 0x14000, with a header: VALID and the TCFG mode; and with an array entry `ecc`. -/
def held (valid mode : Byte) (ecc : List (Nat × EccMark)) : State := { chest 0xFF13 with mem := [(0x14001, valid), (0x14002, mode)], ecc := ecc }

/-- HANDOVER meets a header it cannot read, mode 3, a group it cannot read, one that does not fit, groups it can restore, and a group that
fails while it is restored; SAVE and DISCARD meet a header they cannot read. -/
theorem test_met_Handover :
    (let u := (held 0xE0 0 [(0x14000 / 8, .bad)]).begun; u.eccOf (0x14000 / 8) = .bad ∧ 0x14000 / 8 ∈ eccWords 0x14000 64)
    ∧ (let u := (held 0 3 []).begun; (u.mem.byte 0x14002).setWidth 2 = (3 : BitVec 2))
    ∧ (let u := (held 2 0 [((0x14000 + 0x40C0 + 64) / 8, .bad)]).begun;
      groupsOf (0xFF &&& u.mem.byte 0x14001) = [1] ∧ (0x14000 + 0x40C0 + 64) / 8 ∈ eccWords (0x14000 + groupAt 1 + 64) 64
      ∧ u.eccOf ((0x14000 + 0x40C0 + 64) / 8) = .bad)
    ∧ (let u := { held 1 0 [] with mem := [(0x14001, 1), (0x14080, 65)] }.begun;
      groupsOf (0xFF &&& u.mem.byte 0x14001) = [0] ∧ (numbers 8 (groupRegs 0) (u.mem.read (0x14000 + groupAt 0 + 64) 64)).all slotOk = false)
    ∧ (let u := (held 0x10 0 []).begun; groupsOf (0xFF &&& u.mem.byte 0x14001) = [4] ∧ accImageOk (u.mem.read (0x14000 + groupAt 4) 7232) = false)
    ∧ (let u := (held 0xE0 0 []).begun; groupsOf (0xFF &&& u.mem.byte 0x14001) = [5, 6, 7])
    ∧ (let u := (held 0xE0 0 [((0x14000 + groupAt 6) / 8, .bad)]).begun; groupsOf (0xFF &&& u.mem.byte 0x14001) = [5] ++ 6 :: [7]
      ∧ (0x14000 + groupAt 6) / 8 ∈ eccWords (0x14000 + groupAt 6) (groupSize 6) ∧ u.eccOf ((0x14000 + groupAt 6) / 8) = .bad)
    ∧ (let u := { (chest 0xFF11).onCore fun k => { k with mxDirty := 0x80 } with ecc := [(7, .bad)] }.begun;
      u.chestOk u.core.mxOwner = true ∧ u.core.mxOwner = .c0 ∧ 7 ∈ eccWords (16384 * u.core.chestBase0.toNat) 64 ∧ u.eccOf 7 = .bad) := by
  and_intros <;> decide +kernel

/-- SPILL and FILL of a Chest or an image with a failing word, with CHESTXA where the engine may not reach, and off the node. -/
theorem test_met_SpillAndFill_elsewhere :
    (let s := { keyed 0x14 [] with ecc := [(0x14008 / 8, .bad)] }; meets s (.spill (fc 0)) = true ∧ 0x14008 / 8 ∈ eccWords (16384 * s.begun.chestBase .c1) 77952
      ∧ s.begun.eccOf (0x14008 / 8) = .bad)
    ∧ (let s := { keyed 0x15 [] with ecc := [(0x40008 / 8, .bad)] }; meets s (.fill (fc 0)) = true ∧ 0x40008 / 8 ∈ eccWords 0x40000 78080
      ∧ s.begun.eccOf (0x40008 / 8) = .bad)
    ∧ (keyed 0x14 []).begun.still
    ∧ (let s := (keyed 0x14 []).onCore fun k => { k with chestXa := 0x3FFEC0 }; (s.begun.place s.begun.core.chestXa).remote = false
      ∧ s.begun.place s.begun.core.chestXa = .lm 0x3FFEC0 ∧ benchBase < 0x3FFEC0 + 78080)
    ∧ (let s := (keyed 0x15 []).onCore fun k => { k with chestXa := 0x8000000000000000 }; meets s (.fill (fc 0)) = true
      ∧ (s.begun.place s.begun.core.chestXa).remote = true)
    ∧ (∃ e ∈ spillPieces 0x3FFEC0, (node.place (0x3FFEC0 + BitVec.ofNat 64 e.1)).remote = false ∧ node.local? (0x3FFEC0 + BitVec.ofNat 64 e.1) e.2 = none)
    ∧ (¬ ∃ e ∈ spillPieces 0x8000000000000000, (node.place (0x8000000000000000 + BitVec.ofNat 64 e.1)).remote = false)
    ∧ ∃ d w, (keyed 0x14 []).begun.chestRead .c1 0 77952 = (.ok d, w) := by
  refine ⟨by decide +kernel, by decide +kernel, still_of (by decide +kernel), by decide +kernel, by decide +kernel, by decide +kernel, by decide +kernel,
    ⟨_, _, lmRead_good (good_of_nil (by decide +kernel) _)⟩⟩

/-! ### Packets, links, queues, the Spindle and registers -/

theorem test_met_EccRows :
    (let s := { node.put F.scrubPeriod 1 with ecc := [(31, .single)], spn := { Spn.reset with scrubTicks := 1 } };
      s.g F.scrubPeriod ≤ s.spn.scrubTicks ∧ (node.put F.scrubPeriod 1).spn.scrubTicks < (node.put F.scrubPeriod 1).g F.scrubPeriod ∧ s.nodeRuns = true ∧ s.g F.scrubPeriod ≠ 0 ∧ (∀ w, w < 32 → w / 32 = s.g F.scrubNext ∧ s.eccOf w ≠ .bad))
    ∧ (let s := { node.put F.scrubPeriod 1 with ecc := [(31, .bad)] }; s.nodeRuns = true ∧ 31 / 32 = s.g F.scrubNext ∧ s.eccOf 31 = .bad)
    ∧ { node with ecc := [(31, .corrected)] }.eccOf (31 : BitVec 19).toNat = .corrected := by decide +kernel

/-- A WRITE of 8 bytes to offset 0x3FF8 of node 1, from node 2. -/
def wr : Packet := { Packet.mk' 3 0 0x0000010000003FF8 0 7 [1, 2, 3, 4, 5, 6, 7, 8] with src := 2 }
def at' (p : Packet) (e : FlitErr) : Arrival := { port := .e, pkt := p, err := e }

theorem test_met_PacketArrival :
    node.listens .e = true ∧ node.rtr.draining.getLsbD 1 = false ∧ node.routable = true ∧ typeDefined wr.ty = true ∧ lenOk 3 wr.len.toNat = true
    ∧ wr.hops ≠ 127 ∧ wr.payload.length = wr.len.toNat
    ∧ (node.put F.dieValid 0).listens .e = true ∧ (node.put F.dieValid 0).routable = false
    ∧ typeDefined ({ wr with ty := 0x13 } : Packet).ty = false ∧ lenOk 1 wr.len.toNat = false ∧ ({ wr with hops := 127 } : Packet).hops = 127
    ∧ (at' wr (.header 1)).err = .header 1 ∧ (at' wr (.corrected 2)).err = .corrected 2 ∧ (at' wr (.body 0)).err = .body 0
    ∧ ({ wr with xcls := true } : Packet).xcls = true ∧ node.escBusy .e 0 = false
    ∧ (let s : State := { node with rtr := { node.rtr with draining := 2 } }; s.listens .e = true ∧ s.rtr.draining.getLsbD 1 = true) := by decide +kernel

/-- Router-ready, with no coordinate known. -/
def early : State := { State.reset with pins := { Pins.reset with porstN := true }, up := { StartUp.reset with ready := true }, ctrl := [(0x38, 1)] }

/-- A COORD of a sender at (30, 30). -/
def coord30 (p : Port) : Arrival :=
  { port := p, pkt := Packet.mk' 0x11 2 0 0 0 ([30, 30] ++ List.replicate 30 0), err := .clean }

/-- An ENUM of die 5, 4 by `h`. -/
def enum5 (h : Byte) : Arrival := { port := .w, pkt := Packet.mk' 0x10 2 0 0 0 ([5, 0, 4, h] ++ List.replicate 28 0), err := .clean }

theorem test_met_CoordinatesAndIds :
    (∀ p ∈ [Port.n, .e, .s, .w], early.listens p = true) ∧ early.rtr.draining = 0 ∧ (coord30 .w).pkt.len = 32 ∧ (coord30 .w).pkt.payload.length = 32
    ∧ typeDefined (coord30 .w).pkt.ty = true ∧ ((coord30 .w).pkt.payload.getD 0 0).toNat % 32 < 31 ∧ early.up.xKnown = false ∧ early.up.yKnown = false
    ∧ early.is F.coordValid = false ∧ bit (early.g F.hint) 10 = false ∧ early.up.held = none
    ∧ (let s := { early.put F.coordY 30 with up := { early.up with yKnown := true } };
      s.listens .w = true ∧ s.up.xKnown = false ∧ s.up.yKnown = true ∧ s.g F.coordY = 30 ∧ s.is F.coordValid = false)
    ∧ (let s := { early.put F.coordX 30 with up := { early.up with xKnown := true } };
      s.listens .s = true ∧ s.up.yKnown = false ∧ s.g F.coordX = 30 ∧ s.g F.coordX ≠ 30 + 1)
    ∧ (enum5 4).pkt.len = 32 ∧ typeDefined (enum5 4).pkt.ty = true ∧ node.is F.coordValid = true ∧ node.is F.dieValid = true
    ∧ (let s := node.put F.dieValid 0;
      s.is F.coordValid = true ∧ s.is F.dieValid = false ∧ s.listens .w = true ∧ s.g F.coordX < 4 ∧ s.g F.coordY < 4)
    ∧ ((enum5 33).pkt.payload.getD 3 0).toNat % 64 = 33
    ∧ (let s := { early with up := { early.up with readyTicks := 2500 } }; s.up.ready = true ∧ s.up.readyTicks = 2500)
    ∧ (∀ p ∈ [Port.n, .e, .s, .w], ({ early with up := { early.up with creditSeen := 15 } } : State).up.creditSeen.getLsbD p.num = true) := by decide +kernel

/-- `p` alone in the input buffer of E. -/
def lone (p : Packet) : State := { node with rtr := { node.rtr with inq := [(.e, p, 2)] } }

theorem test_met_Routing :
    wr.ty ≠ 0x0B ∧ wr.ty ≠ 0x0E ∧ wr.ty ≠ 0x0D ∧ wr.dst.getLsbD 63 = false ∧ bits wr.dst.toNat 50 12 = node.g F.die ∧ node.g F.coordX < bits wr.dst.toNat 40 5
    ∧ bits wr.dst.toNat 40 5 < node.g F.dieW ∧ bits wr.dst.toNat 45 5 < node.g F.dieH ∧ wr.wpv = false ∧ node.portMode .e = 0
    ∧ bit (node.g F.portFail) 1 = false
    ∧ (let p : Packet := { wr with dst := 0x3FF8 };
      bits p.dst.toNat 40 5 = node.g F.coordX ∧ bits p.dst.toNat 45 5 = node.g F.coordY ∧ p.tohost = false ∧ p.xd = false ∧ (lone p).mustHold p = false
      ∧ (lone p).routable = true ∧ (lone p).isLink .e = false ∧ (lone p).rtr.inq = [(.e, p, 2)] ∧ (lone p).rtr.held = []
      ∧ p.xcls = false ∧ (lone p).rtr.ply = [] ∧ (lone p).rtr.plyWait = [] ∧ (lone p).rtr.ingress = []
      ∧ ([Port.n, .e, .s, .w, .l].all fun q => ((lone p).lnk q).inbound.isEmpty) = true) := by decide +kernel

/-- Page 0 open to every remote operation, ring 2 and the IMQ of C0 open. -/
def served : State := ((((node.put (F.pageRemote 0) 3).put (F.rEn 2) 1).put (F.rDbPerm 2) 3).put (F.rLog 2) 4).put (F.imqEn 0) 1

theorem test_met_RequestsServed :
    (let u := (node.fence 4); u.isFenced = true ∧ isSink wr = false ∧ offOf wr.dst < 0x400000)
    ∧ ({ wr with dst := 0x4000000000003FF8 } : Packet).dst.getLsbD 62 = true ∧ wr.dst.getLsbD 62 = false ∧ served.qe.bad = []
    ∧ served.inRun = true ∧ served.isFenced = false ∧ served.power < 2 ∧ offOf wr.dst + 8 ≤ benchBase ∧ served.remoteRangeOk 0x3FF8 8 3 false = true
    ∧ served.remoteRangeOk 0x3FF8 9 1 false = false ∧ node.remoteRangeOk 0x3FF8 8 1 false = false ∧ (∀ w ∈ eccWords 0x3FF8 8, served.eccOf w = .good)
    ∧ (let p := Packet.mk' 1 0 0x3FF8 8 0 []; p.ty = 1 ∧ p.aux.toNat % 512 = 8)
    ∧ (let p := Packet.mk' 5 0 0x3FF8 0 0 (List.replicate 16 1); p.ty = 5 ∧ offOf p.dst % 8 = 0)
    ∧ (served.is (F.rEn 2) = true ∧ (15 : Nat) < served.ringSize 2 ∧ served.g (F.rDbPerm 2) = 3 ∧ ¬ (16 : Nat) < served.ringSize 2)
    ∧ 32 ≤ ({ served with qe := { Queue.reset with db := List.replicate 32 (2, 1) } } : State).qe.db.length
    ∧ ({ served with qe := { Queue.reset with db := List.replicate 31 (2, 1) } } : State).qe.db.length < 32
    ∧ served.is (F.imqEn 0) = true ∧ served.is (F.imqHostOnly 0) = false ∧ served.is (F.imqEn 1) = false ∧ 0 < served.g (F.imqLim 0)
    ∧ (served.put (F.imqLim 0) 1).g (F.imqLim 0) ≤ ([someMsg .c0].filter fun e => e.ctx = .c0).length := by decide +kernel

def loading : State :=
  { nodeX fun x => { x with wait := .load 7 0x10000000000 ⟨8, false, 1, 0⟩ false } with qe := { Queue.reset with outst := [(7, .load .c0)] } }

def budget (gen : Byte) (host : Bool) : Packet :=
  { Packet.mk' 0x0F 2 0 0 0 ([gen, 0, 15, 0, 0, 0, 0, 0] ++ toLe 4 1 ++ toLe 4 0 ++ toLe 4 25 ++ List.replicate 12 0) with host := host }

def fenceCmd (op nonce : Byte) (host : Bool) : Packet :=
  { Packet.mk' 0x0A 2 0 0 0 ([op, 0, 0, 0, 0, 0, 0, 0] ++ [nonce, 0, 0, 0, 0, 0, 0, 0] ++ List.replicate 16 0) with host := host }

theorem test_met_BlockPackets :
    (node.fence 4).isFenced = true ∧ node.isFenced = false ∧ node.inRun = true ∧ node.power < 2 ∧ node.qe.outst = []
    ∧ (let p := Packet.mk' 8 0 0 (7 * 2 ^ 17) 1 []; p.ty = 8 ∧ bits p.aux.toNat 17 5 = 7)
    ∧ ({ node with qe := { Queue.reset with outst := [(7, .store .c0)] } } : State).ownerOf 7 = some (.store .c0)
    ∧ loading.ownerOf 7 = some (.load .c0) ∧ (loading.ctx .c0).wait = .load 7 0x10000000000 ⟨8, false, 1, 0⟩ false ∧ loading.power < 2
    ∧ (let b := (budget 1 true).payload;
      (budget 1 true).host = true ∧ node.is F.bGenValid = false ∧ b.length = 32 ∧ leNat ((b.drop 2).take 1) < 16 ∧ leNat ((b.drop 8).take 4) = 1
      ∧ leNat ((b.drop 16).take 4) = 25 ∧ (∀ i, i < 12 → b.getD (20 + i) 0 = 0))
    ∧ (budget 1 false).host = false ∧ node.is F.bSrcValid = false
    ∧ (1 + 65536 - ((node.put F.bGen 0x8002).put F.bGenValid 1).g F.bGen) % 65536 = 32767
    ∧ node.g F.obsAccept = 0 ∧ (node.put F.obsAccept 2).g F.obsAccept ≠ 0 ∧ (fenceCmd 1 1 true).host = true ∧ (node.put F.hostOk 1).is F.hostOk = true ∧ node.g F.fcNonce < 1
    ∧ (node.put F.fcNonce 1).g F.fcNonce ≥ 1 ∧ node.is F.fcKeyValid = false ∧ (node.put F.rxEn 1).is F.rxEn = true := by decide +kernel

/-- C0 waits for code; its sector arrives under the tag it waits for, and the next one under another. -/
theorem test_met_BlockPackets_code :
    (let s := (nodeX fun x => { x with pc := 0x10000000100, wait := .fetch 7 0x10000000100 0 }).await 7 (.code .c0 0x10000000100);
      s.isFenced = false ∧ s.power < 2 ∧ s.ownerOf 7 = some (.code .c0 0x10000000100)
      ∧ (s.ctx .c0).wait = .fetch 7 0x10000000100 0) := by decide +kernel

theorem test_met_BlockPackets_mac :
    (let s := node.put F.fcKeyValid 1; let b := (fenceCmd 1 1 false).payload;
      s.is F.fcKeyValid = true
      ∧ (hmac384 ((List.range 4).flatMap fun j => toLe 8 (s.g (F.fcKey j))) (slice b 0 16 ++ toLe 4 s.self.toNat)).take 16 ≠ slice b 16 16) := by
  decide +kernel

/-- `h` alone in front of output E. -/
def front (h : Held) : State := { node with rtr := { node.rtr with held := [h] } }
def sending (branch : Bool) (ticks : Nat) : Held := { pkt := wr, inp := .l, out := .e, branch := branch, sent := 0, owed := 0, ticks := ticks, cls1 := false, drop := 0 }
def inst1 (out : Nat) (l : List (Port × Packet)) : PlyInst :=
  { entry := 3, conf := BitVec.ofNat 64 (out * 2 ^ 17 + 5 * 2 ^ 32), inst := 9, inputs := l, age := 5, spoilt := [] }

theorem test_met_RouterEvents :
    node.pins.porstN = true ∧ node.portMode .e = 0
    ∧ (let s := { front (sending false 0) with rtr := { (front (sending false 0)).rtr with credits := [(4, 4)] } };
      s.sends .e = true ∧ flits wr + 3 ≤ tget 0 s.rtr.credits 4 ∧ wr.xcls = false ∧ bit (s.g F.portFail) 1 = false ∧ stillB { s with rtr := { s.rtr with held := [] } } = true)
    ∧ tget 0 (front (sending false 0)).rtr.credits 4 < flits wr + 3 ∧ node.sends .l = false
    ∧ (let s := ((front { sending false 0 with out := .w }).put F.pmW 1).put (F.lInsvc 3) 1;
      s.sends .w = true ∧ s.portMode .w = 1 ∧ s.is (F.lInsvc 3) = true ∧ flits wr + 3 ≤ tget 0 { s with rtr := { s.rtr with credits := [(12, 4)] } }.rtr.credits 12)
    ∧ (let h := sending true (max 1 (node.g F.mcHold) + 1);
      h.out = .e ∧ h.branch = true ∧ h.sent = 0 ∧ max 1 ((front h).g F.mcHold) < h.ticks ∧ tget 0 (front h).rtr.credits 4 < flits wr + 3)
    ∧ (∀ e ∈ [(4, [(Port.e, wr)]), (1, [(Port.e, wr)]), (2, [(Port.e, wr)]), (4, [])],
      let h := inst1 e.1 e.2; let s : State := ({ node with rtr := { node.rtr with ply := [h] } } : State).put F.pmS 1;
      s.rtr.ply = h :: [] ∧ h.entry = (3 : BitVec 5).toNat ∧ max 1 (bits h.conf.toNat 32 16) ≤ h.age ∧ bits h.conf.toNat 17 3 = e.1 ∧ h.spoilt = []
      ∧ s.portMode .e = 0 ∧ s.portMode .s ≠ 0)
    ∧ node.is F.rptValid = false ∧ stillB node = true
    ∧ (let s := (node.put F.rptValid 1).put (F.recValid 31) 1;
      s.is F.rptValid = true ∧ s.is F.dieValid = true ∧ s.up.ready = true ∧ s.is (F.recValid 31) = true ∧ s.is (F.recSent 31) = false
      ∧ (∀ j, j < 31 → s.is (F.recValid j) = false))
    ∧ (let s := { node with rtr := { node.rtr with drainEnd := 2 } }; s.rtr.drainEnd.getLsbD 1 = true ∧ bit (s.g F.portFail) 1 = false) := by decide +kernel

/-- A node with a chip link at W, in state `n`, all four lanes in use. -/
def linked (n : Nat) (f : LinkPort → LinkPort) : State :=
  let s := ((((node.put F.pmW 1).put F.coordX 3).put (F.lState 3) n).put (F.lMask 3) 0xF).put (F.lHealthy 3) 0xF
  s.setLnk .w (f { LinkPort.reset with rstN := true })

def txp : TxPacket := { pkt := wr, flits := toFlits wr, started := false, last := none, owed := 1, esc := false }

/-- The ALIGN word of lane 0 under mask 1. -/
def align0 : LaneWord := some (BitVec.ofNat 256 (leNat [0x4C, 0x4E, 0x4B, 0x41, 0, 1]))

theorem test_met_LinkEvents :
    (linked 5 id).pins.porstN = true ∧ (linked 5 id).isLink .w = true ∧ (linked 0 id).linkSt .w ≠ 1
    ∧ (∀ e ∈ [(1, 25), (7, 25), (3, 250), (4, 2500), (6, 2750)],
      (linked e.1 fun x => { x with timer := e.2 }).linkSt .w = e.1 ∧ ((linked e.1 fun x => { x with timer := e.2 }).lnk .w).timer = e.2
      ∧ ((linked e.1 fun x => { x with timer := e.2 - 1 }).lnk .w).timer < e.2)
    ∧ (let s := linked 2 fun x => { x with retired := 8, okTicks := [(0, 25)] }; let y := s.lnk .w
      y.rstN = true ∧ (linked 0 fun x => { x with rstN := false }).lnk .w = { y with rstN := false, retired := 0, okTicks := [] }
      ∧ (∃ l ∈ lanesOf (healthyOf (y.lstat ||| 0xF00F) &&& ~~~y.sick &&& ~~~y.retired), 25 ≤ tget 0 (y.okTicks.filter fun e => (healthyOf 0xF00F).getLsbD e.1) l))
    ∧ (∀ e ∈ [(3, 15), (3, 14), (6, 15)], let s := linked e.1 fun x => { x with matched := e.2, lstat := 0x000F }; let y := s.lnk .w
      s.linkSt .w = e.1 ∧ y.matched = e.2 ∧ (e.1 = 3 ∨ y.matched < 16) ∧ lanesOf (y.healthy &&& ~~~y.retired) = [0] ∧ [align0].getD 0 none = align0
      ∧ y.usable &&& 1 = 1 ∧ y.usable &&& 2 = 0)
    ∧ ([none, none] : List LaneWord).all (fun w => decide (w = none)) = true
    ∧ (let s := linked 5 fun x => { x with nakOut := true, nakAge := 255, repAge := 255, replay := [⟨5, [], 1, 255⟩], wreq := true, wAge := 25 };
      max 1 (s.g (F.lRepTo 3)) ≤ (s.lnk .w).nakAge ∧ (s.lnk .w).replay = ⟨5, [], 1, 255⟩ :: [] ∧ (s.lnk .w).detaching = false ∧ (s.lnk .w).wack = false)
    ∧ ((linked 5 id).put (F.lRetTo 3) 255).g (F.lRetTo 3) ≤ 255 ∧ 254 < ((linked 5 id).put (F.lRetTo 3) 255).g (F.lRetTo 3) := by decide +kernel

theorem test_met_LinkEvents_lanes :
    (let s := (linked 5 id).put (F.lUncTh 3) 1;
      s.g (F.lUncTh 3) ≤ tget 0 (s.lnk .w).uncWin 1 + 1 ∧ (s.linkMask .w).getLsbD 1 = true ∧ (s.lnk .w).wreq = false ∧ (s.lnk .w).retired.getLsbD 1 = false
      ∧ lanesOf (s.linkMask .w &&& ~~~((1 : BitVec 4) <<< 1) &&& ~~~(s.lnk .w).retired) ≠ [] ∧ (s.lnk .w).hitless = false ∧ (s.lnk .w).limit = 0
      ∧ (s.put (F.lMask 3) 2).linkMask .w &&& ~~~((1 : BitVec 4) <<< 1) = 0)
    ∧ (linked 4 id).linkSt .w = 4 ∧ ((linked 6 fun x => { x with matched := 16 }).lnk .w).matched = 16 ∧ ((linked 6 id).lnk .w).matched < 16
    ∧ ((linked 5 fun x => { x with hitless := true }).lnk .w).hitless = true
    ∧ tget 0 ((linked 5 id).lnk .w).uncWin 1 + 1 < ((linked 5 id).put (F.lUncTh 3) 2).g (F.lUncTh 3)
    ∧ (7 : Nat) < ((linked 5 id).put (F.lCorTh 3) 8).g (F.lCorTh 3) ∧ ((linked 5 id).put (F.lCorTh 3) 8).g (F.lCorTh 3) ≤ 8 := by decide +kernel

theorem test_met_LinkEvents_windows :
    (let s := ((linked 5 fun x => { x with winTicks := 1024, crcWin := 3 }).put (F.lWin 3) 1).put (F.lCrcTh 3) 3;
      1024 * max 1 (s.g (F.lWin 3)) ≤ (s.lnk .w).winTicks ∧ s.g (F.lCrcTh 3) ≤ (s.lnk .w).crcWin)
    ∧ (let s := linked 5 fun x => { x with winTicks := 1024 }; (s.lnk .w).crcWin < (s.put (F.lCrcTh 3) 1).g (F.lCrcTh 3) ∧ (s.lnk .w).uncWin = [] ∧ (s.lnk .w).corWin = [])
    ∧ (let s := linked 5 fun x => { x with lstat := 0xFFFF };
      let hit (v : BitVec 16) := healthyOf (s.lnk .w).lstat &&& ~~~healthyOf ((s.lnk .w).lstat &&& v) &&& s.linkMask .w
      hit 0xFFFF = 0 ∧ hit 0x0FFF = 8 ∧ hit 0x0000 = 15)
    ∧ (let s := linked 5 fun x => { x with lstat := 0xFF0F, sick := 13 };
      let hit := healthyOf (s.lnk .w).lstat &&& ~~~healthyOf ((s.lnk .w).lstat &&& 0x0F0F) &&& s.linkMask .w
      hit = 8 ∧ s.linkMask .w &&& ~~~((s.lnk .w).lostNow ||| hit) ≠ 0 ∧ healthyOf ((s.lnk .w).lstat &&& 0x0F0F) &&& ~~~(s.lnk .w).sick &&& s.linkMask .w = 0) := by decide +kernel

theorem slice_tail {l : List Byte} {k : Nat} (h : l.length = k) (a b c d : Byte) : slice (l ++ [a, b, c, d]) k 4 = [a, b, c, d] := by
  subst h
  simp [slice, List.range_succ, List.getD_eq_getElem?_getD]

theorem field_tail {l : List Byte} {k : Nat} (h : l.length = k) (a b c d : Byte) : field (l ++ [a, b, c, d]) k 4 = leNat [a, b, c, d] := by
  rw [field, slice_tail h]

/-- A frame's right CRC, and a wrong one, whatever its header and payload. -/
theorem test_met_LinkFrames_crc (h : Nat) (pay : List Byte) :
    (∃ b, b.length = 4 ∧ field (toLe 8 h ++ pay ++ b) (8 + pay.length) 4 = frameCrc (toLe 8 h ++ pay))
    ∧ ∃ b, b.length = 4 ∧ field (toLe 8 h ++ pay ++ b) (8 + pay.length) 4 ≠ frameCrc (toLe 8 h ++ pay) := by
  have hl : (toLe 8 h ++ pay).length = 8 + pay.length := by
    rw [List.length_append]
    rfl
  have lt : frameCrc (toLe 8 h ++ pay) < 2 ^ 32 := by unfold frameCrc; exact BitVec.isLt _
  generalize frameCrc (toLe 8 h ++ pay) = n at *
  refine ⟨⟨toLe 4 n, rfl, ?_⟩, ?_⟩
  · rw [show toLe 4 n = [BitVec.ofNat 8 n, BitVec.ofNat 8 (n / 256), BitVec.ofNat 8 (n / 256 / 256), BitVec.ofNat 8 (n / 256 / 256 / 256)] from rfl,
      field_tail hl]
    simp only [leNat, BitVec.toNat_ofNat]
    omega
  · by_cases e : n = 0
    · exact ⟨[1, 0, 0, 0], rfl, by rw [field_tail hl, e]; decide⟩
    · exact ⟨[0, 0, 0, 0], rfl, by rw [field_tail hl]; exact fun k => e (by rw [← k]; decide)⟩

/-- No stream at a new mask, a criterion met in RETRAIN, seven bad frames in a row, and a detach whose frames have gone. -/
theorem test_met_LinkFrames_more :
    (let s := linked 5 id; s.rxAnew .w (s.lnk .w) ((s.lnk .w).tries []) = none)
    ∧ (let s := linked 6 fun x => { x with critNow := true }; s.linkSt .w = 6 ∧ (s.lnk .w).critNow = true)
    ∧ ((linked 5 fun x => { x with crcRun := 7 }).lnk .w).crcRun = 7 ∧ ((linked 5 fun x => { x with detaching := true, detSent := 3 }).lnk .w).detSent = 3 := by
  and_intros <;> decide +kernel

/-- A CAP payload of a partner of version 1 with 32 flits of every channel. -/
def capPay (rate : Byte) : List Byte := [1, 0xF, 1, rate] ++ toLe 4 0 ++ [1, 32, 32, 32] ++ List.replicate 244 0

theorem test_met_LinkFrames :
    (let s := linked 5 fun x => { x with expect := 4, rxMask := 1, rxRest := List.replicate 268 0 }; let old := (s.lnk .w).receive 1 []
      (s.rxTake .w old).isSome = true ∧ (s.rxTake .w { old with rxRest := [] }).isNone = true ∧ (List.replicate 256 (0 : Byte)).length = s.linkP .w
      ∧ field (toLe 8 (1 + 16 * 4)) 0 1 % 16 ≤ 3 ∧ BitVec.ofNat 12 (bits (1 + 16 * 4) 4 12) = ((s.lnk .w).expect : BitVec 12)
      ∧ ((4 : BitVec 12) - BitVec.ofNat 12 3).toNat ≤ 64 ∧ 64 < ((4 : BitVec 12) - BitVec.ofNat 12 5).toNat
      ∧ (s.lnk .w).crcWin + 1 < s.g (F.lCrcTh 3) ∧ (s.lnk .w).crcRun + 1 < 8 ∧ (s.lnk .w).retrain = false)
    ∧ (let s := linked 5 fun x => { x with wreq := true, wmask := 3, rxMask := 15 }; (s.lnk .w).wmask ≠ (s.lnk .w).rxMask
      ∧ (s.rxTake .w (LinkPort.receive { s.lnk .w with rxMask := 3, rxWords := [], rxPos := 0, rxRest := [] } 3
        (List.replicate 5 [some 0, some 0, none, none]))).isSome = true ∧ s.rxTake .w ((s.lnk .w).receive 15 []) = none)
    ∧ (linked 4 id).linkSt .w = 4 ∧ ((linked 4 id).lnk .w).capSent = false ∧ ((linked 4 id).lnk .w).capGot = false
    ∧ (linked 0 id).linkSt .w ≠ 5 ∧ (linked 0 id).linkCapping .w = false
    ∧ ((capPay 0).length = 256 ∧ 1 ≤ field (capPay 0) 0 1 % 4 ∧ field (capPay 0) 3 1 = b2n ((linked 4 id).lnk .w).rate
      ∧ (∀ k, k < 4 → field (capPay 0) (8 + k) 1 ≠ 0) ∧ field (capPay 1) 3 1 ≠ b2n ((linked 4 id).lnk .w).rate)
    ∧ (let s := (linked 5 fun x => { x with replay := [⟨4, [], 1, 0⟩, ⟨5, [], 1, 0⟩] }).put (F.lVer 3) 1;
      s.g (F.lVer 3) = 1 ∧ (s.lnk .w).replay = [⟨4, [], 1, 0⟩] ++ ⟨5, [], 1, 0⟩ :: [])
    ∧ flitCount ((toFlits wr).headD 0) ≤ (toFlits wr).length ∧ ¬ flitCount ((toFlits { wr with len := 64 }).headD 0) ≤ 1
    ∧ (let s := (linked 5 fun x => { x with packets := [txp], rxCred := [(0, 6)] }).put (F.lVer 3) 1;
      (s.lnk .w).packets = [txp] ∧ txp.flits.length = 1 ∧ txp.pkt.xcls = false ∧ txp.started = false ∧ flits wr + 5 + 0 ≤ tget 0 (s.lnk .w).rxCred 0 + 0 ∧ 1 ≤ s.g (F.lRepMax 3))
    ∧ (let s := linked 5 id;
      s.reaches .host (F.lk 3 0) true = true ∧ s.mayWrite (s.accOf .host) (F.lk 3 0) = true ∧ (s.lnk .w).detaching = false
      ∧ (0 : BitVec 4) &&& s.linkMask .w &&& ~~~(s.lnk .w).retired = 0) := by decide +kernel

def desc (ty : Nat) (w : Nat → Nat) : List Byte := (List.range 64).map fun k => BitVec.ofNat 8 (if k = 0 then 2 + 16 * ty else w k)

/-- Ring 2 executing a descriptor. -/
def executing (d : List Byte) (e : Option DescEnd) : State :=
  served.setRing 2 { Ring.reset with exec := some { desc := d, index := 5, ticks := 16, energy := 600, est := 3, eng := Engine.fresh, ended := e } }

/-- Ring 2 with a descriptor to fetch at `a`. -/
def fetching (a : Nat) : State := (served.put (F.rTail 2) 1).setReg 0x20800 (BitVec.ofNat 64 a)

theorem test_met_QueueEvents :
    node.inRun = true ∧ node.nodeRuns = true ∧ node.qe.db = [] ∧ ({ node with qe := { Queue.reset with db := [(2, 1)] } } : State).qe.db = (2, 1) :: []
    ∧ (let s := served.put (F.rTail 2) 1; let r := s.ring (2 : BitVec 4).toNat;
      s.is (F.rEn 2) = true ∧ s.g (F.rHead 2) ≠ s.g (F.rTail 2) ∧ r.exec = none ∧ r.head = none ∧ r.fetching = none ∧ s.is (F.rHeld 2) = false
      ∧ s.place (s.ringBase 2) = .lm 0 ∧ s.rangeOk (s.ringCtx 2) 1 0 64 = true ∧ s.is (F.rEn 3) = false)
    ∧ (let s := (served.put (F.rTail 2) 1).put (F.rBase 2) (0x4000 / 64); s.place (s.ringBase 2) = .lm 0x4000 ∧ s.rangeOk (s.ringCtx 2) 1 0x4000 64 = false)
    ∧ (let s := (served.put (F.rTail 2) 1).put (F.rBase 2) (2 ^ 40 / 64); s.place (s.ringBase 2) = .node (2 ^ 40))
    ∧ (let s := (served.put (F.rTail 2) 1).put (F.rBase 2) (2 ^ 63 / 64); s.place (s.ringBase 2) = .ext (2 ^ 63))
    ∧ (∀ ty, ty < 8 → dType (desc ty fun _ => 0) = ty)
    ∧ (let d := desc 2 fun k => if k = 25 then 1 else if k = 33 then 1 else 0;
      field d 36 2 = 0 ∧ field d 32 4 = 256 ∧ (executing d none).place (BitVec.ofNat 64 (field d 24 8)) = .lm 0x100)
    ∧ (let d := desc 3 fun k => if k = 16 ∨ k = 20 then 1 else if k = 57 then 3 else 0; let l := layoutAt d 32; let t := layoutAt d 48;
      rectX0 l.rect = 0 ∧ rectY0 l.rect = 0 ∧ rectX0 t.rect = 0 ∧ rectY0 t.rect = 0 ∧ field d 16 4 = 1 ∧ field d 20 4 = 1)
    ∧ (let d := desc 3 fun k => if k = 32 then 1 else 0; served.g F.coordX < rectX0 (layoutAt d 32).rect ∨ rectX1 (layoutAt d 32).rect < served.g F.coordX)
    ∧ (let d := desc 0 fun k => if k = 1 then 1 else 0; dMbx d = false ∧ dCrec d = 0 ∧ dCq d = true ∧ (served.cq .c0).length < 32)
    ∧ (let d := desc 1 fun k => if k = 1 then 2 else 0; dMbx d = true ∧ served.mboxOwned (dMslot d) .c0 = true ∧ served.mboxBusy (dMslot d) = false ∧ dCq d = false)
    ∧ (let d := desc 0 fun k => if k = 9 then 8 else 0; dCrec d ≠ 0 ∧ served.place (dCrec d) = .lm 0x800 ∧ served.rangeOk .c0 1 0x800 16 = true ∧ dMbx d = false)
    ∧ (let d := desc 1 fun k => if k = 2 then 4 else 0; dWexp d ≠ 0 ∧ 2 ^ dWexp d ≤ 16 ∧ dMbx d = false ∧ dCrec d = 0)
    ∧ (let s := ({ node with qe := { Queue.reset with db := [(2, 1)], timers := [(0, 9)] } } : State).put F.staleTicks 9;
      s.qe.db ≠ [] ∧ s.g F.staleTicks ≠ 0 ∧ s.g F.staleTicks ≤ tget 0 s.qe.timers 0) := by decide +kernel

/-- A DMA of 64 bytes, whose ends are given by their bytes. -/
def dmaDesc (src dst : Nat → Nat) : List Byte :=
  desc 2 fun k => if 16 ≤ k ∧ k < 24 then src (k - 16) else if 24 ≤ k ∧ k < 32 then dst (k - 24) else if k = 32 then 64 else 0

/-- The ends of a DMA: own memory that S may reach and may not, a register, external space. -/
theorem test_met_QueueEvents_dma :
    (let d := dmaDesc (fun k => if k = 1 then 0x40 else 0) fun k => if k = 4 then 1 else 0; let s := executing d none;
      dType d = 2 ∧ field d 36 2 = 0 ∧ field d 32 4 = 64 ∧ s.dmaPlace (field d 16 8) = some (.inl 0x4000) ∧ s.dmaPlace (field d 24 8) = none
      ∧ s.dmaOk (s.ringCtx 2) 0x4000 64 = false ∧ s.dmaOk (s.ringCtx 2) 0 64 = true ∧ (0 : Nat) / 256 = (0 + 64 - 1) / 256)
    ∧ (let s := { executing (dmaDesc (fun _ => 0) fun k => if k = 1 then 1 else 0) none with ecc := [(3, .bad)] };
      s.dmaPlace 0 = some (.inl 0) ∧ s.dmaPlace 0x100 ≠ none ∧ 3 ∈ eccWords 0 64 ∧ s.eccOf 3 = .bad)
    ∧ (let d := dmaDesc (fun _ => 0) fun k => if k = 7 then 0x80 else 0; let s := executing d none; s.dmaPlace (field d 16 8) = some (.inl 0)
      ∧ s.dmaPlace (field d 24 8) = some (.inr 0x8000000000000000) ∧ (0x8000000000000000 : Word).toNat % 256 + 64 ≤ 256)
    ∧ (let d := dmaDesc (fun k => if k = 7 then 0x80 else 0) fun k => if k = 1 then 0x40 else 0; let s := executing d none;
      s.dmaPlace (field d 16 8) = some (.inr 0x8000000000000000) ∧ s.dmaPlace (field d 24 8) = some (.inl 0x4000)) := by
  and_intros <;> decide +kernel

theorem test_met_QueueEvents_refused :
    (let d := desc 3 fun k => if k = 48 ∨ k = 16 ∨ k = 20 then 1 else if k = 57 then 3 else 0; let s := executing d none;
      dType d = 3 ∧ rectX0 (layoutAt d 32).rect = s.g F.coordX ∧ rectY0 (layoutAt d 32).rect = s.g F.coordY ∧ rectX0 (layoutAt d 48).rect ≠ s.g F.coordX
      ∧ field d 16 4 = 1 ∧ field d 20 4 = 1 ∧ s.dmaOk (s.ringCtx 2) (layoutAt d 32).base 1 = true)
    ∧ (let d := desc 3 fun k => if k = 16 ∨ k = 20 then 1 else if k = 41 then 0x40 else 0; let s := executing d none;
      dType d = 3 ∧ field d 16 4 = 1 ∧ s.dmaOk (s.ringCtx 2) (layoutAt d 32).base 1 = false)
    ∧ (let d := desc 4 fun k => if k = 17 then 0x40 else if k = 32 then 64 else 0; let s := executing d none;
      dType d = 4 ∧ field d 32 4 = 64 ∧ s.place (BitVec.ofNat 64 (field d 16 8)) = .lm 0x4000 ∧ s.dmaOk (s.ringCtx 2) 0x4000 64 = false)
    ∧ (let d := desc 5 fun k => if k = 25 then 0x40 else if k = 32 then 1 else 0; let s := executing d none;
      dType d = 5 ∧ field d 32 4 = 1 ∧ s.place (BitVec.ofNat 64 (field d 24 8)) = .lm 0x4000 ∧ s.dmaOk (s.ringCtx 2) 0x4000 1 = false) := by
  and_intros <;> decide +kernel

/-- C0 waits in WFE and nothing moves. -/
def resting : State := nodeX fun x => { x with wait := .wfe }

theorem test_met_SpindleEvents :
    State.reset.pins.porstN = false ∧ node.pins.porstN = true ∧ State.reset.inRun = false
    ∧ (node.put F.bucket 0).bucketLevel - ((node.put F.bucket 0).g F.resv : Int) ≤ 0
    ∧ (let d := desc 0 fun _ => 0; let s := ((served.put (F.rHeld 2) 1).put F.bucket 1).setRing 2 { Ring.reset with head := some d };
      (s.ring 2).head = some d ∧ 0 < s.bucketLevel - (s.g F.resv : Int) ∧ (∀ m, m < 16 → (s.candidate m = true ↔ m = 2)))
    ∧ node.is F.oppBusy = false ∧ node.is F.oppAuto = false
    ∧ (∀ v ∈ [550, 560], let s : State := ({ node with spn := { Spn.reset with ldoOn := true, oppTarget := 7 } } : State).put F.oppBusy 1 |>.put F.oppCur 7 |>.put F.vTarget v
      s.is F.oppBusy = true ∧ s.spn.ldoOn = true ∧ s.power < 2 ∧ s.spn.oppTarget.toNat ≤ s.g F.oppCur ∧ s.g F.vTarget = v ∧ (s.put F.oppCur 3).g F.oppCur < s.spn.oppTarget.toNat)
    ∧ (let s : State := { node with spn := { Spn.reset with ldoOn := true } };
      s.spn.stretch = false ∧ (0 : BitVec 10).toNat + s.g F.droopTh < s.g F.vTarget)
    ∧ (let s : State := { node with spn := { Spn.reset with ldoOn := true, stretch := true, devTicks := 4 } };
      4 ≤ s.spn.devTicks ∧ s.is F.oppBusy = false ∧ s.g F.vTarget + 60 < (1023 : BitVec 10).toNat ∧ s.isFenced = false ∧ (s.fence 1).isFenced = true) := by decide +kernel

theorem test_met_SpindleEvents_power :
    ((node.g F.soft : Int) ≤ ((node.g F.soft : Nat) : Int) ∧ node.g F.thCeil < 7 ∧ (0 : Int) < (node.g F.soft : Int) - 8 ∧ (0 : Int) < (node.g F.hard : Int) - 20
      ∧ (node.g F.trip : Int) ≤ (0x7FF : BitVec 12).toInt)
    ∧ (let s := ((node.put (F.cmpEn 3) 1).put (F.cmpVal 3) 5).put F.ltime 5; s.is (F.cmpEn 3) = true ∧ s.g (F.cmpVal 3) ≤ s.g F.ltime ∧ s.spn.matched.getLsbD 3 = false
      ∧ s.g (F.cmpPeriod 3) = 0 ∧ (s.put (F.cmpPeriod 3) 1).g (F.cmpPeriod 3) ≠ 0)
    ∧ node.spn.epochTicks < max 25 (node.g F.epoch)
    ∧ (let s := { node.put F.epoch 25 with spn := { Spn.reset with epochTicks := 25 } }; max 25 (s.g F.epoch) ≤ s.spn.epochTicks)
    ∧ (let s := { node with rtr := { node.rtr with idleTicks := max 1 (node.g F.meshHold) } }; s.rtr.wakeIn = 0 ∧ s.meshKept = false ∧ (∀ i, i < 8 → s.is (F.monEn i) = false)
      ∧ (∀ j, j < 16 → s.is (F.pcEn j) = false) ∧ max 1 (s.g F.meshHold) ≤ s.rtr.idleTicks)
    ∧ (let s := (resting.put F.maxAuto 2).put F.n2Dwell 0;
      s.g F.maxAuto = 2 ∧ s.g F.n2Dwell ≤ s.spn.dwell ∧ s.inRun = true ∧ s.isFenced = false ∧ s.power < 2 ∧ s.cx.wait = .wfe ∧ s.cx.latch = false ∧ s.engBusy = 0
      ∧ s.core.chestOp = none ∧ s.mx.drain = none ∧ (∀ e ∈ s.qe.outst, coreOwner e.2 = false) ∧ s.qe.db = [] ∧ s.rtr.ingress = [])
    ∧ ((resting.put F.psCmd 4).put F.psPend 1).g F.psCmd = 4 ∧ ((resting.put F.psCmd 4).put F.psPend 1).is F.psPend = true
    ∧ (∀ p ∈ [2, 3, 4], (let s := ({ resting with spn := { Spn.reset with wakeSrc := 5 } } : State).put F.psState p;
      s.power = p ∧ s.spn.wakeSrc ≠ 0 ∧ s.isFenced = false ∧ s.spn.pwrLow = false)) := by decide +kernel

theorem test_met_StartUpAndReset :
    State.reset.pins.porstN = false
    ∧ (let s := { State.reset with pins := { Pins.reset with porstN := true, fuseReq := true }, up := { StartUp.reset with fuseTicks := 25000 } };
      s.pins.porstN = true ∧ s.pins.fuseReq = true ∧ s.up.repair = [] ∧ 25000 ≤ s.up.fuseTicks ∧ s.up.fuseFailed = false)
    ∧ (let entry (m e : Nat) : Nat := leNat (List.replicate 252 (0 : Byte)) / 2 ^ (11 * (16 * m + e)) % 2 ^ 11; ∀ m, m < 8 → ∀ e, e < 16 → entry m e / 1024 ≠ 1)
    ∧ node.up.pllLost = false ∧ node.isFenced = false
    ∧ (let s := { early with up := StartUp.reset };
      s.up.ready = false ∧ (∀ p ∈ [Port.n, .e, .s, .w], s.isLink p = false) ∧ s.portMode .w = 0 ∧ s.portMode .s = 0 ∧ (s.put F.pmW 2).portMode .w ≠ 0
      ∧ ((s.put F.pmW 2).put F.pmS 2).portMode .s ≠ 0 ∧ s.is F.coordValid = false ∧ bit (s.g F.hint) 10 = false)
    ∧ (early.g F.stage = 1 ∧ early.up.phase = .off ∧ early.isFenced = false ∧ early.is F.memReady = false)
    ∧ (let s := ((node.put F.stage 2).put F.bootBase 255).put F.bootLen 0x3F00;
      s.reaches .host 0x68 true = true ∧ s.mayWrite (s.accOf .host) 0x68 = true ∧ s.g F.bootLen % 128 = 0 ∧ s.g F.bootBase * 0x4000 + s.g F.bootLen ≤ benchBase
      ∧ (s.put F.bootLen 0x3F80).g F.bootBase * 0x4000 + (s.put F.bootLen 0x3F80).g F.bootLen > benchBase)
    ∧ (node.reaches .host 0x20 true = true ∧ node.mayWrite (node.accOf .host) 0x20 = true ∧ (∀ n, n < 16 → node.is (F.rEn n) = false) ∧ served.is (F.rEn 2) = true)
    ∧ ((node.put F.stage 3).g F.stage = 3 ∧ (node.put F.stage 3).nodeOn = true)
    ∧ (let s := { node with up := { node.up with phase := .requested } }; s.up.phase = .requested ∧ bits (s.g F.suFault) 0 6 = 0 ∧ bit (s.g F.suFault) 7 = false
      ∧ bits ((s.put F.suFault 1).g F.suFault) 0 6 ≠ 0) := by decide +kernel

theorem test_met_StartUpAndReset_release :
    (let s := { (node.fence 5) with up := { node.up with phase := .holding } }; s.up.phase = .holding ∧ s.g F.reason ≠ 2 ∧ s.up.pllLost = false ∧ s.up.testMode = false)
    ∧ (let s := { (node.fence 2) with up := { node.up with phase := .fenced }, spn := { Spn.reset with cool := 10 } }; s.up.phase = .fenced ∧ s.g F.reason = 2 ∧ 10 ≤ s.spn.cool)
    ∧ early.g F.stage ≠ 0 ∧ State.reset.g F.stage = 0 ∧ (node.put F.secLock 1).is F.dbgEn = false ∧ ¬ (0x10000 < 0x10000 ∨ (0x80200 ≤ 0x10000 ∧ 0x10000 < 0x80400))
    ∧ node.mayWrite .test 0x10008 = true ∧ node.ownRefuses 0x10008 0 [(0x10008, 0)] = false ∧ node.mayWrite .test 0x68 = false
    ∧ (node.put F.stage 2).ownRefuses 0x68 1 [(0x68, 1)] = true
    ∧ (node.put F.psState 2).power ≥ 2 ∧ node.power < 2
    ∧ (let s := (node.put F.floor 1).put F.hold 0; s.is F.floor = true ∧ s.pins.pwrWarnN = true ∧ s.g F.hold ≤ s.spn.holdTicks)
    ∧ (node.up.ran = false ∧ node.power ≠ 4 ∧ (∀ e, e < 16 → tget noCol node.up.repair (16 * 7 + e) = noCol)) := by decide +kernel

/-- The node-logic domain on and off, a failing word, N4, no PLL_REF, a start-up fault, and TRST_N low. -/
theorem test_met_StartUpAndReset_guards :
    (let s : State := { node with spn := { Spn.reset with ldoOn := true } };
      s.pins.porstN = true ∧ s.pins.trstN = true ∧ s.up.ran = false ∧ s.spn.ldoOn = true)
    ∧ Spn.reset.ldoOn = false ∧ ({ node with ecc := [(3, .bad)] } : State).eccOf (24 / 8) = .bad ∧ (node.put F.psState 4).power = 4
    ∧ ({ node with up := { node.up with pllLost := true } } : State).up.pllLost = true ∧ bits ((node.put F.suFault 4).g F.suFault) 0 6 ≠ 0
    ∧ ({ node with pins := { node.pins with trstN := false } } : State).pins.trstN = false
    ∧ ({ node.pins with tap := .shiftDr } : Pins).trstN = true ∧ (({ node.pins with tap := .shiftDr } : Pins).tck (false, true)).tap = .shiftDr := by decide +kernel

theorem image_crc {z : List Byte} (hz : z.length = 252) (a b c d : Byte) : fuseCrcOk (z ++ [a, b, c, d])
    = decide (leNat [a, b, c, d] = (crc32 Config.fuseCrcInit Config.fuseCrcReflect Config.fuseCrcXor z).toNat) := by
  simp only [fuseCrcOk, slice_tail hz, List.take_left' hz]

/-- Both outcomes of the CRC are met by an image's last four bytes, whatever the CRC's form. -/
theorem test_met_StartUpAndReset_fuse (z : List Byte) (hz : z.length = 252) :
    (∃ t, t.length = 4 ∧ fuseCrcOk (z ++ t) = true) ∧ ∃ t, t.length = 4 ∧ fuseCrcOk (z ++ t) = false := by
  have le (c : BitVec 32) : leNat (toLe 4 c.toNat) = c.toNat := by
    have := c.isLt
    simp only [toLe, leNat, BitVec.toNat_ofNat]
    omega
  generalize hc : crc32 Config.fuseCrcInit Config.fuseCrcReflect Config.fuseCrcXor z = c
  refine ⟨⟨toLe 4 c.toNat, rfl, ?_⟩, ?_⟩
  · have e := image_crc hz (BitVec.ofNat 8 c.toNat) (BitVec.ofNat 8 (c.toNat / 256)) (BitVec.ofNat 8 (c.toNat / 256 / 256))
      (BitVec.ofNat 8 (c.toNat / 256 / 256 / 256))
    rw [hc] at e
    exact e.trans (decide_eq_true (le c))
  · have e (x : Byte) : fuseCrcOk (z ++ [x, x, x, x]) = decide (leNat [x, x, x, x] = c.toNat) := by rw [image_crc hz, hc]
    by_cases h : c.toNat = 0
    · exact ⟨[1, 1, 1, 1], rfl, by rw [e, h]; decide⟩
    · exact ⟨[0, 0, 0, 0], rfl, by rw [e]; exact decide_eq_false fun k => h (by rw [← k]; decide)⟩

theorem test_met_RegisterRules :
    node.reaches .host 0x68 true = true ∧ node.mayWrite (node.accOf .host) 0x68 = false ∧ regInfo 0x90000 ≠ none ∧ (kernelReg 0x90000).isNone = true
    ∧ regInfo 0x10008 ≠ none ∧ regInfo (0xFFF8 : BitVec 20).toNat = none
    ∧ ([0x10000, 0x10020, 0x100B0, 0x20000, 0x30000, 0x30800, 0x40000, 0x50010, 0x80008, 0x90000, 0xA0000, 0xA0100].all fun o =>
      (regInfo o).isSome && node.reaches .core o true && node.mayWrite (node.accOf .core) o) = true
    ∧ (node.reaches .host 0x20 true = true ∧ node.mayWrite (node.accOf .host) 0x20 = true) ∧ State.reset.reaches .node 0x30028 false = false
    ∧ State.reset.canIssue = false ∧ node.canIssue = true ∧ (node.put F.stage 1).serveCtrl 0x30028 8 true = .fenced ∧ node.serveCtrl 0x30028 8 true = .ok
    ∧ node.reaches .host 0x30070 false = true ∧ node.mayRead (node.accOf .host) 0x30070 = true ∧ (∃ i, regInfo 0x30070 = some i ∧ i.rc ≠ 0)
    ∧ kernelReg 0x30070 = none ∧ linkOf 0x30070 = none ∧ node.addedNow 0x30070 = 0
    ∧ (0x10004 : BitVec 20).toNat % 8 ≠ 0 ∧ 0xB0000 ≤ (0xB0000 : BitVec 20).toNat ∧ node.serveCtrl 0x10004 8 true = .ok
    ∧ node.serveCtrl 0xB0000 8 true = .ok ∧ (State.put node F.psState 3).serveCtrl 0x50000 8 true = .refused := by
  refine ⟨?_, ?_, ?_, ?_, ?_, ?_, ?_, ?_, ?_, ?_, ?_, ?_, ?_, ?_, ?_, ⟨_, rfl, ?_⟩, ?_, ?_, ?_, ?_, ?_, ?_, ?_, ?_⟩ <;> decide +kernel

/-- C0 at M writes its own registers; the host writes what it may. -/
theorem test_met_RegisterCommands :
    ([0x10010, 0x10028, 0x10040, 0x10130, 0x20018, 0x20808, 0x209F0, 0xA0028, 0xA0060].all fun o => node.reaches .host o true && node.mayWrite (node.accOf .host) o) = true
    ∧ ([0x20250, 0x20240, 0x90040, 0x90078, 0x90010, 0x90020, 0x90018, 0x90100, 0x90128, 0x80040, 0x81200].all fun o =>
      node.reaches .core o true && node.mayWrite (node.accOf .core) o) = true
    ∧ (let s := executing (desc 1 fun _ => 0) none; let s := (s.put (F.kFull 0) 1).put (F.kRing 0) 2;
      s.is (F.kFull 0) = true ∧ s.is (F.kExpired 0) = false ∧ (s.ring (s.g (F.kRing 0))).exec.isSome = true ∧ s.core.cur = .c0 ∧ 1 ≤ s.cx.pl.toNat)
    ∧ ((node.put (F.kFull 0) 1).put (F.kExpired 0) 1).is (F.kExpired 0) = true ∧ node.cq .c0 = [] ∧ node.reaches .core 0x20218 false = true
    ∧ ({ node with qe := { Queue.reset with cq0 := [9] } } : State).cq .c0 = 9 :: [] ∧ node.fltRx = [] ∧ node.is (F.keyValid 0) = false
    ∧ (node.put (F.keyValid 0) 1).is (F.keyValid 0) = true ∧ (node.put F.extBusy 1).is F.extBusy = true ∧ node.is F.secLock = false ∧ node.is F.dbgEn = false
    ∧ (node.put F.secLock 1).is F.secLock = true := by decide +kernel

/-! ### WellFormed refuses what no port or encoding carries -/

theorem test_wf_refuses :
    (Instr.fuseImage (List.replicate 255 0)).wf = false ∧ (Instr.write (at' { wr with len := 9 } .clean)).wf = false
    ∧ (Instr.dataFrame .n [[none, none, none, none], [none, none, none]]).wf = false ∧ (Instr.alignWord .n [none]).wf = false := by decide +kernel

theorem test_wf_admits :
    (Instr.fuseImage (List.replicate 256 0)).wf = true ∧ (Instr.write (at' wr .clean)).wf = true ∧ (Instr.nullFrame .n (List.replicate 9 (List.replicate 4 (some 0)))).wf = true
    ∧ (Instr.detachFrame .n []).wf = true ∧ (Instr.write (at' { wr with len := 300 } .clean)).wf = true := by decide +kernel

/-- A command that is not well formed stops the step, and by name. -/
theorem test_step_stops : (match step { node with pending := [.fuseImage []] } with | .fault r => decide (r = .illFormed "FUSE_IMAGE") | _ => false) = true := by
  decide +kernel

/-- The front command runs on the node with the queue's rest. -/
theorem test_step_front : (after (step { node with pending := [.droopEnd, .memReady] })).pending = [.memReady] := by decide +kernel

/-! ### Encodings: the three words of chapter 04's worked example, and the WSPILL of chapter 05's -/

theorem test_words :
    (⟨2, 23, 18, 7, true⟩ : FrameA).parcel 0x01 0x00 = 0x406F23C0 ∧ (⟨0, 2, 0x3FFF4⟩ : FrameC).parcel 0x30 = 0x0C0BFFF4
    ∧ fz.parcel 0x39 0x00 = 0x0E400000 ∧ fz.parcel 0x3E 0x00 = 0x0F800000 := by decide

/-! ### One step of an instruction -/

def run1 (i : Instr) (s : State) : Ctx := (after (exec i s)).cx

/-- 2^64 - 1 plus 1 under .f: Z and C set, N and V clear (R107). -/
theorem test_add_wraps : (let x := run1 (.add { fa with f := true }) (nodeX (regs 0xFFFFFFFFFFFFFFFF 1)); (x.rd 1, x.n, x.z, x.cf, x.v, x.pc)) = (0, false, true, true, false, 4) := by
  decide +kernel

/-- The most negative number minus 1: C is set (no borrow) and V is set. -/
theorem test_sub_overflows : (let x := run1 (.sub { fa with f := true }) (nodeX (regs 0x8000000000000000 1)); (x.rd 1, x.n, x.z, x.cf, x.v))
    = (0x7FFFFFFFFFFFFFFF, false, false, true, true) := by decide +kernel

/-- SHL by 65 shifts by 1; the bit out is C. -/
theorem test_shl : (let x := run1 (.shl { fa with f := true }) (nodeX (regs 0xC000000000000001 65)); (x.rd 1, x.cf, x.n)) = (0x8000000000000002, true, true) := by
  decide +kernel

/-- R115: a zero divisor gives all ones, and the dividend as remainder; -2^63 by -1 gives -2^63 and 0. -/
theorem test_div : ((run1 (.div fa) (nodeX (regs 5 0))).rd 1, (run1 (.rem fa) (nodeX (regs 5 0))).rd 1,
    (run1 (.div fa) (nodeX (regs 0x8000000000000000 0xFFFFFFFFFFFFFFFF))).rd 1, (run1 (.rem fa) (nodeX (regs 0x8000000000000000 0xFFFFFFFFFFFFFFFF))).rd 1)
    = (0xFFFFFFFFFFFFFFFF, 5, 0x8000000000000000, 0) := by decide +kernel

/-- Chapter 04, two products in flight: at position 2 MPL still reads 0x2A; at position 4 the product -15 is visible. -/
theorem test_mpl :
    (run1 (.movs (fb 0x020)) (nodeX fun x => { x with mpl := 0x2A, prods := [⟨2, some 63, some 0⟩, ⟨1, some (-15), some (-1)⟩] })).rd 1 = 0x2A
    ∧ (run1 (.nop (.nop fz)) (nodeX fun x => { x with mpl := 63, prods := [⟨2, some (-15), some (-1)⟩] })).mpl = 0xFFFFFFFFFFFFFFF1 := by decide +kernel

/-- LH sign-extends, low byte first; ST stores low byte first. -/
theorem test_load_store : (run1 (.lh (fb 2)) { nodeX (regs 0x100 0) with mem := [(0x102, 0x34), (0x103, 0x92)] }).rd 1 = 0xFFFFFFFFFFFF9234
    ∧ (after (exec (.sh { fb 2 with rd := 3 }) (nodeX (regs 0x100 0x9234)))).mem = [(0x102, 0x34), (0x103, 0x92)] := by decide +kernel

/-- Chapter 04, B LT back 12 instructions: taken where N and V differ. -/
theorem test_branch : (run1 (.b ⟨0, 2, 0x3FFF4⟩) (nodeX fun x => { x with pc := 0x100, n := true })).pc = 0xD0
    ∧ (run1 (.b ⟨0, 2, 0x3FFF4⟩) (nodeX fun x => { x with pc := 0x100 })).pc = 0x104 := by decide +kernel

/-- Chapter 04, eight calls deep: step 1 and step 8 (80 bytes on, window 0 spilled, window 7 free). -/
theorem test_windows : (let x := run1 (.call (fd 4)) node; (x.pc, x.cwp, x.wvalid, x.reel)) = (16, 1, 3, [4])
    ∧ (let x := run1 (.wspill fz) (nodeX fun x => { x with cwp := 6, wvalid := 0x7F, wsp := 0x200000, wslimit := 0x200400 }); (x.wvalid, x.wsp)) = (0x7E, 0x200050) := by
  decide +kernel

/-- C1 of chapter 05's worked example, at the CALL of step 1. -/
def kernel05 : State :=
  (forN 32 (fun k s => s.setReg (0x50100 + 8 * k) 0x0101010101010101) two |>.onCore fun k => { k with cur := .c1 }).setCtx .c1 { Ctx.reset with
    pc := 0x12340, pl := 0, cwp := 5, wvalid := 0xBF, reel := List.replicate 6 4, wsp := 0x31FFC0, wslimit := 0x320000, xspS := 0x304000, xsbaseS := 0x300000,
    xslimitS := 0x304000, xvecS := 0x8000, xdeleg := 0x2140 }

/-- Step 1: WINDOW_OVF, fast entry to S. -/
theorem test_window_overflow : (let x := run1 (.call (fd 4)) { kernel05 with core := { kernel05.core with c1 := { kernel05.core.c1 with xdeleg := 0xFFFFFFFFFFFFFFFF } } };
    ((x.pc, x.zpc, x.zst, x.pl), x.fast, x.zbusy, x.cwp, x.wvalid)) = ((0x8000, 0x12340, 0x0000000800000058, 1), true, true, 5, 0xBF) := by decide +kernel

/-- Step 2: the WSPILL in fast mode raises ACCESS. -/
def spill05 : State := kernel05.setCtx .c1 { kernel05.core.c1 with
  pc := 0x8208, pl := 1, fast := true, p := true, zbusy := true, zpc := 0x12340, zst := 0x0000000800000058, xdeleg := 0xFFFFFFFFFFFFFFFF }

/-- Step 3: the frame's words, and the spare window. -/
theorem test_frame : (let t := after (exec (.wspill fz) spill05); let x := t.cx
    ((x.pl, x.fast, x.spare), (x.cwp, x.wvalid, x.xnest), (List.range 8).map fun i => leNat (t.mem.read (0x303FC0 + 8 * i) 8)))
    = ((1, false, true), (5, 0xBF, 1), [0x8208, 0x105D, 0x06, 0x31FFC0, 0x1000006BF, 0x12340, 0x0000000800000058, 0x0F800000]) := by decide +kernel

/-- Step 7: the fast return to the CALL. -/
theorem test_fast_return : (let x := run1 (.eret fz) (spill05.setCtx .c1 { spill05.core.c1 with wvalid := 0x3F }); (x.pc, x.pl, x.fast, x.zbusy, x.cwp, x.wvalid))
    = (0x12340, 0, false, false, 5, 0x3F) := by decide +kernel

def tenant06 : State :=
  ((forN 32 (fun k s => s.setReg (0x50100 + 8 * k) 0x0101010101010101) two).onCore fun k => { k with cur := .c1, mxDirty := 0x33 }).setCtx .c1
    { Ctx.reset with xspM := 0x4000, xslimitM := 0x4000 }

/-- Chapter 06, step 1: an MMAS of T0, T5 and T9 in C1 while C0 owns dirty groups 0, 1, 4 and 5: XADDR 0x3397. -/
theorem test_not_owned : (run1 (.mmas { fp with p1 := 0x28, p2 := 0x11127FFF }) tenant06).xaddrM = 0x3397 := by decide +kernel

/-! ### Formats, the array and the vector unit -/

/-- Chapter 08: 36.0 drained to E4M3 and BF16; the 16 LFSR steps; the stochastic drain's two outcomes. -/
theorem test_formats : (e4m3.enc (.fin false 36 0)).code = 0x61 ∧ (bf16.enc (.fin false 36 0)).code = 0x4210 ∧ histBin (.fin false 36 0) = some 37
    ∧ lfsr16 1 = 0xB6F6B6C3 ∧ (bf16Stoch (.fin false 1029 (-10)) 0xB6C3).code = 0x3F80 ∧ (bf16.enc (.fin false 1029 (-10))).code = 0x3F81
    ∧ (bf16Stoch (.fin false 515 (-9)) 0xB6C3).code = 0x3F81 := by decide +kernel

/-- Chapter 11: one MXFP4 block; chapter 08: a block whose largest magnitude is 36.0 in E4M3. -/
theorem test_vqmx : (let b := mxBlock 3 ([0x40A00000, 0xBE99999A, 0x3E800000, 0x40266666].map fp32.dec ++ List.replicate 28 (fp32.dec 0x3F800000))
      (b.1.take 5, b.2.1)) = ([6, 9, 0, 5, 2], 0x7F)
    ∧ (let b := mxBlock 4 (.fin false 36 0 :: List.replicate 31 (.fin false 0 0)); (b.1.take 1, b.2.1)) = ([0x79], 0x7C) := by decide +kernel

/-- Chapter 10: cancellation inside the window. -/
theorem test_mma_float :
    (let row (l : List Nat) : List Byte := l.flatMap (toLe 2)
    let m0 : Mx := { Mx.reset with tags := [(0, ⟨1, 16, 6⟩), (1, ⟨1, 16, 6⟩)] }
    let file := (m0.file.write 0 (row [0x44C0, 0x3800, 0, 0, 0xC4C0, 0x3300, 0x3080, 0])).write 4096 (row [0x4480, 0x3800, 0, 0, 0x4480, 0x3300, 0x3080, 0])
    let t := after (exec (.mma { fp with p2 := 0x19800E00 }) { node with mx := { m0 with file := file } })
    (t.mx.acc.cell 0 0, t.mx.acc.lossCnt, t.mx.acc.mode)) = (⟨0x400004, 0x21C⟩, 1, 1) := by decide +kernel

/-- Chapter 10: the second MMA of the INT16 example takes ACS to 2 (here for cell (0,0) alone). -/
theorem test_mma_int16 :
    (let m0 : Mx := { Mx.reset with mode := 2, tags := [(0, ⟨2, 128, 0⟩), (1, ⟨2, 128, 0⟩)], acc := { AccSet.reset with
      mode := 3, cells := [(0, ⟨16384, 0⟩)] } }
    let file := (m0.file.write 0 (List.replicate 128 0x88)).write 8192 (List.replicate 128 0x88)
    let t := after (exec (.mma { fp with p1 := 0xC, p2 := 0x1FE00 }) { node with mx := { m0 with file := file } })
    (t.mx.acc.acs, (t.mx.acc.cell 0 0).v)) = (2, 8192) := by decide +kernel

/-- Chapter 09, step 2: TILE_SHAPE 0x04, role B, and its XADDR. -/
theorem test_tile_shape :
    (({ node with mx := { Mx.reset with tags := [(0, ⟨40, 64, 6⟩), (4, ⟨16, 48, 6⟩)] } } : State).productFit false { fp with p1 := 0x20, p2 := 0x19803FFF }).map
      (fun f => (f.cause, f.addr)) = some (cTileShape, 0x4010063010040402) := by decide +kernel

/-! ### Standards -/

/-- FIPS 180-4's example "abc"; the CRC-32 check value of "123456789"; the AES-256-GCM tag of nothing under zeros. -/
theorem test_standards : (sha384 [0x61, 0x62, 0x63]).take 8 = [0xCB, 0x00, 0x75, 0x3F, 0x45, 0xA3, 0x5E, 0x8B]
    ∧ frameCrc [0x31, 0x32, 0x33, 0x34, 0x35, 0x36, 0x37, 0x38, 0x39] = 0xCBF43926
    ∧ gcmTag (aesKeys (List.replicate 32 0)) (List.replicate 12 0) [] []
      = [0x53, 0x0F, 0x8A, 0xFB, 0xC7, 0x45, 0x36, 0xB9, 0xA9, 0x63, 0xB4, 0xF1, 0xC4, 0xCB, 0x73, 0x8B] := by decide +kernel

/-! ### Packets, the queue engine, links and start-up -/

/-- Chapter 03: the value 0x4A7 at image bits [538:528] is VALID with column 167. -/
theorem test_repair : repairEntry (toLe 256 (0x4A7 * 2 ^ 528)) 3 0 = 1024 + 167 := by decide +kernel

/-- R76: a COORD of a sender at X = 3 on W gives X = 4. -/
theorem test_coord : (let t := after (exec (.coord { port := .w, pkt := Packet.mk' 0x11 2 0 0 0 ([3, 0] ++ List.replicate 30 0), err := .clean }) early)
    (t.g F.coordX, t.up.xKnown, t.is F.coordValid)) = (4, true, false) := by decide +kernel

/-- A WRITE to the own node stores its bytes and frees the router. -/
theorem test_write_packet : (let t := after (exec (.write (at' { wr with dst := 0x3FF8 } .clean)) served); (t.mem.read 0x3FF8 8, t.rtr.inq)) = ([1, 2, 3, 4, 5, 6, 7, 8], []) := by
  decide +kernel

/-- A READ of the own node answers with READ_DATA to its source. -/
theorem test_read_packet : (let t := after (exec (.read (at' { Packet.mk' 1 0 0x3FF8 8 9 [] with src := 2 } .clean)) { served with mem := [(0x3FF8, 7)] })
    t.rtr.held.map fun h => (h.out, h.pkt.ty, h.pkt.tag, h.pkt.payload)) = [(.e, 2, 9, [7, 0, 0, 0, 0, 0, 0, 0])] := by decide +kernel

/-- Chapter 12: the dropped N branch at (6,3) sends MC_DROP with AUX 0x2290C6 to (2,3). -/
theorem test_mc_drop : (let h : Held := { pkt := { wr with ty := 0x0B, vc := 3, aux := 0x2290C6, src := 98 }, inp := .w, out := .n, branch := true, sent := 0, owed := 8, ticks := 101, cls1 := false, drop := 0x2290C6 }
    let s := ((((node.put F.coordX 6).put F.coordY 3).put F.mcHold 100).put F.dieW 16).put F.dieH 16
    let t := after (exec (.mcBranchHoldExpiry .n) { s with rtr := { s.rtr with held := [h] } })
    (t.g F.mcDrop, t.rtr.held.map fun h => (h.pkt.ty, h.pkt.aux, h.pkt.dst))) = (1, [(0x0C, 0x2290C6, 0x0000620000000000)]) := by decide +kernel

/-- Chapter 14: the record of a KERNEL at index 10 of ring 2, PHASE 1, STATUS OK: byte 4 is 0x12. -/
theorem test_record : (let d := desc 1 fun k => if k = 1 then 0x80 else if k = 9 then 8 else 0
    let s := (executing d none).setRing 2 { Ring.reset with exec := some { desc := d, index := 10, ticks := 2113, energy := 13125 * 256, est := 0, eng := Engine.fresh, ended := some ⟨0, 0, 0, false⟩ } }
    let t := after (exec (.descriptorComplete 2) s)
    (leNat (t.mem.read 0x800 8), leNat (t.mem.read 0x808 8))) = (0x00000012000A0001, 0x0000084100003345) := by decide +kernel

/-- Chapter 13: narrow of 0b1011 is 0b0011. -/
theorem test_narrow : narrow 0b1011 = 0b0011 := by decide

/-- Chapter 15, tick 401: 120 nJ against a FILL of 25 nJ take 95 nJ from B (R422); a tick of no activity adds FILL. -/
theorem test_bucket : (let s := (((node.put F.fill 400).put F.cap 3750).put F.debtMax 5000).put F.bucket (59000 * 16)
    let t := after (exec (.aonTick ⟨[], 0, 550⟩) s)
    (s.bucketLevel - (s.bucketTick (120 * 16)).bucketLevel, t.bucketLevel - s.bucketLevel, t.g F.ltime)) = (95 * 16, 400, 1) := by decide +kernel

/-- Chapter 19, steps 3 and 7 at M: control space of CORE_ reads 0; step 5: a 4-byte store there raises ALIGN. -/
theorem test_control_space : (run1 (.ld (fb 0)) (nodeX fun x => { x with g := [(1, 9), (2, 0x0100060000)] })).rd 1 = 0
    ∧ (let s := nodeX fun x => { x with g := [(2, 0x0100050018)], xspM := 0x4000, xslimitM := 0x4000 }; (run1 (.sw (fb 0)) s).xcauseM) = BitVec.ofNat 9 cAlign := by
  decide +kernel

/-- R19: QE_CQPOP's own context takes the oldest word; MBPUT to a READY slot answers 1. -/
theorem test_queue : (after (exec (.qeCqpop .c0 ⟨.core, wr⟩) { node with qe := { Queue.reset with cq0 := [4, 5] } })).qe.cq0 = [5]
    ∧ (run1 (.mbput fa) (node.put F.mboxReady 1)).rd 1 = 1 := by decide +kernel

end Sys2Proof.Tests
end

section
/-! PROOF of O20: the branches and jumps of R110 and R116. -/

namespace Sys2Proof.Machine

variable {s : State}

/-! ### An encoding that is not legal -/

/-- An instruction that issues is past the test of the core's readiness. -/
theorem Issues.goes {e : Enc} (h : Issues s e) : (!s.canIssue || (e.mx && s.core.chestOp.isSome)) = false := by
  obtain ⟨hcan, hchest⟩ := h
  cases hm : e.mx
  · simp [hcan]
  · simp [hcan, hchest hm]

/-- A fetched instruction whose encoding is not legal comes to ILLEGAL at its own address, whatever its meaning (R120). -/
theorem issue_illegal {e : Enc} {f : State → Done} (hi : Issues s e) (hf : (s.begun e.len).fetchCause e = none)
    (hm : (s.begun e.len).fetchMiss e = none) (hl : e.legal = false) :
    s.issue e f = s.conclude e (s.begun e.len).cx.pc (.exc (s.begun e.len) cIllegal (s.begun e.len).cx.pc) := by
  simp [State.issue, hi.goes, hf, hm, hl]

theorem raises_illegal {i : Instr} {e : Enc} {f : State → Done} (he : exec i s = .next (s.issue e f)) (hi : Issues s e)
    (hf : (s.begun e.len).fetchCause e = none) (hm : (s.begun e.len).fetchMiss e = none) (hl : e.legal = false) :
    Raises i s e cIllegal s.begun.cx.pc := by
  unfold Raises
  rw [he, issue_illegal hi hf hm hl, begun_cx (n := e.len)]
  rfl

/-! ### Conditions and targets -/

/-- The branch conditions of R110 in the order of their codes; a code from 0xC up names none. -/
theorem Ctx.branch_eq_getD (x : Ctx) : ∀ cc : Nat,
    x.branch cc = [x.z, !x.z, x.n != x.v, x.n == x.v, !x.cf, x.cf, x.n, !x.n, x.v, !x.v, !x.z && x.n == x.v,
      x.z || x.n != x.v].getD cc false
  | 0 | 1 | 2 | 3 | 4 | 5 | 6 | 7 | 8 | 9 | 10 | 11 => rfl
  | _ + 12 => rfl

/-- An offset counts words (R116). -/
theorem relTarget_eq {n : Nat} (pc : Word) (off : BitVec n) : relTarget pc off = pc + BitVec.ofInt 64 (4 * off.toInt) := by
  have hmul : sext off <<< 2 = 4#64 * sext off := by
    rw [BitVec.shiftLeft_eq_mul_twoPow, BitVec.mul_comm]; rfl
  have hext : sext off = BitVec.ofInt 64 off.toInt := rfl
  rw [relTarget, hmul, hext, BitVec.ofInt_mul]
  rfl

/-! ### Jumps -/

/-- The encoding of B: its condition field is 0 and its code one of R110. -/
def encBranch (c : FrameC) : Enc :=
  { parcel := c.parcel 0x30, len := 4, cond := 0, legal := c.cond = 0 && decide (c.cc.toNat < 0xC), level := 0, mx := false }

theorem answers_jump {i : Instr} {e : Enc} {f : State → Done} {a : Word} (he : exec i s = .next (s.issue e f)) (h : Runs s e)
    (hn : e.len = 4) (hf : f s.begun = .to s.begun a) : Answers i s s.begun.cx a :=
  answers_to he h hn (by rw [State.setCx_cx, hf])

theorem b_answers {c : FrameC} (h : Runs s (encBranch c)) : Answers (.b c) s s.begun.cx
    (if s.begun.cx.branch c.cc.toNat then s.begun.cx.pc + BitVec.ofInt 64 (4 * c.off.toInt) else s.begun.cx.pc + 4) := by
  by_cases hb : s.begun.cx.branch c.cc.toNat = true
  · rw [if_pos hb, ← relTarget_eq]
    exact answers_jump rfl h rfl (if_pos hb)
  · rw [if_neg hb]
    exact answers_next rfl h rfl (by rw [State.setCx_cx]; exact if_neg hb)

theorem b_illegal {c : FrameC} (hi : Issues s (encBranch c)) (hf : s.begun.fetchCause (encBranch c) = none)
    (hm : s.begun.fetchMiss (encBranch c) = none) (hc : 0xC ≤ c.cc.toNat) : Raises (.b c) s (encBranch c) cIllegal s.begun.cx.pc :=
  raises_illegal rfl hi hf hm (by simp [encBranch]; omega)

theorem j_answers {d : FrameD} (h : Runs s (encD 0x31 true d)) :
    Answers (.j d) s s.begun.cx (s.begun.cx.pc + BitVec.ofInt 64 (4 * d.off.toInt)) := by
  rw [← relTarget_eq]
  exact answers_jump rfl h rfl rfl

theorem jr_answers {b : FrameB} (h : Runs s (encB 0x33 0 (b.rd = 0) b)) (ha : (s.begun.ea b).toNat % 4 = 0) :
    Answers (.jr b) s s.begun.cx (s.begun.ea b) :=
  answers_jump rfl h rfl (if_neg (fun hne => hne ha))

theorem jr_misaligned {b : FrameB} (h : Runs s (encB 0x33 0 (b.rd = 0) b)) (ha : (s.begun.ea b).toNat % 4 ≠ 0) :
    Raises (.jr b) s (encB 0x33 0 (b.rd = 0) b) cAlign (s.begun.ea b) :=
  raises_exc rfl h (if_pos ha)

end Sys2Proof.Machine

open Sys2Proof Sys2Proof.Machine

/-- Settles O20: B by its condition's flags and its illegal codes, J and JR by where they go. -/
theorem jumps : Obligations.Jumps := by
  intro s
  refine ⟨fun c => ?_, fun c => b_illegal, fun d => j_answers, fun b h => ⟨jr_answers h, jr_misaligned h⟩⟩
  intro holds h
  have hb : holds = s.begun.cx.branch c.cc.toNat := (Ctx.branch_eq_getD _ _).symm
  rw [hb]
  exact b_answers h

end

section
/-! PROOF of O24: fast entry as R145 lays it down, and the window and Reel causes it leaves to normal entry. -/

namespace Sys2Proof.Machine

variable {s t : State} {id : CtxId} {c T : Nat} {a pc : Word} {inst : Word32}

/-! ### Which entry a cause takes -/

/-- A producer writes MPL and MPH only, so ZBUSY is the same before and after the flush of R113. -/
@[simp] theorem Ctx.zbusy_flush {x : Ctx} : x.flush.zbusy = x.zbusy :=
  List.foldlRecOn (motive := fun y : Ctx => y.zbusy = x.zbusy) x.prods Ctx.commit rfl fun _ hy _ _ => hy

theorem enter_eq_fastEntry (h : c = cDoorbell ∨ c = cMessage ∨ (cWindowOvf ≤ c ∧ c ≤ cReelUnf ∧ (s.ctx id).zbusy = false)) :
    s.enter id c T a pc inst = s.fastEntry id c T pc := if_pos h

/-- No window or Reel cause is a DOORBELL or a MESSAGE. -/
theorem enter_eq_normalEntry (hlo : cWindowOvf ≤ c) (hhi : c ≤ cReelUnf) (hz : (s.ctx id).zbusy = true) :
    s.enter id c T a pc inst = s.normalEntry id c T 0 pc inst := by
  have hslow : ¬ (c = cDoorbell ∨ c = cMessage ∨ (cWindowOvf ≤ c ∧ c ≤ cReelUnf ∧ (s.ctx id).zbusy = false)) := by
    rintro (rfl | rfl | ⟨-, -, hfree⟩)
    · exact absurd hhi (by decide)
    · exact absurd hhi (by decide)
    · simp [hz] at hfree
  unfold State.enter
  rw [if_neg hslow, if_pos ⟨hlo, hhi⟩]

/-! ### What fast entry does -/

/-- The context `x` of number `id` after fast entry at level `T` for cause `c`, with `pc` saved. -/
def Ctx.fastEntered (x : Ctx) (id : CtxId) (c T : Nat) (pc : Word) : Ctx :=
  { x with
    zpc := pc, zst := BitVec.ofNat 64 (pstatNat id x + 2 ^ 32 * c) &&& zstMask, zbusy := true,
    pl := BitVec.ofNat 2 T, fast := true, ie := false, p := true, pc := x.xvec T }

/-- Fast entry replaces the entering context, and only counters see it besides. -/
theorem fastEntry_like : Like (s.setCtx id ((s.ctx id).flush.fastEntered id c T pc)) (s.fastEntry id c T pc) := perf_like

theorem Like.ctx (h : Like s t) : t.ctx id = s.ctx id := by
  unfold State.ctx
  rw [h.core]

theorem fastEntry_ctx : (s.fastEntry id c T pc).ctx id = (s.ctx id).flush.fastEntered id c T pc := by
  rw [fastEntry_like.ctx, State.ctx_setCtx]

theorem fastEntry_ctx_other : (s.fastEntry id c T pc).ctx id.other = s.ctx id.other := by
  rw [fastEntry_like.ctx, State.ctx_setCtx_next]

theorem fastEntry_cur : (s.fastEntry id c T pc).core.cur = s.core.cur := by
  rw [fastEntry_like.core, State.setCtx_core_cur]

theorem fastEntry_mem_byte (b : Nat) : (s.fastEntry id c T pc).mem.byte b = s.mem.byte b := by
  rw [fastEntry_like.mem, State.setCtx_mem]

/-- The register map of fast mode (R98): G0 to G3 in place, the fast bank at every other number. -/
theorem Ctx.loc_of_fast {x : Ctx} (hx : x.fast = true) (r : BitVec 5) :
    x.loc r = if r = 0 then .zero else if r.toNat < 4 then .g r.toNat else .z (r.toNat % 16) := by
  have hzero : r = 0 ↔ r.toNat = 0 := BitVec.toNat_inj.symm
  have hbound : r.toNat < 32 := r.isLt
  unfold Ctx.loc
  simp only [hx, if_true, hzero]
  by_cases hlow : r.toNat < 16
  · rw [if_pos hlow, Nat.mod_eq_of_lt hlow]
  · rw [if_neg hlow, show r.toNat % 16 = r.toNat - 16 by omega]

end Sys2Proof.Machine

open Sys2Proof Sys2Proof.Machine

/-- Settles O24: a busy ZBUSY sends a window or Reel cause to normal entry; the other causes named come to fast entry, which
replaces the entering context by `Ctx.fastEntered`. -/
theorem fastEntry : Obligations.FastEntry := by
  intro s id c T a pc inst x t y
  refine ⟨fun hlo hhi hz => enter_eq_normalEntry hlo hhi (Ctx.zbusy_flush.symm.trans hz), fun _ hc => ?_⟩
  have ht : t = s.fastEntry id c T pc := enter_eq_fastEntry (by simpa [x] using hc)
  have hy : y = x.fastEntered id c T pc := by
    simp only [y, ht, fastEntry_ctx, x]
  rw [hy, ht]
  exact ⟨rfl, rfl, rfl, rfl, rfl, rfl, rfl, rfl, rfl, rfl, rfl, rfl, rfl, rfl, rfl, rfl,
    fastEntry_mem_byte, fastEntry_ctx_other, fastEntry_cur, Ctx.loc_of_fast rfl⟩

end
